-- ==== Sys2Proof/Word.lean ====
section
/-! DEFINITION. The word types of the device: registers are 32 bits wide (R10), global addresses and
ITNUM scalars 64 bits (R68, R86), memory is addressed by the byte. -/
namespace Sys2Proof

/-- One byte of memory. -/
abbrev Byte := BitVec 8
/-- One device register (R10). -/
abbrev W32 := BitVec 32
/-- One ITNUM scalar, one global address, one architected word of a tier (R86, R68, R101). -/
abbrev W64 := BitVec 64

end Sys2Proof
end

