-- ==== Sys2Proof/Config.lean ====
section
/-! DEFINITION. The free values of the model: constants without a body, so that no proof can learn a value
of theirs. Each stands where the spec leaves a value or a choice open; the log entry is named beside it. -/
namespace Sys2Proof.Config

/-- Choices and words that the spec calls unspecified (R9): the n-th draw of a run (log 5). -/
opaque freeWord : Nat → W64
/-- The distance, in units of the last place, by which a vector-unit function of Table 07-4 misses its exact
result: a fixed function of the function's number and its operand (R186; log 6). -/
opaque fpSlack : Nat → W32 → Int
/-- How far, in ns, the time-stamp counter of a die (2: the Vat die) stands ahead of the least of the three; taken modulo 5,
so that the three agree within 4 ns (R62; log 70). -/
opaque tsAhead : Nat → Nat
/-- SHA-384 digests, ECDSA signatures and verifications, certificates and the random generator of the security
block: R500 to R510 use them and name no algorithm the model could carry out bit by bit (log 7). -/
opaque sigValid : List Byte → Bool
opaque digest : List Byte → List Byte
opaque signature : List Byte → List Byte
/-- The inline AES engine: direction (true: to ciphertext), key generation, tweak and bytes (R499; log 7). -/
opaque aes : Bool → Nat → Nat → List Byte → List Byte
/-- Values fused or issued at manufacture (R498, R502, R508): the unit serial, the identity certificate. -/
opaque serial : W64
opaque certificate : List Byte
/-- The digest of the boot ROM, which is no part of an image (Table 18-5; log 7). -/
opaque bootRomDigest : List Byte
/-- Words of a function's configuration space that the spec gives no value (R422, Table 16-2; log 45). -/
opaque cfgWord : Nat → W32
/-- A sum of integers that saturates in one order of its terms and not in another; the sign of an extreme zero where both are there (R134,
R178; log 27). -/
opaque satSum : List Int → Int
opaque zeroSign : Bool → List W32 → Bool
/-- What an integer TDD takes for an output that is no number under OSC, from the output entry's scale and zero point (R184; log 77). -/
opaque oscNan : W32 → Int → Int
/-- Bits of a controller's registers in BAR0 that the spec gives no value (R425, Table 16-3; log 75). -/
opaque ctrlRest : Nat → W32

end Sys2Proof.Config
end

