-- ==== Sys2Proof/Machine/Tab.lean ====
section
/-! DEFINITION. Tables: lists of key and value pairs with strictly rising keys. Sparse memories, register files,
contexts, objects and queues of numbered entries are all held this way, so that equal tables are equal lists. -/
namespace Sys2Proof.Machine

/-- A table from numbers to values. Keys rise strictly in every table the model builds. -/
abbrev Tab (α : Type) := List (Nat × α)

/-- The value at a key, if the table lists one. -/
def Tab.find {α : Type} : Tab α → Nat → Option α
  | [], _ => none
  | (j, v) :: r, k => if j = k then some v else Tab.find r k

/-- The value at a key, or d where the table lists none. -/
def Tab.getD {α : Type} (t : Tab α) (k : Nat) (d : α) : α := (Tab.find t k).getD d

/-- Lists v at key k, in the place that keeps the keys rising. -/
def Tab.put {α : Type} : Tab α → Nat → α → Tab α
  | [], k, v => [(k, v)]
  | (j, w) :: r, k, v =>
    if k < j then (k, v) :: (j, w) :: r
    else if k = j then (k, v) :: r
    else (j, w) :: Tab.put r k v

/-- Lists nothing at key k. -/
def Tab.del {α : Type} : Tab α → Nat → Tab α
  | [], _ => []
  | (j, w) :: r, k => if j = k then Tab.del r k else (j, w) :: Tab.del r k

/-- Stores v at key k where d is what an unlisted key reads as: storing d removes the entry. -/
def Tab.store {α : Type} [DecidableEq α] (t : Tab α) (k : Nat) (v d : α) : Tab α :=
  if v = d then Tab.del t k else Tab.put t k v

/-- Keys rise strictly from a bound on. -/
def Tab.risesFrom {α : Type} : Nat → Tab α → Bool
  | _, [] => true
  | b, (j, _) :: r => decide (b ≤ j) && Tab.risesFrom (j + 1) r

/-- Changes the value at a key that is listed; a key that is not listed stays so. -/
def Tab.modify {α : Type} : Tab α → Nat → (α → α) → Tab α
  | [], _, _ => []
  | (j, w) :: r, k, f => if j = k then (j, f w) :: r else (j, w) :: Tab.modify r k f

/-- The keys of a table. -/
def Tab.keys {α : Type} (t : Tab α) : List Nat := t.map (·.1)

/-- The lowest number below n that is not a key of the table (n when all are). -/
def Tab.firstFree {α : Type} (t : Tab α) : Nat → Nat → Nat
  | 0, k => k
  | n + 1, k => if (Tab.find t k).isSome then Tab.firstFree t n (k + 1) else k

end Sys2Proof.Machine
end

