-- ==== Sys2Proof/Machine/Bits.lean ====
section
/-! DEFINITION. Bit fields, sign extension and byte order. Bits are numbered from 0 at the least significant end and
ranges are written [hi:lo] (00_scope.md, Conventions of writing); every word is little-endian (R10, R116). -/
namespace Sys2Proof.Machine

/-- A bit field: its lowest bit and its width. -/
structure Fld where
  lo : Nat
  w : Nat
  deriving DecidableEq, Repr

/-- The value of bits [lo + w - 1 : lo] of a number. -/
def bitsOf (v lo w : Nat) : Nat := (v / 2 ^ lo) % 2 ^ w

/-- A number with bits [lo + w - 1 : lo] replaced by the low w bits of x. -/
def withBits (v lo w x : Nat) : Nat := v - bitsOf v lo w * 2 ^ lo + (x % 2 ^ w) * 2 ^ lo

/-- A field of a 32-bit register. -/
def getF (v : W32) (f : Fld) : Nat := bitsOf v.toNat f.lo f.w
/-- A 32-bit register with one field replaced. -/
def setF (v : W32) (f : Fld) (x : Nat) : W32 := BitVec.ofNat 32 (withBits v.toNat f.lo f.w x)

/-- Bits [lo + w - 1 : lo] of a 64-bit word, as a number. -/
def bits64 (v : W64) (lo w : Nat) : Nat := bitsOf v.toNat lo w
/-- One bit of a 64-bit word. -/
def bit64 (v : W64) (i : Nat) : Bool := v.getLsbD i

/-- A w-bit two's-complement number as an integer. -/
def signedOf (w x : Nat) : Int := if x % 2 ^ w < 2 ^ (w - 1) then (x % 2 ^ w : Nat) else (x % 2 ^ w : Nat) - (2 ^ w : Nat)
/-- An integer modulo 2^w, as a number. -/
def wrapTo (w : Nat) (i : Int) : Nat := (i % (2 ^ w : Nat)).toNat
/-- An integer held to the range of a w-bit two's-complement number. -/
def satTo (w : Nat) (i : Int) : Int :=
  if i < -((2 ^ (w - 1) : Nat) : Int) then -((2 ^ (w - 1) : Nat) : Int)
  else if i > ((2 ^ (w - 1) : Nat) : Int) - 1 then ((2 ^ (w - 1) : Nat) : Int) - 1 else i

/-- The value of little-endian bytes. -/
def leVal : List Byte → Nat
  | [] => 0
  | b :: r => b.toNat + 256 * leVal r
/-- The n little-endian bytes of a number. -/
def leBytes : Nat → Nat → List Byte
  | 0, _ => []
  | n + 1, v => BitVec.ofNat 8 v :: leBytes n (v / 256)

/-- A quotient rounded up. -/
def ceilDiv (a b : Nat) : Nat := (a + b - 1) / b
/-- A number rounded down to a multiple. -/
def alignDown (a n : Nat) : Nat := a - a % n
/-- Holds a number to a range. -/
def clampTo (lo hi x : Nat) : Nat := if x < lo then lo else if x > hi then hi else x
/-- A Boolean as 0 or 1. -/
def b2n (b : Bool) : Nat := if b then 1 else 0

/-- The times of a kind of event within the millisecond that ends now, with one more event now (R31, R276). -/
def lastMs (now : Nat) (l : List Nat) : List Nat := now :: l.filter (fun t => now ≤ t + 1000000)

/-- Of the times of a kind of event, those within the millisecond that ends now. -/
def inMs (now : Nat) (l : List Nat) : List Nat := l.filter (fun t => now ≤ t + 1000000)

/-- The numbers from a on, n of them. -/
def upFrom (a n : Nat) : List Nat := (List.range n).map (a + ·)

/-- Applies f to a state for each number below n, from 0 up. -/
def iterN {σ : Type} (f : Nat → σ → σ) : Nat → σ → σ
  | 0, s => s
  | n + 1, s => f n (iterN f n s)

end Sys2Proof.Machine
end

