-- ==== Sys2Proof/Machine/Fp.lean ====
section
/-! DEFINITION. Number formats and their conversions (07_numerics_and_quantisation.md, R172 to R181): each float pattern
is read as an exact value, results are formed exactly and rounded once. -/
namespace Sys2Proof.Machine

/-- The exact value of a float pattern: a NaN, an infinity, or (−1)^neg · m · 2^e. -/
inductive FV where
  | nan
  | inf (neg : Bool)
  | fin (neg : Bool) (m : Nat) (e : Int)
  deriving DecidableEq, Repr

/-- The float formats of Table 07-1. -/
inductive FK where
  | fp32 | bf16 | fp16 | e4m3 | e5m2 | e2m1
  deriving DecidableEq, Repr

/-- Exponent bits. -/
def FK.eb : FK → Nat
  | .fp32 => 8 | .bf16 => 8 | .fp16 => 5 | .e4m3 => 4 | .e5m2 => 5 | .e2m1 => 2
/-- Fraction bits. -/
def FK.mb : FK → Nat
  | .fp32 => 23 | .bf16 => 7 | .fp16 => 10 | .e4m3 => 3 | .e5m2 => 2 | .e2m1 => 1
/-- Exponent bias. -/
def FK.bias : FK → Nat
  | .fp32 => 127 | .bf16 => 127 | .fp16 => 15 | .e4m3 => 7 | .e5m2 => 15 | .e2m1 => 1
/-- Code of the largest finite value (Table 07-1). -/
def FK.maxCode : FK → Nat
  | .fp32 => 0x7F7FFFFF | .bf16 => 0x7F7F | .fp16 => 0x7BFF | .e4m3 => 0x7E | .e5m2 => 0x7B | .e2m1 => 7
/-- Code of the canonical NaN (R177); E2M1 has none. -/
def FK.nanCode : FK → Nat
  | .fp32 => 0x7FC00000 | .bf16 => 0x7FC0 | .fp16 => 0x7E00 | .e4m3 => 0x7F | .e5m2 => 0x7F | .e2m1 => 0
/-- Code of +∞, or of the largest finite value where the format has none (Table 07-2). -/
def FK.infCode : FK → Nat
  | .fp32 => 0x7F800000 | .bf16 => 0x7F80 | .fp16 => 0x7C00 | .e4m3 => 0x7E | .e5m2 => 0x7C | .e2m1 => 7
/-- Code a finite overflow takes (Table 07-2). -/
def FK.ovfCode : FK → Nat
  | .fp32 => 0x7F800000 | .bf16 => 0x7F80 | .fp16 => 0x7C00 | .e4m3 => 0x7E | .e5m2 => 0x7B | .e2m1 => 7
/-- The sign bit's place. -/
def FK.signBit (k : FK) : Nat := k.eb + k.mb
/-- The least exponent of a normal value. -/
def FK.emin (k : FK) : Int := 1 - (k.bias : Int)

/-- The value of a pattern (R172, Table 07-1). -/
def decF (k : FK) (code : Nat) : FV :=
  let neg := bitsOf code k.signBit 1 == 1
  let ex := bitsOf code k.mb k.eb
  let fr := bitsOf code 0 k.mb
  let top := 2 ^ k.eb - 1
  let val : FV := if ex = 0 then .fin neg fr (k.emin - k.mb)
    else .fin neg (2 ^ k.mb + fr) ((ex : Int) - k.bias - k.mb)
  match k with
  | .e2m1 => val
  | .e4m3 => if ex = top ∧ fr = 7 then .nan else val
  | _ => if ex = top then (if fr = 0 then .inf neg else .nan) else val

/-- Quantum of a format at a magnitude m · 2^e: the exponent of the last place. -/
def FK.quantum (k : FK) (m : Nat) (e : Int) : Int :=
  max (e + (Nat.log2 m : Int) - k.mb) (k.emin - k.mb)

/-- m · 2^s rounded to an integer, to nearest with ties to even (R175). -/
def rneShift (m : Nat) (s : Int) : Nat :=
  if s ≥ 0 then m * 2 ^ s.toNat
  else
    let d := 2 ^ (-s).toNat
    let q := m / d
    let r := m % d
    if 2 * r > d then q + 1 else if 2 * r = d then q + q % 2 else q

/-- The code of n quanta of exponent q (no sign). -/
def FK.codeOf (k : FK) (n : Nat) (q : Int) : Nat :=
  if n < 2 ^ k.mb then n else (q + k.mb + k.bias).toNat * 2 ^ k.mb + (n - 2 ^ k.mb)

/-- Puts a sign on a code. -/
def FK.signed (k : FK) (neg : Bool) (c : Nat) : Nat := if neg then 2 ^ k.signBit + c else c

/-- Conversion to a float format by R175 and Table 07-2. -/
def encF (k : FK) : FV → Nat
  | .nan => k.nanCode
  | .inf neg => k.signed neg k.infCode
  | .fin neg m e =>
    if m = 0 then k.signed neg 0 else
    let q := k.quantum m e
    let c := k.codeOf (rneShift m (e - q)) q
    k.signed neg (if c > k.maxCode then k.ovfCode else c)

/-- A magnitude at least the largest finite value of a format (R179). -/
def FK.atMax (k : FK) (m : Nat) (e : Int) : Bool :=
  match decF k k.maxCode with
  | .fin _ mm me => if e ≥ me then decide (m * 2 ^ (e - me).toNat ≥ mm) else decide (m ≥ mm * 2 ^ (me - e).toNat)
  | _ => false

/-- Stochastic conversion with the random word r (R179, R181). -/
def encSR (k : FK) (r : Nat) : FV → Nat
  | .fin neg m e =>
    if m = 0 ∨ k.atMax m e then encF k (.fin neg m e) else
    let q := k.quantum m e
    let s := e - q
    if s ≥ 0 then encF k (.fin neg m e) else
    let d := 2 ^ (-s).toNat
    let n := if r < (m % d) * 2 ^ 32 / d then m / d + 1 else m / d
    k.signed neg (k.codeOf n q)
  | v => encF k v

/-- G of R180: the random word of an output element. -/
def rndG (seed : W64) (e : Nat) : Nat :=
  let z0 : W64 := seed + BitVec.ofNat 64 (e + 1) * 0x9E3779B97F4A7C15#64
  let z1 : W64 := (z0 ^^^ (z0 >>> 30)) * 0xBF58476D1CE4E5B9#64
  let z2 : W64 := (z1 ^^^ (z1 >>> 27)) * 0x94D049BB133111EB#64
  ((z2 ^^^ (z2 >>> 31)) >>> 32).toNat

/-! ## FP32 arithmetic, each operation exact and then rounded once (R175) -/

/-- The value of an FP32 pattern. -/
def dec32 (w : W32) : FV := decF .fp32 w.toNat
/-- Rounding to FP32. -/
def enc32 (v : FV) : W32 := BitVec.ofNat 32 (encF .fp32 v)

/-- Exact negation. -/
def FV.neg : FV → FV
  | .nan => .nan
  | .inf n => .inf (!n)
  | .fin n m e => .fin (!n) m e

/-- The sign of a value (false for a NaN). -/
def FV.sign : FV → Bool
  | .nan => false
  | .inf n => n
  | .fin n _ _ => n

/-- A finite value as an integer multiple of 2^q, q at most its exponent. -/
def FV.scaled (neg : Bool) (m : Nat) (e q : Int) : Int :=
  let a : Int := ((m * 2 ^ (e - q).toNat : Nat) : Int)
  if neg then -a else a

/-- Exact sum, with the IEEE 754 signs of zero (R178). -/
def FV.add : FV → FV → FV
  | .nan, _ => .nan
  | _, .nan => .nan
  | .inf a, .inf b => if a = b then .inf a else .nan
  | .inf a, _ => .inf a
  | _, .inf b => .inf b
  | .fin na ma ea, .fin nb mb eb =>
    if ma = 0 ∧ mb = 0 then .fin (na && nb) 0 0 else
    let q := min ea eb
    let s := FV.scaled na ma ea q + FV.scaled nb mb eb q
    if s = 0 then .fin false 0 0 else .fin (decide (s < 0)) s.natAbs q

/-- Exact product. -/
def FV.mul : FV → FV → FV
  | .nan, _ => .nan
  | _, .nan => .nan
  | .inf a, .inf b => .inf (a != b)
  | .inf a, .fin n m _ => if m = 0 then .nan else .inf (a != n)
  | .fin n m _, .inf b => if m = 0 then .nan else .inf (n != b)
  | .fin na ma ea, .fin nb mb eb => .fin (na != nb) (ma * mb) (ea + eb)

/-- A quotient to more places than any format keeps, its last bit sticky, so that rounding it rounds the exact one. -/
def FV.div : FV → FV → FV
  | .nan, _ => .nan
  | _, .nan => .nan
  | .inf a, .inf _ => if a then .nan else .nan
  | .inf a, .fin n _ _ => .inf (a != n)
  | .fin n _ _, .inf b => .fin (n != b) 0 0
  | .fin na ma ea, .fin nb mb eb =>
    if mb = 0 then (if ma = 0 then .nan else .inf (na != nb))
    else if ma = 0 then .fin (na != nb) 0 0
    else
      let k := 64 + Nat.log2 mb
      let n := ma * 2 ^ k
      .fin (na != nb) (2 * (n / mb) + b2n (n % mb != 0)) (ea - eb - k - 1)

/-- Numerical order: a below b (R140, R178; −0 equals +0; a NaN is below nothing). -/
def FV.lt : FV → FV → Bool
  | .nan, _ => false
  | _, .nan => false
  | .inf a, .inf b => a && !b
  | .inf a, .fin _ _ _ => a
  | .fin _ _ _, .inf b => !b
  | .fin na ma ea, .fin nb mb eb =>
    let q := min ea eb
    decide (FV.scaled na ma ea q < FV.scaled nb mb eb q)

/-- Numerical equality. -/
def FV.eqv (a b : FV) : Bool := a != .nan && b != .nan && !a.lt b && !b.lt a

/-- An integer as an exact value. -/
def FV.ofInt (i : Int) : FV := .fin (decide (i < 0)) i.natAbs 0

/-- A finite value rounded to an integer, ties to even (R175); none for a NaN. Infinities answer a huge integer of
their sign, which every saturation brings to the end of its range (Table 07-2). -/
def FV.toInt : FV → Option Int
  | .nan => none
  | .inf n => some (if n then -(2 ^ 200 : Nat) else (2 ^ 200 : Nat))
  | .fin n m e => some (if n then -(rneShift m e : Nat) else (rneShift m e : Nat))

/-- FP32 sum. -/
def fadd (a b : W32) : W32 := enc32 ((dec32 a).add (dec32 b))
/-- FP32 difference. -/
def fsub (a b : W32) : W32 := enc32 ((dec32 a).add (dec32 b).neg)
/-- FP32 product. -/
def fmul (a b : W32) : W32 := enc32 ((dec32 a).mul (dec32 b))
/-- FP32 quotient, correctly rounded (R189). -/
def fdiv (a b : W32) : W32 := enc32 ((dec32 a).div (dec32 b))
/-- An integer in FP32. -/
def fofInt (i : Int) : W32 := enc32 (FV.ofInt i)
/-- Is the pattern a NaN? -/
def fisNan (a : W32) : Bool := dec32 a == .nan
/-- FP32 one. -/
def fone : W32 := 0x3F800000#32
/-- The canonical FP32 NaN (R177). -/
def fnan : W32 := 0x7FC00000#32

/-! ## Functions whose result the spec bounds without fixing it (Table 07-4)

Each forms the exact result to some 400 bits, and takes the FP32 value that a free constant picks among those the
bound admits (R186; log 6). -/

/-- The value that slack picks within bound ulps of (−1)^neg · m · 2^e, else the nearest one. -/
def withinUlp (bound : Nat) (slack : Int) (neg : Bool) (m : Nat) (e : Int) : W32 :=
  let q := FK.quantum .fp32 m e
  let c0 := encF .fp32 (.fin false m e)
  let c := (c0 : Int) + slack
  let ok := decide (0 ≤ c) && decide (c ≤ (0x7F7FFFFF : Int)) &&
    (match decF .fp32 c.toNat with
     | .fin _ cm ce =>
       let b := min (min e ce) q
       decide ((FV.scaled false cm ce b - FV.scaled false m e b).natAbs ≤ bound * 2 ^ (q - b).toNat)
     | _ => false)
  BitVec.ofNat 32 (FK.signed .fp32 neg (if ok then c.toNat else c0))

/-- ln 2, times 2^448. -/
def ln2P : Nat := 0xb17217f7d1cf79abc9e3b39803f2f6af40f343267298b62d8a0d175b8baafa2be7b876206debac98559552fb4afa1b10ed2eae35c1382144

/-- The sum of n terms of the exponential series from term i on, times 2^448. -/
def expSeries (r : Nat) : Nat → Nat → Nat → Nat
  | 0, _, _ => 0
  | n + 1, i, t => t + expSeries r n (i + 1) (t * r / 2 ^ 448 / (i + 1))

/-- e^(x · 2^−448) for an integer x, as m · 2^e. -/
def expFix (x : Int) : Nat × Int :=
  let k := x / (ln2P : Int)
  let r := (x - k * ln2P).toNat
  (expSeries r 120 0 (2 ^ 448), k - 448)

/-- A finite value times 2^448, exact for every FP32 value. -/
def FV.fix448 (neg : Bool) (m : Nat) (e : Int) : Int := FV.scaled neg m e (-448)

/-- The integer square root by bits. -/
def isqrtAux (n : Nat) : Nat → Nat → Nat
  | 0, r => r
  | i + 1, r => let t := r + 2 ^ i; isqrtAux n i (if t * t ≤ n then t else r)

/-- RECIP: within 1 ulp (Table 07-4). -/
def frecip (w : W32) : W32 :=
  match dec32 w with
  | .nan => fnan
  | .inf n => enc32 (.fin n 0 0)
  | .fin n m e => if m = 0 then enc32 (.inf n)
    else withinUlp 1 (Config.fpSlack 0 w) n (2 ^ 480 / m) (-480 - e)

/-- RSQRT: within 1 ulp, with the special values of Table 07-4. -/
def frsqrt (w : W32) : W32 :=
  match dec32 w with
  | .nan => fnan
  | .inf n => if n then fnan else 0#32
  | .fin n m e =>
    if m = 0 then enc32 (.inf n)
    else if n then fnan
    else
      let odd := e % 2 = 1
      let m' := if odd then 2 * m else m
      let e' := if odd then e - 1 else e
      withinUlp 1 (Config.fpSlack 1 w) false (isqrtAux (2 ^ 900 / m') 460 0) (-450 - e' / 2)

/-- EXP: within 2 ulp; above 88.7228 the result is +∞ (Table 07-4). -/
def fexp (w : W32) : W32 :=
  match dec32 w with
  | .nan => fnan
  | .inf n => if n then 0#32 else enc32 (.inf false)
  | .fin n m e =>
    if !n && decide (FV.fix448 n m e * 10000 > 887228 * (2 ^ 448 : Nat)) then enc32 (.inf false)
    else
      let x := FV.fix448 n m e
      let p := if x < -(200 * 2 ^ 448 : Nat) then (1, (-290 : Int)) else expFix x
      withinUlp 2 (Config.fpSlack 2 w) false p.1 p.2

/-- tanh within 2 ulp, a step of GELU. -/
def ftanh (w : W32) : W32 :=
  match dec32 w with
  | .nan => fnan
  | .inf n => enc32 (.fin n 1 0)
  | .fin n m e =>
    if m = 0 then w else
    let x := FV.fix448 false m e
    let p : Nat × Int := if x > (100 * 2 ^ 448 : Nat) then (2 ^ 300 - 1, -300)
      else
        let ex := expFix (2 * x)
        let big : Nat := if ex.2 + 448 ≥ 0 then ex.1 * 2 ^ (ex.2 + 448).toNat else ex.1 / 2 ^ (-(ex.2 + 448)).toNat
        ((big - 2 ^ 448) * 2 ^ 448 / (big + 2 ^ 448), -448)
    withinUlp 2 (Config.fpSlack 3 w) n p.1 p.2

/-- RELU (R178): +0 for every input at or below 0. -/
def frelu (w : W32) : W32 :=
  match dec32 w with
  | .nan => fnan
  | v => if FV.lt (.fin false 0 0) v then w else 0#32

/-- ABS: the magnitude; a NaN gives the canonical NaN. -/
def fabs (w : W32) : W32 := if fisNan w then fnan else w &&& 0x7FFFFFFF#32

/-- SILU by the steps of Table 07-4. -/
def fsilu (x : W32) : W32 :=
  match dec32 x with
  | .inf n => if n then 0x80000000#32 else x
  | _ =>
    let t := fexp (enc32 (dec32 x).neg)
    let u := fadd fone t
    fmul x (frecip u)

/-- GELU in its tanh form: by the steps of Table 07-4 where that lies within 4 ulp of the expression evaluated exactly,
else the value nearest to it (R186; log 6). -/
def fgelu (x : W32) : W32 :=
  match dec32 x with
  | .nan => fnan
  | .inf n => if n then 0x80000000#32 else x
  | .fin n m e =>
    if m = 0 then x else
    let x3 := fmul (fmul x x) x
    let u := fmul 0x3F4C422A#32 (fadd x (fmul 0x3D372713#32 x3))
    let y := fmul (fmul 0x3F000000#32 x) (fadd fone (ftanh u))
    -- the expression evaluated exactly is x / (1 + exp(−2u)), u = 0.7978846 (x + 0.044715 x³)
    let c := FV.fix448 false m e
    -- beyond 1,000 that is x, or nothing that FP32 holds
    if c > (1000 * 2 ^ 448 : Nat) then
      let p : Nat × Int := if n then (1, -600) else (m, e)
      withinUlp 4 (((y &&& 0x7FFFFFFF#32).toNat : Int) - encF .fp32 (.fin false p.1 p.2)) n p.1 p.2
    else
    let cube := c * c * c / (2 ^ 896 : Nat)
    let uu : Int := 7978846 * (1000000 * c + 44715 * cube) / 10000000000000
    let ex := expFix (if n then 2 * uu else -(2 * uu))
    if ex.2 > 600 then 0x80000000#32 else
    let d : Nat := (if ex.2 + 448 ≥ 0 then ex.1 * 2 ^ (ex.2 + 448).toNat else ex.1 / 2 ^ (-(ex.2 + 448)).toNat) + 2 ^ 448
    let num := m * 2 ^ (448 + 480)
    let approxM := num / d
    let approxE := e - 480
    let c0 := encF .fp32 (.fin false approxM approxE)
    withinUlp 4 (((y &&& 0x7FFFFFFF#32).toNat : Int) - c0) n approxM approxE

/-! ## Element formats (Table 04-3) -/

/-- The element formats of Table 04-3. -/
inductive Fmt where
  | fp32 | bf16 | fp16 | e4m3 | e5m2 | mxE4m3 | mxE5m2 | mxE2m1 | int8 | int4 | int32 | score
  deriving DecidableEq, Repr

/-- The format of a code of Table 04-3; reserved codes become 0x0. -/
def fmtOf : Nat → Fmt
  | 1 => .bf16 | 2 => .fp16 | 3 => .e4m3 | 4 => .e5m2 | 5 => .mxE4m3 | 6 => .mxE5m2 | 7 => .mxE2m1
  | 8 => .int8 | 9 => .int4 | 10 => .int32 | 11 => .score | _ => .fp32

/-- The code of a format. -/
def Fmt.code : Fmt → Nat
  | .fp32 => 0 | .bf16 => 1 | .fp16 => 2 | .e4m3 => 3 | .e5m2 => 4 | .mxE4m3 => 5 | .mxE5m2 => 6 | .mxE2m1 => 7
  | .int8 => 8 | .int4 => 9 | .int32 => 10 | .score => 11
/-- Bits of one element, block scales apart. -/
def Fmt.bits : Fmt → Nat
  | .fp32 | .int32 => 32 | .bf16 | .fp16 => 16 | .e4m3 | .e5m2 | .mxE4m3 | .mxE5m2 | .int8 => 8
  | .mxE2m1 | .int4 => 4 | .score => 64
/-- Element size in bytes, 1 for the 4-bit formats' stride rule (Table 04-2). -/
def Fmt.esize (f : Fmt) : Nat := max 1 (f.bits / 8)
/-- The two 4-bit formats, of which two elements share a byte (R88). -/
def Fmt.isNibble (f : Fmt) : Bool := f.bits == 4
/-- The formats with block scales. -/
def Fmt.isMx : Fmt → Bool
  | .mxE4m3 | .mxE5m2 | .mxE2m1 => true | _ => false
/-- The integer formats of R134. -/
def Fmt.isInt : Fmt → Bool
  | .int8 | .int4 | .int32 | .score => true | _ => false
/-- The float format of the elements. -/
def Fmt.fk : Fmt → FK
  | .bf16 => .bf16 | .fp16 => .fp16 | .e4m3 | .mxE4m3 => .e4m3 | .e5m2 | .mxE5m2 => .e5m2 | .mxE2m1 => .e2m1 | _ => .fp32
/-- Width in bits of the integer range (R174). -/
def Fmt.intBits : Fmt → Nat
  | .int8 => 8 | .int4 => 4 | .int32 => 32 | .score => 48 | _ => 32

/-- The value of an MX block scale (R173): none for the NaN scale 0xFF. -/
def mxScale (x : Nat) : Option Int := if x = 0xFF then none else some ((x : Int) - 127)

/-- The integer value of a code of an integer format (R174). -/
def intVal (f : Fmt) (code : Nat) : Int := signedOf f.intBits code
/-- The code of an integer, saturated to the format's range; Score codes are sign-extended (R174). -/
def intCode (f : Fmt) (i : Int) : Nat := wrapTo f.bits (satTo f.intBits i)

/-- The exact value of an element: its code and, for an MX format, its block's scale byte. -/
def elemVal (f : Fmt) (code scale : Nat) : FV :=
  if f.isInt then FV.ofInt (intVal f code)
  else if f.isMx then
    match mxScale scale, decF f.fk code with
    | some x, .fin n m e => .fin n m (e + x)
    | some _, v => v
    | none, _ => .nan
  else decF f.fk code

/-- The code of a value in a format that is not MX (R175, R176, Table 07-2). -/
def elemCode (f : Fmt) (v : FV) : Nat :=
  if f.isInt then (match v.toInt with | none => 0 | some i => intCode f i) else encF f.fk v

/-- emax of R190. -/
def Fmt.emax : Fmt → Int
  | .mxE4m3 => 8 | .mxE5m2 => 15 | _ => 2

/-- The block scale of a block's inputs (R190). -/
def mxBlockScale (f : Fmt) (vs : List FV) : Nat :=
  if vs.any (fun v => match v with | .fin _ _ _ => false | _ => true) then 0xFF
  else
    let logs := vs.filterMap (fun v => match v with
      | .fin _ m e => if m = 0 then none else some (e + (Nat.log2 m : Int))
      | _ => none)
    match logs with
    | [] => 0
    | l :: ls =>
      let x := ls.foldl max l - f.emax
      ((if x < -127 then -127 else if x > 127 then 127 else x) + 127).toNat

/-- A value divided by 2^X for the scale byte X + 127 (R190). -/
def mxShift (v : FV) (scale : Nat) : FV :=
  match v with
  | .fin n m e => .fin n m (e - ((scale : Int) - 127))
  | v => v

/-- The element code of a value under a block scale: 0 in a NaN block (R190). -/
def mxCode (f : Fmt) (v : FV) (scale : Nat) : Nat := if scale = 0xFF then 0 else encF f.fk (mxShift v scale)
/-- The same, rounded stochastically (R179). -/
def mxCodeSR (f : Fmt) (r : Nat) (v : FV) (scale : Nat) : Nat := if scale = 0xFF then 0 else encSR f.fk r (mxShift v scale)

/-- Formats whose elements SR rounds stochastically (R179). -/
def Fmt.srOk : Fmt → Bool
  | .e4m3 | .e5m2 | .bf16 | .mxE4m3 | .mxE5m2 => true | _ => false

/-- A float reduction of terms (R187): 128 partials in ascending order, then halving. -/
def fredSum (l : List W32) : W32 :=
  let p0 := List.replicate 128 0#32
  let p := ((List.range l.length).foldl (fun (a : List W32) i => a.set (i % 128) (fadd (a.getD (i % 128) 0#32) (l.getD i 0#32))) p0)
  let half := fun (a : List W32) (h : Nat) => (List.range h).map (fun j => fadd (a.getD j 0#32) (a.getD (j + h) 0#32))
  ([64, 32, 16, 8, 4, 2, 1].foldl half p).headD 0#32
/-- The legal scale for a stored one, and whether it was replaced (Table 07-5). -/
def legalScale (s : W32) : W32 × Bool :=
  match dec32 s with
  | .nan => (fone, true)
  | .inf n => (if n then 0x00800000#32 else 0x7F7FFFFF#32, true)
  | .fin n _ _ => if n || s.toNat < 0x00800000 then (0x00800000#32, true) else (s, false)

/-- c_b of R194: round_fp32(2^(−b/2)). -/
def whtScale (b : Nat) : W32 :=
  if b % 2 = 0 then enc32 (.fin false 1 (-((b / 2 : Nat) : Int)))
  else enc32 (.fin false 11863283 (-23 - (((b + 1) / 2 : Nat) : Int)))

end Sys2Proof.Machine
end

