-- ==== Sys2Proof/Machine/RegTable.lean ====
section
/-! DEFINITION. The register space: the blocks of Table 03-5 and every register and field of the spec's register tables,
with access code and reset value, written out from those tables (R10 to R13, R77). A register is named by its tier 4
offset; a device-wide register has its one home in instance 0. -/
namespace Sys2Proof.Machine

/-- Access codes of Table 00-3. -/
inductive Access where
  | rw | ro | w1c | w1s | rc | wo
  deriving DecidableEq, Repr

/-- The register blocks of Table 03-5. -/
inductive Blk where
  | addr | cap | ts | flt | part | tier | d2d | dir | pwr | tempo | cham | press | wbc | sec | tahr | hbmc | lpc | hl | host | fch | oryx | kudu
  deriving DecidableEq, Repr

/-- One row of Table 03-5: base, stride (1 where there is one instance), instances built, size of one instance. -/
structure BlkRow where
  blk : Blk
  base : Nat
  stride : Nat
  count : Nat
  size : Nat
  deriving DecidableEq, Repr

/-- Table 03-5. -/
def blkRows : List BlkRow := [  ⟨.addr, 0x0, 0x1000, 1, 0x1000⟩,
  ⟨.cap, 0x4000, 0x4000, 1, 0x4000⟩,
  ⟨.ts, 0x8000, 0x1000, 3, 0x1000⟩,
  ⟨.flt, 0x10000, 0x4000, 3, 0x4000⟩,
  ⟨.part, 0x20000, 0x10000, 1, 0x10000⟩,
  ⟨.tier, 0x30000, 0x10000, 1, 0x10000⟩,
  ⟨.d2d, 0x40000, 0x1000, 6, 0x1000⟩,
  ⟨.dir, 0x50000, 0x4000, 2, 0x4000⟩,
  ⟨.pwr, 0x60000, 0x4000, 1, 0x4000⟩,
  ⟨.tempo, 0x80000, 0x1000, 32, 0x1000⟩,
  ⟨.cham, 0xA0000, 0x1000, 32, 0x1000⟩,
  ⟨.press, 0xC0000, 0x1000, 8, 0x1000⟩,
  ⟨.wbc, 0xD0000, 0x1000, 1, 0x1000⟩,
  ⟨.sec, 0xE0000, 0x10000, 1, 0x10000⟩,
  ⟨.tahr, 0xF0000, 0x10000, 1, 0x10000⟩,
  ⟨.hbmc, 0x100000, 0x4000, 8, 0x4000⟩,
  ⟨.lpc, 0x120000, 0x2000, 16, 0x2000⟩,
  ⟨.hl, 0x140000, 0x1000, 36, 0x1000⟩,
  ⟨.host, 0x180000, 0x4000, 4, 0x4000⟩,
  ⟨.fch, 0x200000, 0x1000, 128, 0x1000⟩,
  ⟨.oryx, 0x280000, 0x1000, 128, 0x1000⟩,
  ⟨.kudu, 0x400000, 0x10000, 64, 0x10000⟩]

/-- A field of a register: place, access code, reset value (one for all instances, or one each). -/
structure FieldSpec where
  f : Fld
  acc : Access
  reset : List Nat
  deriving DecidableEq, Repr

/-- Which half of a pair under R82 a register is. -/
inductive PairHalf where
  | none | low | high
  deriving DecidableEq, Repr

/-- A register: offset in its block, the counts and strides over which it repeats, whether it is device-wide, which
half of a pair it is, its fields. Bits in no field are reserved (R13). -/
structure RegSpec where
  off : Nat
  dims : List (Nat × Nat)
  wide : Bool
  pair : PairHalf
  fields : List FieldSpec
  deriving DecidableEq, Repr

/-- The registers of ADDR. -/
def addrRegs : List RegSpec := [
  ⟨0x0, [], false, .none, [⟨⟨0, 12⟩, .ro, [0x0]⟩, ⟨⟨16, 1⟩, .ro, [0x0]⟩]⟩, /- ADDR_NODE -/
  ⟨0x4, [], false, .none, [⟨⟨0, 16⟩, .ro, [0x0]⟩]⟩, /- ADDR_PRIV -/
  ⟨0x8, [], false, .none, [⟨⟨0, 30⟩, .ro, [0x0]⟩]⟩, /- ADDR_WIN -/
  ⟨0x100, [(19, 0x10)], false, .none, [⟨⟨0, 32⟩, .rc, [0x0]⟩]⟩, /- ADDR_CLAMP_CNT -/
  ⟨0x104, [(19, 0x10)], false, .low, [⟨⟨0, 32⟩, .ro, [0x0]⟩]⟩, /- ADDR_CLAMP_LO -/
  ⟨0x108, [(19, 0x10)], false, .high, [⟨⟨0, 32⟩, .ro, [0x0]⟩]⟩, /- ADDR_CLAMP_HI -/
  ⟨0x10C, [(19, 0x10)], false, .none, [⟨⟨0, 1⟩, .w1c, [0x0]⟩, ⟨⟨1, 3⟩, .ro, [0x0]⟩, ⟨⟨4, 3⟩, .ro, [0x0]⟩, ⟨⟨16, 12⟩, .ro, [0x0]⟩, ⟨⟨31, 1⟩, .w1c, [0x0]⟩]⟩ /- ADDR_CLAMP_INFO -/]

/-- The registers of CAP. -/
def capRegs : List RegSpec := [
  ⟨0x0, [], false, .none, [⟨⟨0, 8⟩, .ro, [0x0]⟩, ⟨⟨8, 8⟩, .ro, [0x1]⟩, ⟨⟨16, 8⟩, .ro, [0x4]⟩, ⟨⟨24, 8⟩, .ro, [0x1]⟩]⟩, /- CAP_VERSION -/
  ⟨0x4, [], false, .none, [⟨⟨0, 1⟩, .ro, [0x1]⟩, ⟨⟨1, 1⟩, .ro, [0x1]⟩, ⟨⟨2, 1⟩, .ro, [0x1]⟩, ⟨⟨3, 1⟩, .ro, [0x1]⟩, ⟨⟨4, 1⟩, .ro, [0x1]⟩, ⟨⟨5, 1⟩, .ro, [0x1]⟩, ⟨⟨6, 1⟩, .ro, [0x1]⟩, ⟨⟨7, 1⟩, .ro, [0x1]⟩, ⟨⟨8, 1⟩, .ro, [0x1]⟩, ⟨⟨9, 1⟩, .ro, [0x1]⟩, ⟨⟨10, 1⟩, .ro, [0x1]⟩]⟩, /- CAP_FEAT0 -/
  ⟨0x8, [], false, .none, []⟩, /- CAP_FEAT1 -/
  ⟨0x10, [], false, .none, [⟨⟨0, 8⟩, .ro, [0x40]⟩, ⟨⟨8, 8⟩, .ro, [0x40]⟩, ⟨⟨16, 4⟩, .ro, [0x4]⟩, ⟨⟨20, 4⟩, .ro, [0x4]⟩, ⟨⟨24, 4⟩, .ro, [0x6]⟩]⟩, /- CAP_KUDU -/
  ⟨0x14, [], false, .none, [⟨⟨0, 8⟩, .ro, [0x40]⟩, ⟨⟨8, 8⟩, .ro, [0x40]⟩, ⟨⟨16, 8⟩, .ro, [0x80]⟩]⟩, /- CAP_ARRAY -/
  ⟨0x18, [], false, .none, [⟨⟨0, 8⟩, .ro, [0x20]⟩, ⟨⟨8, 8⟩, .ro, [0x20]⟩]⟩, /- CAP_CHAM -/
  ⟨0x1C, [], false, .none, [⟨⟨0, 32⟩, .ro, [0x1000000]⟩]⟩, /- CAP_SCRATCH -/
  ⟨0x20, [], false, .none, [⟨⟨0, 13⟩, .ro, [0x1000]⟩]⟩, /- CAP_SCALE -/
  ⟨0x24, [], false, .none, [⟨⟨0, 13⟩, .ro, [0x1000]⟩, ⟨⟨16, 5⟩, .ro, [0x10]⟩]⟩, /- CAP_CTX -/
  ⟨0x28, [], false, .none, [⟨⟨0, 8⟩, .ro, [0x24]⟩, ⟨⟨8, 8⟩, .ro, [0x24]⟩]⟩, /- CAP_HERD -/
  ⟨0x2C, [], false, .none, [⟨⟨0, 5⟩, .ro, [0x10]⟩, ⟨⟨8, 5⟩, .ro, [0x4]⟩, ⟨⟨16, 5⟩, .ro, [0x4]⟩]⟩, /- CAP_D2D -/
  ⟨0x30, [], false, .none, [⟨⟨0, 16⟩, .ro, [0xFA0]⟩]⟩, /- CAP_D2D_BW0 -/
  ⟨0x34, [], false, .none, [⟨⟨0, 16⟩, .ro, [0x3E8]⟩]⟩, /- CAP_D2D_BW1 -/
  ⟨0x38, [], false, .none, [⟨⟨0, 16⟩, .ro, [0x3E8]⟩]⟩, /- CAP_D2D_BW2 -/
  ⟨0x3C, [], false, .none, [⟨⟨0, 8⟩, .ro, [0x80]⟩, ⟨⟨8, 8⟩, .ro, [0x40]⟩, ⟨⟨16, 8⟩, .ro, [0x40]⟩, ⟨⟨24, 5⟩, .ro, [0x14]⟩]⟩, /- CAP_SEARCH -/
  ⟨0x40, [], false, .none, [⟨⟨0, 12⟩, .ro, [0x47E]⟩]⟩, /- CAP_STEP -/
  ⟨0x80, [(6, 0x10)], false, .low, [⟨⟨0, 32⟩, .ro, [0x40000000, 0x0, 0x0, 0xCE540000, 0x1000000, 0x0]⟩]⟩, /- CAP_TIER_SIZE_LO -/
  ⟨0x84, [(6, 0x10)], false, .high, [⟨⟨0, 32⟩, .ro, [0x0, 0xC0, 0x100, 0x12309, 0x0, 0x0]⟩]⟩, /- CAP_TIER_SIZE_HI -/
  ⟨0x88, [(6, 0x10)], false, .low, [⟨⟨0, 32⟩, .ro, [0x40000000, 0x0, 0x0, 0xCE540000, 0x1000000, 0x0]⟩]⟩, /- CAP_TIER_AVAIL_LO -/
  ⟨0x8C, [(6, 0x10)], false, .high, [⟨⟨0, 32⟩, .ro, [0x0, 0xC0, 0x100, 0x12309, 0x0, 0x0]⟩]⟩ /- CAP_TIER_AVAIL_HI -/]

/-- The registers of TS. -/
def tsRegs : List RegSpec := [
  ⟨0x0, [], false, .low, [⟨⟨0, 32⟩, .ro, [0x0]⟩]⟩, /- TS_NOW_LO -/
  ⟨0x4, [], false, .high, [⟨⟨0, 32⟩, .ro, [0x0]⟩]⟩, /- TS_NOW_HI -/
  ⟨0x8, [], false, .none, [⟨⟨0, 1⟩, .ro, [0x0]⟩]⟩, /- TS_STATUS -/
  ⟨0xC, [], false, .none, [⟨⟨0, 8⟩, .ro, [0x0]⟩]⟩ /- TS_SKEW -/]

/-- The registers of FLT. -/
def fltRegs : List RegSpec := [
  ⟨0x0, [], false, .none, [⟨⟨0, 1⟩, .rw, [0x1]⟩]⟩, /- FLT_CTRL -/
  ⟨0x4, [], false, .none, [⟨⟨0, 1⟩, .ro, [0x0]⟩, ⟨⟨1, 1⟩, .ro, [0x0]⟩, ⟨⟨2, 1⟩, .ro, [0x0]⟩, ⟨⟨3, 1⟩, .ro, [0x0]⟩]⟩, /- FLT_STATUS -/
  ⟨0x8, [], false, .none, [⟨⟨0, 1⟩, .w1c, [0x0]⟩, ⟨⟨1, 1⟩, .w1c, [0x0]⟩, ⟨⟨2, 1⟩, .w1c, [0x0]⟩, ⟨⟨3, 1⟩, .w1c, [0x0]⟩, ⟨⟨8, 1⟩, .w1c, [0x0]⟩, ⟨⟨9, 1⟩, .w1c, [0x0]⟩, ⟨⟨10, 1⟩, .w1c, [0x0]⟩, ⟨⟨11, 1⟩, .w1c, [0x0]⟩, ⟨⟨12, 1⟩, .w1c, [0x0]⟩]⟩, /- FLT_EVT -/
  ⟨0xC, [], false, .none, [⟨⟨0, 32⟩, .ro, [0x0]⟩]⟩, /- FLT_CNT_CORR -/
  ⟨0x10, [], false, .none, [⟨⟨0, 32⟩, .ro, [0x0]⟩]⟩, /- FLT_CNT_CONT -/
  ⟨0x14, [], false, .none, [⟨⟨0, 32⟩, .ro, [0x0]⟩]⟩, /- FLT_CNT_FATAL -/
  ⟨0x18, [], false, .none, [⟨⟨0, 32⟩, .ro, [0x0]⟩]⟩, /- FLT_ESC_CNT -/
  ⟨0x1C, [], false, .none, [⟨⟨0, 32⟩, .ro, [0x0]⟩]⟩, /- FLT_RING_OVF_CNT -/
  ⟨0x20, [], false, .none, [⟨⟨0, 8⟩, .ro, [0x0]⟩]⟩, /- FLT_RING_HEAD -/
  ⟨0x24, [], false, .none, [⟨⟨0, 8⟩, .rw, [0x0]⟩]⟩, /- FLT_RING_TAIL -/
  ⟨0x28, [], false, .none, [⟨⟨0, 8⟩, .ro, [0x0]⟩]⟩, /- FLT_RING_TAHR -/
  ⟨0x30, [], false, .none, [⟨⟨0, 16⟩, .rw, [0x0]⟩, ⟨⟨16, 2⟩, .rw, [0x0]⟩, ⟨⟨18, 1⟩, .w1s, [0x0]⟩]⟩, /- FLT_INJ -/
  ⟨0x100, [(3, 0x20)], false, .none, [⟨⟨0, 1⟩, .w1c, [0x0]⟩, ⟨⟨1, 1⟩, .ro, [0x0]⟩, ⟨⟨2, 2⟩, .ro, [0x0]⟩, ⟨⟨4, 4⟩, .ro, [0x0]⟩, ⟨⟨8, 6⟩, .ro, [0x0]⟩, ⟨⟨16, 16⟩, .ro, [0x0]⟩]⟩, /- FLT_CAP_INFO -/
  ⟨0x104, [(3, 0x20)], false, .low, [⟨⟨0, 32⟩, .ro, [0x0]⟩]⟩, /- FLT_CAP_ADDR_LO -/
  ⟨0x108, [(3, 0x20)], false, .high, [⟨⟨0, 32⟩, .ro, [0x0]⟩]⟩, /- FLT_CAP_ADDR_HI -/
  ⟨0x10C, [(3, 0x20)], false, .low, [⟨⟨0, 32⟩, .ro, [0x0]⟩]⟩, /- FLT_CAP_TS_LO -/
  ⟨0x110, [(3, 0x20)], false, .high, [⟨⟨0, 32⟩, .ro, [0x0]⟩]⟩, /- FLT_CAP_TS_HI -/
  ⟨0x114, [(3, 0x20)], false, .none, [⟨⟨0, 16⟩, .ro, [0x0]⟩]⟩, /- FLT_CAP_SRC -/
  ⟨0x118, [(3, 0x20)], false, .none, [⟨⟨0, 32⟩, .ro, [0x0]⟩]⟩ /- FLT_CAP_DETAIL -/,
  ⟨0x2000, [(256, 0x20), (4, 0x8)], false, .low, [⟨⟨0, 32⟩, .ro, [0x0]⟩]⟩ /- low words of the ring -/,
  ⟨0x2004, [(256, 0x20), (4, 0x8)], false, .high, [⟨⟨0, 32⟩, .ro, [0x0]⟩]⟩ /- high words of the ring -/]

/-- The registers of PART. -/
def partRegs : List RegSpec := [
  ⟨0x0, [(64, 0x4)], false, .none, [⟨⟨0, 5⟩, .rw, [0x1F]⟩, ⟨⟨8, 5⟩, .ro, [0x1F]⟩, ⟨⟨16, 1⟩, .ro, [0x0]⟩]⟩, /- PART_KUDU_OWN -/
  ⟨0x100, [(32, 0x4)], false, .none, [⟨⟨0, 5⟩, .rw, [0x1F]⟩, ⟨⟨8, 5⟩, .ro, [0x1F]⟩, ⟨⟨16, 1⟩, .ro, [0x0]⟩]⟩, /- PART_CHAM_OWN -/
  ⟨0x200, [(16, 0x40)], false, .none, [⟨⟨0, 1⟩, .rw, [0x0]⟩, ⟨⟨1, 1⟩, .rw, [0x0]⟩, ⟨⟨2, 1⟩, .rw, [0x1]⟩, ⟨⟨16, 10⟩, .rw, [0xA]⟩]⟩, /- PART_CFG -/
  ⟨0x204, [(16, 0x40)], false, .none, [⟨⟨0, 14⟩, .rw, [0x0]⟩]⟩, /- PART_ORYX -/
  ⟨0x208, [(16, 0x40)], false, .none, [⟨⟨0, 8⟩, .rw, [0x0]⟩]⟩, /- PART_HERD -/
  ⟨0x20C, [(16, 0x40)], false, .none, [⟨⟨0, 7⟩, .ro, [0x0]⟩, ⟨⟨8, 6⟩, .ro, [0x0]⟩, ⟨⟨16, 13⟩, .ro, [0x0]⟩]⟩, /- PART_INFO -/
  ⟨0x210, [(16, 0x40)], false, .none, [⟨⟨0, 7⟩, .ro, [0x0]⟩]⟩, /- PART_LQ -/
  ⟨0x800, [], false, .low, [⟨⟨0, 32⟩, .wo, [0x0]⟩]⟩, /- PART_LAUNCH_LO -/
  ⟨0x804, [], false, .high, [⟨⟨0, 32⟩, .wo, [0x0]⟩]⟩, /- PART_LAUNCH_HI -/
  ⟨0x810, [], false, .none, [⟨⟨0, 8⟩, .rw, [0x10]⟩, ⟨⟨8, 8⟩, .rw, [0x40]⟩, ⟨⟨16, 8⟩, .rw, [0x40]⟩, ⟨⟨24, 8⟩, .rw, [0x1]⟩]⟩, /- PART_COST -/
  ⟨0x814, [], false, .none, [⟨⟨0, 32⟩, .ro, [0x0]⟩]⟩, /- PART_CLAMP_CNT -/
  ⟨0x818, [], false, .none, [⟨⟨0, 1⟩, .w1c, [0x0]⟩, ⟨⟨1, 1⟩, .w1c, [0x0]⟩, ⟨⟨2, 1⟩, .w1c, [0x0]⟩, ⟨⟨3, 1⟩, .w1c, [0x0]⟩, ⟨⟨4, 1⟩, .w1c, [0x0]⟩]⟩, /- PART_EVT -/
  ⟨0x81C, [], false, .none, [⟨⟨0, 32⟩, .ro, [0x0]⟩]⟩, /- PART_PREEMPT_CNT -/
  ⟨0x820, [], false, .none, [⟨⟨0, 32⟩, .ro, [0x0]⟩]⟩, /- PART_SWAP_CNT -/
  ⟨0x824, [], false, .none, [⟨⟨0, 32⟩, .ro, [0x0]⟩]⟩, /- PART_STEAL_CNT -/
  ⟨0x828, [], false, .none, [⟨⟨0, 32⟩, .ro, [0x0]⟩]⟩, /- PART_RESTART_CNT -/
  ⟨0x1000, [], false, .none, [⟨⟨0, 12⟩, .rw, [0x0]⟩]⟩, /- PART_CTX_SEL -/
  ⟨0x1004, [], false, .none, [⟨⟨0, 1⟩, .w1s, [0x0]⟩, ⟨⟨1, 1⟩, .w1s, [0x0]⟩, ⟨⟨2, 1⟩, .w1s, [0x0]⟩]⟩, /- PART_CTX_CTRL -/
  ⟨0x1008, [], false, .none, [⟨⟨0, 16⟩, .rw, [0x1]⟩]⟩, /- PART_CTX_SHARE -/
  ⟨0x100C, [], false, .none, [⟨⟨0, 3⟩, .ro, [0x0]⟩, ⟨⟨4, 4⟩, .ro, [0x0]⟩, ⟨⟨8, 6⟩, .ro, [0x0]⟩, ⟨⟨14, 9⟩, .ro, [0x0]⟩]⟩, /- PART_CTX_STATE -/
  ⟨0x1010, [], false, .none, [⟨⟨0, 32⟩, .ro, [0x0]⟩]⟩, /- PART_CTX_WIN -/
  ⟨0x1014, [], false, .none, [⟨⟨0, 1⟩, .w1c, [0x0]⟩, ⟨⟨1, 1⟩, .w1c, [0x0]⟩, ⟨⟨2, 1⟩, .w1c, [0x0]⟩, ⟨⟨3, 1⟩, .w1c, [0x0]⟩, ⟨⟨4, 1⟩, .w1c, [0x0]⟩]⟩, /- PART_CTX_WRAP -/
  ⟨0x1020, [(5, 0x8)], false, .low, [⟨⟨0, 32⟩, .ro, [0x0]⟩]⟩, /- PART_CTX_ACC_LO -/
  ⟨0x1024, [(5, 0x8)], false, .high, [⟨⟨0, 32⟩, .ro, [0x0]⟩]⟩ /- PART_CTX_ACC_HI -/]

/-- The registers of TIER. -/
def tierRegs : List RegSpec := [
  ⟨0x0, [(4, 0x20)], false, .none, [⟨⟨0, 1⟩, .rw, [0x0]⟩, ⟨⟨8, 10⟩, .rw, [0x0]⟩, ⟨⟨20, 10⟩, .rw, [0x0]⟩]⟩, /- TIER_CTRL -/
  ⟨0x4, [(4, 0x20)], false, .low, [⟨⟨0, 32⟩, .ro, [0x0]⟩]⟩, /- TIER_FREE_LO -/
  ⟨0x8, [(4, 0x20)], false, .high, [⟨⟨0, 32⟩, .ro, [0x0]⟩]⟩, /- TIER_FREE_HI -/
  ⟨0xC, [(4, 0x20)], false, .low, [⟨⟨0, 32⟩, .ro, [0x0]⟩]⟩, /- TIER_HELD_LO -/
  ⟨0x10, [(4, 0x20)], false, .high, [⟨⟨0, 32⟩, .ro, [0x0]⟩]⟩, /- TIER_HELD_HI -/
  ⟨0x100, [], false, .none, [⟨⟨0, 10⟩, .rw, [0xA]⟩]⟩, /- TIER_WAIT -/
  ⟨0x104, [], false, .none, [⟨⟨0, 19⟩, .ro, [0x0]⟩]⟩, /- TIER_OBJ_CNT -/
  ⟨0x108, [], false, .none, [⟨⟨0, 1⟩, .w1c, [0x0]⟩, ⟨⟨1, 1⟩, .w1c, [0x0]⟩, ⟨⟨2, 1⟩, .w1c, [0x0]⟩, ⟨⟨3, 1⟩, .w1c, [0x0]⟩, ⟨⟨4, 1⟩, .w1c, [0x0]⟩, ⟨⟨5, 1⟩, .w1c, [0x0]⟩, ⟨⟨6, 1⟩, .w1c, [0x0]⟩]⟩, /- TIER_EVT -/
  ⟨0x10C, [], false, .none, [⟨⟨0, 32⟩, .ro, [0x0]⟩]⟩, /- TIER_DEMOTE_CNT -/
  ⟨0x110, [], false, .none, [⟨⟨0, 32⟩, .ro, [0x0]⟩]⟩, /- TIER_MOVE_CNT -/
  ⟨0x114, [], false, .none, [⟨⟨0, 32⟩, .ro, [0x0]⟩]⟩, /- TIER_CLAMP_CNT -/
  ⟨0x118, [], false, .none, [⟨⟨0, 32⟩, .ro, [0x0]⟩]⟩, /- TIER_RIND_ERR_CNT -/
  ⟨0x11C, [], false, .none, [⟨⟨0, 32⟩, .ro, [0x0]⟩]⟩, /- TIER_FULL_CNT -/
  ⟨0x120, [], false, .none, [⟨⟨0, 32⟩, .ro, [0x0]⟩]⟩, /- TIER_LATE_CNT -/
  ⟨0x200, [], false, .low, [⟨⟨0, 32⟩, .wo, [0x0]⟩]⟩, /- TIER_OCMD_LO -/
  ⟨0x204, [], false, .high, [⟨⟨0, 32⟩, .wo, [0x0]⟩]⟩, /- TIER_OCMD_HI -/
  ⟨0x1000, [(16, 0x40), (4, 0x10)], false, .none, [⟨⟨0, 32⟩, .rw, [0x0]⟩]⟩, /- TIER_QUOTA -/
  ⟨0x1004, [(16, 0x40), (4, 0x10)], false, .none, [⟨⟨0, 32⟩, .ro, [0x0]⟩]⟩, /- TIER_USED -/
  ⟨0x1008, [(16, 0x40), (4, 0x10)], false, .none, [⟨⟨0, 32⟩, .ro, [0x0]⟩]⟩ /- TIER_PHELD -/]

/-- The registers of D2D. -/
def d2dRegs : List RegSpec := [
  ⟨0x0, [], false, .none, [⟨⟨0, 5⟩, .ro, [0x10, 0x10, 0x4, 0x4, 0x4, 0x4]⟩, ⟨⟨8, 5⟩, .ro, [0x10, 0x10, 0x4, 0x4, 0x4, 0x4]⟩, ⟨⟨16, 1⟩, .ro, [0x0]⟩]⟩, /- D2D_STATUS -/
  ⟨0x4, [], false, .none, [⟨⟨0, 1⟩, .w1c, [0x0]⟩, ⟨⟨1, 1⟩, .w1c, [0x0]⟩, ⟨⟨2, 1⟩, .w1c, [0x0]⟩, ⟨⟨8, 1⟩, .w1c, [0x0]⟩, ⟨⟨9, 1⟩, .w1c, [0x0]⟩]⟩, /- D2D_EVT -/
  ⟨0x8, [], false, .none, [⟨⟨0, 32⟩, .ro, [0x0]⟩]⟩, /- D2D_REPLAY_CNT -/
  ⟨0xC, [], false, .none, [⟨⟨0, 32⟩, .ro, [0x0]⟩]⟩, /- D2D_RETRAIN_CNT -/
  ⟨0x10, [], false, .none, [⟨⟨0, 16⟩, .ro, [0x0]⟩]⟩ /- D2D_FENCED -/]

/-- The registers of DIR. -/
def dirRegs : List RegSpec := [
  ⟨0x0, [], true, .none, [⟨⟨0, 1⟩, .rw, [0x0]⟩, ⟨⟨1, 1⟩, .w1s, [0x0]⟩]⟩, /- DIR_CFG -/
  ⟨0x4, [], true, .none, [⟨⟨0, 2⟩, .ro, [0x0]⟩, ⟨⟨2, 1⟩, .ro, [0x0]⟩, ⟨⟨16, 13⟩, .ro, [0x0]⟩]⟩, /- DIR_ENUM -/
  ⟨0x8, [], true, .low, [⟨⟨0, 32⟩, .rw, [0x0]⟩]⟩, /- DIR_EXPT_LO -/
  ⟨0xC, [], true, .high, [⟨⟨0, 32⟩, .rw, [0x0]⟩]⟩, /- DIR_EXPT_HI -/
  ⟨0x10, [], true, .low, [⟨⟨0, 32⟩, .rw, [0x0]⟩]⟩, /- DIR_GRP_LO -/
  ⟨0x14, [], true, .high, [⟨⟨0, 32⟩, .rw, [0x0]⟩]⟩, /- DIR_GRP_HI -/
  ⟨0x18, [], true, .none, [⟨⟨0, 8⟩, .wo, [0x0]⟩]⟩, /- DIR_GRP_RESET -/
  ⟨0x1C, [], true, .none, [⟨⟨0, 16⟩, .rw, [0x40]⟩]⟩, /- DIR_TOKIN -/
  ⟨0x20, [], true, .none, [⟨⟨0, 12⟩, .rw, [0x0]⟩]⟩, /- DIR_ROUTE_SEL -/
  ⟨0x24, [], true, .none, [⟨⟨0, 6⟩, .ro, [0x0]⟩, ⟨⟨6, 6⟩, .ro, [0x0]⟩, ⟨⟨12, 6⟩, .ro, [0x0]⟩, ⟨⟨18, 6⟩, .ro, [0x0]⟩, ⟨⟨24, 3⟩, .ro, [0x0]⟩, ⟨⟨27, 4⟩, .ro, [0x0]⟩]⟩, /- DIR_ROUTE -/
  ⟨0x100, [], false, .none, [⟨⟨0, 21⟩, .ro, [0x0]⟩]⟩, /- DIR_ENTRIES -/
  ⟨0x104, [], false, .none, [⟨⟨0, 1⟩, .w1c, [0x0]⟩, ⟨⟨8, 1⟩, .w1c, [0x0]⟩, ⟨⟨9, 1⟩, .w1c, [0x0]⟩, ⟨⟨10, 1⟩, .w1c, [0x0]⟩, ⟨⟨11, 1⟩, .w1c, [0x0]⟩, ⟨⟨12, 1⟩, .w1c, [0x0]⟩, ⟨⟨13, 1⟩, .w1c, [0x0]⟩, ⟨⟨14, 1⟩, .w1c, [0x0]⟩, ⟨⟨15, 1⟩, .w1c, [0x0]⟩]⟩, /- DIR_EVT -/
  ⟨0x108, [], false, .none, [⟨⟨0, 32⟩, .ro, [0x0]⟩]⟩, /- DIR_INV_CNT -/
  ⟨0x10C, [], false, .none, [⟨⟨0, 32⟩, .ro, [0x0]⟩]⟩, /- DIR_COARSE_CNT -/
  ⟨0x110, [], false, .none, [⟨⟨0, 32⟩, .ro, [0x0]⟩]⟩, /- DIR_EVICT_CNT -/
  ⟨0x114, [], false, .none, [⟨⟨0, 32⟩, .ro, [0x0]⟩]⟩, /- DIR_CUT_CNT -/
  ⟨0x118, [], false, .none, [⟨⟨0, 32⟩, .ro, [0x0]⟩]⟩, /- DIR_LATE_CNT -/
  ⟨0x11C, [], false, .none, [⟨⟨0, 32⟩, .ro, [0x0]⟩]⟩, /- DIR_TOKNC_CNT -/
  ⟨0x120, [], false, .none, [⟨⟨0, 32⟩, .ro, [0x0]⟩]⟩, /- DIR_TOKLOST_CNT -/
  ⟨0x124, [], false, .none, [⟨⟨0, 32⟩, .ro, [0x0]⟩]⟩, /- DIR_CLAMP_CNT -/
  ⟨0x128, [], false, .none, [⟨⟨0, 1⟩, .w1c, [0x0]⟩, ⟨⟨16, 12⟩, .ro, [0x0]⟩]⟩ /- DIR_CUT_INFO -/]

/-- The registers of PWR. -/
def pwrRegs : List RegSpec := [
  ⟨0x0, [], false, .none, [⟨⟨0, 9⟩, .rw, [0x1C2]⟩]⟩, /- PWR_CAP -/
  ⟨0x4, [], false, .none, [⟨⟨0, 9⟩, .ro, [0x1C2]⟩, ⟨⟨9, 2⟩, .ro, [0x0]⟩, ⟨⟨11, 1⟩, .ro, [0x0]⟩, ⟨⟨12, 1⟩, .ro, [0x0]⟩, ⟨⟨13, 1⟩, .ro, [0x0]⟩, ⟨⟨16, 12⟩, .ro, [0x0]⟩]⟩, /- PWR_STATUS -/
  ⟨0x8, [], false, .none, [⟨⟨0, 1⟩, .w1s, [0x0]⟩]⟩, /- PWR_CTRL -/
  ⟨0xC, [], false, .none, [⟨⟨0, 1⟩, .ro, [0x1]⟩, ⟨⟨1, 1⟩, .ro, [0x0]⟩, ⟨⟨2, 1⟩, .ro, [0x0]⟩, ⟨⟨3, 1⟩, .ro, [0x0]⟩, ⟨⟨4, 1⟩, .ro, [0x0]⟩, ⟨⟨5, 1⟩, .ro, [0x0]⟩, ⟨⟨6, 1⟩, .ro, [0x0]⟩, ⟨⟨7, 1⟩, .ro, [0x0]⟩]⟩, /- PWR_CAUSE -/
  ⟨0x10, [], false, .none, [⟨⟨0, 1⟩, .w1c, [0x0]⟩, ⟨⟨1, 1⟩, .w1c, [0x0]⟩, ⟨⟨2, 1⟩, .w1c, [0x0]⟩, ⟨⟨3, 1⟩, .w1c, [0x0]⟩, ⟨⟨8, 1⟩, .w1c, [0x0]⟩, ⟨⟨9, 1⟩, .w1c, [0x0]⟩, ⟨⟨10, 1⟩, .w1c, [0x0]⟩]⟩, /- PWR_EVT -/
  ⟨0x14, [], false, .none, [⟨⟨0, 32⟩, .ro, [0x0]⟩]⟩, /- PWR_THROTTLE_CNT -/
  ⟨0x18, [], false, .none, [⟨⟨0, 32⟩, .ro, [0x0]⟩]⟩, /- PWR_LOSS_CNT -/
  ⟨0x1C, [], false, .none, [⟨⟨0, 32⟩, .ro, [0x0]⟩]⟩, /- PWR_CLAMP_CNT -/
  ⟨0x44, [(8, 0x4)], false, .none, [⟨⟨0, 32⟩, .ro, [0x0]⟩]⟩ /- PWR_STEP -/]

/-- The registers of TEMPO. -/
def tempoRegs : List RegSpec := [
  ⟨0x0, [], false, .none, [⟨⟨0, 1⟩, .rw, [0x1]⟩, ⟨⟨1, 1⟩, .wo, [0x0]⟩, ⟨⟨4, 4⟩, .rw, [0x4]⟩]⟩, /- TEMPO_CTRL -/
  ⟨0x4, [], false, .none, [⟨⟨0, 12⟩, .ro, [0x0]⟩, ⟨⟨16, 1⟩, .ro, [0x0]⟩]⟩, /- TEMPO_RATE -/
  ⟨0x8, [], false, .none, [⟨⟨0, 12⟩, .rc, [0x0]⟩]⟩, /- TEMPO_MIN -/
  ⟨0xC, [], false, .none, [⟨⟨0, 12⟩, .rw, [0x0]⟩]⟩, /- TEMPO_LOW -/
  ⟨0x10, [], false, .none, [⟨⟨0, 1⟩, .w1c, [0x0]⟩, ⟨⟨1, 1⟩, .w1c, [0x0]⟩]⟩, /- TEMPO_STATUS -/
  ⟨0x14, [], false, .none, [⟨⟨0, 32⟩, .ro, [0x0]⟩]⟩ /- TEMPO_BELOW -/]

/-- The registers of CHAM. -/
def chamRegs : List RegSpec := [
  ⟨0x0, [], false, .none, [⟨⟨0, 1⟩, .ro, [0x0]⟩, ⟨⟨1, 1⟩, .ro, [0x0]⟩, ⟨⟨2, 1⟩, .ro, [0x0]⟩, ⟨⟨8, 5⟩, .ro, [0x1F]⟩]⟩, /- CHAM_STATUS -/
  ⟨0x4, [], false, .none, [⟨⟨0, 1⟩, .rw, [0x1]⟩, ⟨⟨1, 1⟩, .w1s, [0x0]⟩]⟩, /- CHAM_CTRL -/
  ⟨0x8, [], false, .none, [⟨⟨0, 1⟩, .w1c, [0x0]⟩, ⟨⟨1, 1⟩, .w1c, [0x0]⟩]⟩, /- CHAM_IRQ -/
  ⟨0xC, [], false, .none, [⟨⟨0, 2⟩, .rw, [0x0]⟩]⟩ /- CHAM_IRQ_EN -/]

/-- The registers of PRESS. -/
def pressRegs : List RegSpec := [
  ⟨0x0, [], false, .none, [⟨⟨0, 1⟩, .ro, [0x0]⟩, ⟨⟨1, 1⟩, .ro, [0x0]⟩]⟩, /- PRESS_STATUS -/
  ⟨0x800, [], true, .none, [⟨⟨0, 1⟩, .ro, [0x0]⟩, ⟨⟨1, 1⟩, .ro, [0x0]⟩, ⟨⟨2, 1⟩, .ro, [0x0]⟩, ⟨⟨3, 1⟩, .ro, [0x0]⟩, ⟨⟨4, 1⟩, .ro, [0x0]⟩, ⟨⟨5, 1⟩, .ro, [0x0]⟩]⟩, /- FTL_STATE -/
  ⟨0x804, [], true, .none, [⟨⟨0, 17⟩, .ro, [0x0]⟩]⟩, /- FTL_SB_FREE -/
  ⟨0x808, [], true, .none, [⟨⟨0, 17⟩, .ro, [0x0]⟩]⟩, /- FTL_SB_GOOD -/
  ⟨0x80C, [], true, .none, [⟨⟨0, 17⟩, .ro, [0x0]⟩]⟩, /- FTL_SB_NEED -/
  ⟨0x810, [], true, .none, [⟨⟨0, 12⟩, .rw, [0x40]⟩, ⟨⟨16, 12⟩, .rw, [0x200]⟩]⟩, /- FTL_GC_LIM0 -/
  ⟨0x814, [], true, .none, [⟨⟨0, 12⟩, .rw, [0x400]⟩, ⟨⟨16, 12⟩, .rw, [0x64]⟩]⟩, /- FTL_GC_LIM1 -/
  ⟨0x818, [], true, .none, [⟨⟨0, 4⟩, .rw, [0x3]⟩, ⟨⟨4, 12⟩, .rw, [0x3C]⟩]⟩, /- FTL_HEAT -/
  ⟨0x81C, [], true, .none, [⟨⟨0, 16⟩, .ro, [0x0]⟩, ⟨⟨16, 1⟩, .ro, [0x0]⟩]⟩, /- FTL_HOLDUP -/
  ⟨0x820, [], true, .low, [⟨⟨0, 32⟩, .ro, [0x0]⟩]⟩, /- FTL_USERW_LO -/
  ⟨0x824, [], true, .high, [⟨⟨0, 32⟩, .ro, [0x0]⟩]⟩, /- FTL_USERW_HI -/
  ⟨0x828, [], true, .low, [⟨⟨0, 32⟩, .ro, [0x0]⟩]⟩, /- FTL_MEDIAW_LO -/
  ⟨0x82C, [], true, .high, [⟨⟨0, 32⟩, .ro, [0x0]⟩]⟩, /- FTL_MEDIAW_HI -/
  ⟨0x830, [], true, .none, [⟨⟨0, 16⟩, .ro, [0x0]⟩, ⟨⟨16, 16⟩, .ro, [0x0]⟩]⟩, /- FTL_ERASE -/
  ⟨0x834, [], true, .none, [⟨⟨0, 32⟩, .ro, [0x0]⟩]⟩, /- FTL_FINE_FREE -/
  ⟨0x838, [], true, .none, [⟨⟨0, 32⟩, .ro, [0x0]⟩]⟩, /- FTL_RECOV_MS -/
  ⟨0x83C, [], true, .none, [⟨⟨0, 1⟩, .w1c, [0x0]⟩, ⟨⟨1, 1⟩, .w1c, [0x0]⟩, ⟨⟨2, 1⟩, .w1c, [0x0]⟩, ⟨⟨3, 1⟩, .w1c, [0x0]⟩, ⟨⟨4, 1⟩, .w1c, [0x0]⟩, ⟨⟨5, 1⟩, .w1c, [0x0]⟩, ⟨⟨8, 1⟩, .w1c, [0x0]⟩, ⟨⟨9, 1⟩, .w1c, [0x0]⟩, ⟨⟨10, 1⟩, .w1c, [0x0]⟩, ⟨⟨11, 1⟩, .w1c, [0x0]⟩, ⟨⟨12, 1⟩, .w1c, [0x0]⟩]⟩, /- FTL_EVT -/
  ⟨0x840, [], true, .none, [⟨⟨0, 32⟩, .ro, [0x0]⟩]⟩, /- FTL_GC_CNT -/
  ⟨0x844, [], true, .none, [⟨⟨0, 32⟩, .ro, [0x0]⟩]⟩, /- FTL_POISON_CNT -/
  ⟨0x848, [], true, .none, [⟨⟨0, 32⟩, .ro, [0x0]⟩]⟩, /- FTL_PROMOTE_CNT -/
  ⟨0x84C, [], true, .none, [⟨⟨0, 32⟩, .ro, [0x0]⟩]⟩ /- FTL_FLUSH_CNT -/]

/-- The registers of WBC. -/
def wbcRegs : List RegSpec := [
  ⟨0x0, [], false, .none, [⟨⟨0, 1⟩, .ro, [0x0]⟩, ⟨⟨1, 1⟩, .ro, [0x0]⟩, ⟨⟨16, 14⟩, .ro, [0x0]⟩]⟩, /- WBC_STATUS -/
  ⟨0x4, [], false, .none, [⟨⟨0, 1⟩, .w1s, [0x0]⟩, ⟨⟨8, 8⟩, .rw, [0xC0]⟩]⟩, /- WBC_CTRL -/
  ⟨0x8, [], false, .none, [⟨⟨0, 32⟩, .ro, [0x0]⟩]⟩, /- WBC_HIT_CNT -/
  ⟨0xC, [], false, .none, [⟨⟨0, 1⟩, .w1c, [0x0]⟩, ⟨⟨1, 1⟩, .w1c, [0x0]⟩, ⟨⟨2, 1⟩, .w1c, [0x0]⟩]⟩, /- WBC_EVT -/
  ⟨0x10, [], false, .none, [⟨⟨0, 32⟩, .ro, [0x0]⟩]⟩, /- WBC_THR_CNT -/
  ⟨0x14, [], false, .none, [⟨⟨0, 16⟩, .ro, [0x0]⟩, ⟨⟨16, 1⟩, .ro, [0x0]⟩, ⟨⟨17, 1⟩, .ro, [0x0]⟩]⟩ /- WBC_LAST_FLUSH -/]

/-- The registers of SEC. -/
def secRegs : List RegSpec := [
  ⟨0x0, [], false, .none, [⟨⟨0, 3⟩, .ro, [0x0]⟩, ⟨⟨3, 1⟩, .ro, [0x0]⟩, ⟨⟨4, 1⟩, .ro, [0x0]⟩]⟩, /- SEC_LC -/
  ⟨0x4, [], false, .none, [⟨⟨0, 7⟩, .ro, [0x0]⟩, ⟨⟨8, 7⟩, .ro, [0x0]⟩, ⟨⟨16, 1⟩, .ro, [0x0]⟩]⟩, /- SEC_SVN -/
  ⟨0x8, [], false, .low, [⟨⟨0, 32⟩, .ro, [0x0]⟩]⟩, /- SEC_SERIAL_LO -/
  ⟨0xC, [], false, .high, [⟨⟨0, 32⟩, .ro, [0x0]⟩]⟩, /- SEC_SERIAL_HI -/
  ⟨0x10, [], false, .none, [⟨⟨0, 8⟩, .ro, [0x0]⟩, ⟨⟨8, 1⟩, .ro, [0x0]⟩]⟩, /- SEC_KEYS -/
  ⟨0x14, [], false, .none, [⟨⟨0, 1⟩, .w1c, [0x0]⟩, ⟨⟨1, 1⟩, .w1c, [0x0]⟩, ⟨⟨2, 1⟩, .w1c, [0x0]⟩]⟩, /- SEC_EVT -/
  ⟨0x18, [], false, .none, [⟨⟨0, 32⟩, .ro, [0x0]⟩]⟩ /- SEC_AUTH_CNT -/]

/-- The registers of TAHR. -/
def tahrRegs : List RegSpec := [
  ⟨0x0, [], false, .none, [⟨⟨0, 1⟩, .ro, [0x0]⟩, ⟨⟨1, 1⟩, .ro, [0x0]⟩, ⟨⟨2, 1⟩, .ro, [0x0]⟩, ⟨⟨16, 16⟩, .ro, [0x0]⟩]⟩, /- TAHR_STATUS -/
  ⟨0x4, [], false, .none, [⟨⟨0, 1⟩, .w1s, [0x0]⟩]⟩, /- TAHR_SET_CTRL -/
  ⟨0x8, [], false, .none, [⟨⟨0, 17⟩, .ro, [0x0]⟩]⟩, /- TAHR_LOG_CNT -/
  ⟨0xC, [], false, .none, [⟨⟨0, 1⟩, .ro, [0x0]⟩, ⟨⟨1, 1⟩, .ro, [0x0]⟩, ⟨⟨2, 1⟩, .w1c, [0x0]⟩]⟩, /- TAHR_EVT -/
  ⟨0x10, [], false, .none, [⟨⟨0, 12⟩, .rw, [0x2A8]⟩, ⟨⟨16, 12⟩, .rw, [0x348]⟩]⟩, /- TAHR_TEMP_LIM -/
  ⟨0x100, [(64, 0x4)], false, .none, [⟨⟨0, 12⟩, .ro, [0x0]⟩, ⟨⟨15, 1⟩, .ro, [0x0]⟩]⟩, /- TAHR_TEMP -/
  ⟨0x200, [(16, 0x4)], false, .none, [⟨⟨0, 16⟩, .ro, [0x0]⟩, ⟨⟨16, 16⟩, .ro, [0x0]⟩]⟩ /- TAHR_MON -/]

/-- The registers of HBMC. -/
def hbmcRegs : List RegSpec := [
  ⟨0x0, [], false, .none, [⟨⟨0, 1⟩, .ro, [0x0]⟩]⟩, /- HBMC_STATUS -/
  ⟨0x4, [], false, .none, [⟨⟨0, 1⟩, .w1c, [0x0]⟩, ⟨⟨1, 1⟩, .w1c, [0x0]⟩, ⟨⟨2, 1⟩, .w1c, [0x0]⟩, ⟨⟨3, 1⟩, .w1c, [0x0]⟩, ⟨⟨8, 1⟩, .w1c, [0x0]⟩, ⟨⟨9, 1⟩, .w1c, [0x0]⟩, ⟨⟨10, 1⟩, .w1c, [0x0]⟩, ⟨⟨11, 1⟩, .w1c, [0x0]⟩, ⟨⟨12, 1⟩, .w1c, [0x0]⟩]⟩, /- HBMC_EVT -/
  ⟨0x8, [], false, .none, [⟨⟨0, 32⟩, .ro, [0x0]⟩]⟩, /- HBMC_CORR_CNT -/
  ⟨0xC, [], false, .none, [⟨⟨0, 32⟩, .ro, [0x0]⟩]⟩, /- HBMC_UNC_CNT -/
  ⟨0x10, [], false, .none, [⟨⟨0, 32⟩, .ro, [0x0]⟩]⟩, /- HBMC_ONDIE_CNT -/
  ⟨0x14, [], false, .none, [⟨⟨0, 32⟩, .ro, [0x0]⟩]⟩, /- HBMC_HIT_CNT -/
  ⟨0x18, [], false, .none, [⟨⟨0, 8⟩, .rw, [0x18]⟩, ⟨⟨8, 1⟩, .ro, [0x0]⟩]⟩, /- HBMC_SCRUB -/
  ⟨0x1C, [], false, .none, [⟨⟨0, 32⟩, .ro, [0x0]⟩]⟩, /- HBMC_SCRUB_PASS -/
  ⟨0x20, [], false, .none, [⟨⟨0, 1⟩, .w1s, [0x0]⟩, ⟨⟨1, 1⟩, .rw, [0x0]⟩, ⟨⟨8, 3⟩, .ro, [0x0]⟩]⟩, /- HBMC_RET_CMD -/
  ⟨0x24, [], false, .low, [⟨⟨0, 32⟩, .rw, [0x0]⟩]⟩, /- HBMC_RET_OLD_LO -/
  ⟨0x28, [], false, .high, [⟨⟨0, 32⟩, .rw, [0x0]⟩]⟩, /- HBMC_RET_OLD_HI -/
  ⟨0x2C, [], false, .low, [⟨⟨0, 32⟩, .rw, [0x0]⟩]⟩, /- HBMC_RET_NEW_LO -/
  ⟨0x30, [], false, .high, [⟨⟨0, 32⟩, .rw, [0x0]⟩]⟩, /- HBMC_RET_NEW_HI -/
  ⟨0x34, [], false, .none, [⟨⟨0, 10⟩, .ro, [0x0]⟩, ⟨⟨16, 4⟩, .ro, [0x0]⟩]⟩ /- HBMC_RET_USED -/,
  ⟨0x1000, [(520, 0x8)], false, .low, [⟨⟨0, 32⟩, .ro, [0x0]⟩]⟩ /- low words of the retire table -/,
  ⟨0x1004, [(520, 0x8)], false, .high, [⟨⟨0, 32⟩, .ro, [0x0]⟩]⟩ /- high words of the retire table -/]

/-- The registers of LPC. -/
def lpcRegs : List RegSpec := [
  ⟨0x0, [], false, .none, [⟨⟨0, 1⟩, .ro, [0x0]⟩]⟩, /- LPC_STATUS -/
  ⟨0x4, [], false, .none, [⟨⟨0, 1⟩, .w1c, [0x0]⟩, ⟨⟨1, 1⟩, .w1c, [0x0]⟩, ⟨⟨2, 1⟩, .w1c, [0x0]⟩, ⟨⟨3, 1⟩, .w1c, [0x0]⟩, ⟨⟨8, 1⟩, .w1c, [0x0]⟩, ⟨⟨9, 1⟩, .w1c, [0x0]⟩, ⟨⟨10, 1⟩, .w1c, [0x0]⟩, ⟨⟨11, 1⟩, .w1c, [0x0]⟩, ⟨⟨12, 1⟩, .w1c, [0x0]⟩]⟩, /- LPC_EVT -/
  ⟨0x8, [], false, .none, [⟨⟨0, 32⟩, .ro, [0x0]⟩]⟩, /- LPC_CORR_CNT -/
  ⟨0xC, [], false, .none, [⟨⟨0, 32⟩, .ro, [0x0]⟩]⟩, /- LPC_UNC_CNT -/
  ⟨0x10, [], false, .none, [⟨⟨0, 32⟩, .ro, [0x0]⟩]⟩, /- LPC_LINK_CNT -/
  ⟨0x14, [], false, .none, [⟨⟨0, 32⟩, .ro, [0x0]⟩]⟩, /- LPC_HIT_CNT -/
  ⟨0x18, [], false, .none, [⟨⟨0, 8⟩, .rw, [0x18]⟩, ⟨⟨8, 1⟩, .ro, [0x0]⟩]⟩, /- LPC_SCRUB -/
  ⟨0x1C, [], false, .none, [⟨⟨0, 32⟩, .ro, [0x0]⟩]⟩, /- LPC_SCRUB_PASS -/
  ⟨0x20, [], false, .none, [⟨⟨0, 1⟩, .w1s, [0x0]⟩, ⟨⟨1, 1⟩, .rw, [0x0]⟩, ⟨⟨8, 3⟩, .ro, [0x0]⟩]⟩, /- LPC_RET_CMD -/
  ⟨0x24, [], false, .low, [⟨⟨0, 32⟩, .rw, [0x0]⟩]⟩, /- LPC_RET_OLD_LO -/
  ⟨0x28, [], false, .high, [⟨⟨0, 32⟩, .rw, [0x0]⟩]⟩, /- LPC_RET_OLD_HI -/
  ⟨0x2C, [], false, .low, [⟨⟨0, 32⟩, .rw, [0x0]⟩]⟩, /- LPC_RET_NEW_LO -/
  ⟨0x30, [], false, .high, [⟨⟨0, 32⟩, .rw, [0x0]⟩]⟩, /- LPC_RET_NEW_HI -/
  ⟨0x34, [], false, .none, [⟨⟨0, 10⟩, .ro, [0x0]⟩, ⟨⟨16, 4⟩, .ro, [0x0]⟩]⟩ /- LPC_RET_USED -/,
  ⟨0x1000, [(260, 0x8)], false, .low, [⟨⟨0, 32⟩, .ro, [0x0]⟩]⟩ /- low words of the retire table -/,
  ⟨0x1004, [(260, 0x8)], false, .high, [⟨⟨0, 32⟩, .ro, [0x0]⟩]⟩ /- high words of the retire table -/]

/-- The registers of HL. -/
def hlRegs : List RegSpec := [
  ⟨0x0, [], false, .none, [⟨⟨0, 1⟩, .rw, [0x0]⟩]⟩, /- HL_CTRL -/
  ⟨0x4, [], false, .none, [⟨⟨0, 3⟩, .ro, [0x0]⟩, ⟨⟨3, 1⟩, .ro, [0x0]⟩, ⟨⟨4, 6⟩, .ro, [0x0]⟩, ⟨⟨10, 1⟩, .ro, [0x0]⟩, ⟨⟨16, 12⟩, .ro, [0x0]⟩]⟩, /- HL_STATE -/
  ⟨0x8, [], false, .none, [⟨⟨0, 1⟩, .w1c, [0x0]⟩, ⟨⟨1, 1⟩, .w1c, [0x0]⟩, ⟨⟨2, 1⟩, .w1c, [0x0]⟩, ⟨⟨3, 1⟩, .w1c, [0x0]⟩, ⟨⟨4, 1⟩, .w1c, [0x0]⟩, ⟨⟨8, 1⟩, .w1c, [0x0]⟩, ⟨⟨9, 1⟩, .w1c, [0x0]⟩, ⟨⟨10, 1⟩, .w1c, [0x0]⟩, ⟨⟨11, 1⟩, .w1c, [0x0]⟩, ⟨⟨12, 1⟩, .w1c, [0x0]⟩, ⟨⟨13, 1⟩, .w1c, [0x0]⟩, ⟨⟨14, 1⟩, .w1c, [0x0]⟩]⟩, /- HL_EVT -/
  ⟨0xC, [], false, .none, [⟨⟨0, 32⟩, .ro, [0x0]⟩]⟩, /- HL_REPLAY_CNT -/
  ⟨0x10, [], false, .none, [⟨⟨0, 32⟩, .ro, [0x0]⟩]⟩, /- HL_FEC_CORR_CNT -/
  ⟨0x14, [], false, .none, [⟨⟨0, 32⟩, .ro, [0x0]⟩]⟩, /- HL_FEC_UNCORR_CNT -/
  ⟨0x18, [], false, .none, [⟨⟨0, 32⟩, .ro, [0x0]⟩]⟩, /- HL_RETRAIN_CNT -/
  ⟨0x1C, [], false, .none, [⟨⟨0, 32⟩, .ro, [0x0]⟩]⟩, /- HL_PROTO_CNT -/
  ⟨0x20, [], false, .none, [⟨⟨0, 32⟩, .ro, [0x0]⟩]⟩, /- HL_DROP_CNT -/
  ⟨0x24, [], false, .low, [⟨⟨0, 32⟩, .ro, [0x0]⟩]⟩, /- HL_TXFLIT_LO -/
  ⟨0x28, [], false, .high, [⟨⟨0, 32⟩, .ro, [0x0]⟩]⟩, /- HL_TXFLIT_HI -/
  ⟨0x2C, [], false, .low, [⟨⟨0, 32⟩, .ro, [0x0]⟩]⟩, /- HL_RXFLIT_LO -/
  ⟨0x30, [], false, .high, [⟨⟨0, 32⟩, .ro, [0x0]⟩]⟩ /- HL_RXFLIT_HI -/]

/-- The registers of HOST. -/
def hostRegs : List RegSpec := [
  ⟨0x0, [], true, .none, [⟨⟨0, 2⟩, .ro, [0x0]⟩, ⟨⟨4, 2⟩, .rw, [0x0]⟩]⟩, /- HOST_PORTCFG -/
  ⟨0x4, [], false, .none, [⟨⟨0, 16⟩, .rw, [0x0]⟩, ⟨⟨16, 1⟩, .rw, [0x0]⟩]⟩, /- HOST_RIGHTS -/
  ⟨0x8, [], false, .none, [⟨⟨0, 4⟩, .ro, [0x0]⟩, ⟨⟨4, 5⟩, .ro, [0x0]⟩, ⟨⟨9, 1⟩, .ro, [0x0]⟩, ⟨⟨10, 1⟩, .ro, [0x0]⟩, ⟨⟨12, 3⟩, .ro, [0x0]⟩]⟩, /- HOST_LINK -/
  ⟨0xC, [], false, .none, [⟨⟨0, 1⟩, .w1c, [0x0]⟩, ⟨⟨1, 1⟩, .w1c, [0x0]⟩, ⟨⟨2, 1⟩, .w1c, [0x0]⟩, ⟨⟨8, 1⟩, .w1c, [0x0]⟩, ⟨⟨9, 1⟩, .w1c, [0x0]⟩, ⟨⟨10, 1⟩, .w1c, [0x0]⟩, ⟨⟨11, 1⟩, .w1c, [0x0]⟩, ⟨⟨12, 1⟩, .w1c, [0x0]⟩]⟩, /- HOST_EVT -/
  ⟨0x10, [], false, .low, [⟨⟨0, 32⟩, .ro, [0x0]⟩]⟩, /- HOST_CMD_LO -/
  ⟨0x14, [], false, .high, [⟨⟨0, 32⟩, .ro, [0x0]⟩]⟩, /- HOST_CMD_HI -/
  ⟨0x18, [], false, .none, [⟨⟨0, 32⟩, .ro, [0x0]⟩]⟩, /- HOST_ORD_CNT -/
  ⟨0x1C, [], false, .none, [⟨⟨0, 32⟩, .ro, [0x0]⟩]⟩, /- HOST_ABORT_CNT -/
  ⟨0x20, [], false, .none, [⟨⟨0, 32⟩, .ro, [0x0]⟩]⟩, /- HOST_DENY_CNT -/
  ⟨0x24, [], false, .none, [⟨⟨0, 32⟩, .ro, [0x0]⟩]⟩ /- HOST_CLAMP_CNT -/]

/-- The registers of FCH. -/
def fchRegs : List RegSpec := [
  ⟨0x0, [], false, .none, [⟨⟨0, 1⟩, .rw, [0x1]⟩, ⟨⟨1, 1⟩, .rw, [0x1]⟩]⟩, /- FCH_CTRL -/
  ⟨0x4, [], false, .none, [⟨⟨0, 4⟩, .ro, [0x0]⟩, ⟨⟨4, 1⟩, .ro, [0x0]⟩, ⟨⟨8, 12⟩, .ro, [0x0]⟩]⟩, /- FCH_STATUS -/
  ⟨0x8, [], false, .none, [⟨⟨0, 8⟩, .rw, [0x64]⟩, ⟨⟨8, 8⟩, .rw, [0xC8]⟩, ⟨⟨16, 5⟩, .rw, [0x14]⟩]⟩, /- FCH_SUSP -/
  ⟨0xC, [], false, .none, [⟨⟨0, 1⟩, .w1c, [0x0]⟩, ⟨⟨1, 1⟩, .w1c, [0x0]⟩, ⟨⟨2, 1⟩, .w1c, [0x0]⟩, ⟨⟨8, 1⟩, .w1c, [0x0]⟩, ⟨⟨9, 1⟩, .w1c, [0x0]⟩, ⟨⟨10, 1⟩, .w1c, [0x0]⟩, ⟨⟨11, 1⟩, .w1c, [0x0]⟩, ⟨⟨12, 1⟩, .w1c, [0x0]⟩, ⟨⟨13, 1⟩, .w1c, [0x0]⟩, ⟨⟨14, 1⟩, .w1c, [0x0]⟩]⟩, /- FCH_EVT -/
  ⟨0x10, [], false, .none, [⟨⟨0, 32⟩, .ro, [0x0]⟩]⟩, /- FCH_CLAMP_CNT -/
  ⟨0x14, [], false, .none, [⟨⟨0, 32⟩, .ro, [0x0]⟩]⟩, /- FCH_RETRY_CNT -/
  ⟨0x18, [], false, .none, [⟨⟨0, 32⟩, .ro, [0x0]⟩]⟩, /- FCH_SOFT_CNT -/
  ⟨0x1C, [], false, .none, [⟨⟨0, 32⟩, .ro, [0x0]⟩]⟩, /- FCH_UNC_CNT -/
  ⟨0x20, [], false, .none, [⟨⟨0, 32⟩, .ro, [0x0]⟩]⟩, /- FCH_REFUSE_CNT -/
  ⟨0x24, [], false, .none, [⟨⟨0, 32⟩, .ro, [0x0]⟩]⟩, /- FCH_SUSP_CNT -/
  ⟨0x28, [], false, .none, [⟨⟨0, 32⟩, .ro, [0x0]⟩]⟩, /- FCH_PFAIL_CNT -/
  ⟨0x40, [(12, 0x4)], false, .none, [⟨⟨0, 2⟩, .ro, [0x0]⟩, ⟨⟨2, 4⟩, .ro, [0x0]⟩, ⟨⟨8, 5⟩, .ro, [0x0]⟩]⟩, /- FCH_DIE -/
  ⟨0x80, [(16, 0x4)], false, .none, [⟨⟨0, 4⟩, .rw, [0x0]⟩, ⟨⟨4, 12⟩, .rw, [0x0]⟩, ⟨⟨31, 1⟩, .rw, [0x0]⟩]⟩, /- FCH_RAWW -/
  ⟨0x100, [(8, 0x40)], false, .none, [⟨⟨0, 4⟩, .rw, [0x4]⟩, ⟨⟨4, 2⟩, .rw, [0x2]⟩, ⟨⟨8, 8⟩, .rw, [0x1]⟩, ⟨⟨16, 1⟩, .rw, [0x0]⟩, ⟨⟨20, 4⟩, .rw, [0x0]⟩, ⟨⟨24, 1⟩, .rw, [0x0]⟩]⟩, /- FCH_Q_CFG -/
  ⟨0x104, [(8, 0x40)], false, .low, [⟨⟨0, 32⟩, .rw, [0x0]⟩]⟩, /- FCH_Q_SQB_LO -/
  ⟨0x108, [(8, 0x40)], false, .high, [⟨⟨0, 32⟩, .rw, [0x0]⟩]⟩, /- FCH_Q_SQB_HI -/
  ⟨0x10C, [(8, 0x40)], false, .low, [⟨⟨0, 32⟩, .rw, [0x0]⟩]⟩, /- FCH_Q_CQB_LO -/
  ⟨0x110, [(8, 0x40)], false, .high, [⟨⟨0, 32⟩, .rw, [0x0]⟩]⟩, /- FCH_Q_CQB_HI -/
  ⟨0x114, [(8, 0x40)], false, .none, [⟨⟨0, 10⟩, .rw, [0x0]⟩]⟩, /- FCH_Q_SQT -/
  ⟨0x118, [(8, 0x40)], false, .none, [⟨⟨0, 10⟩, .ro, [0x0]⟩]⟩, /- FCH_Q_SQH -/
  ⟨0x11C, [(8, 0x40)], false, .none, [⟨⟨0, 10⟩, .rw, [0x0]⟩]⟩, /- FCH_Q_CQH -/
  ⟨0x120, [(8, 0x40)], false, .none, [⟨⟨0, 10⟩, .ro, [0x0]⟩]⟩, /- FCH_Q_CQT -/
  ⟨0x124, [(8, 0x40)], false, .none, [⟨⟨0, 1⟩, .w1s, [0x0]⟩, ⟨⟨8, 1⟩, .ro, [0x0]⟩]⟩ /- FCH_Q_CTRL -/]

/-- The registers of ORYX. -/
def oryxRegs : List RegSpec := [
  ⟨0x0, [], false, .none, [⟨⟨0, 1⟩, .rw, [0x1]⟩]⟩, /- ORYX_CTRL -/
  ⟨0x4, [], false, .none, [⟨⟨0, 1⟩, .ro, [0x0]⟩, ⟨⟨1, 1⟩, .ro, [0x1]⟩, ⟨⟨2, 7⟩, .ro, [0x0]⟩, ⟨⟨16, 12⟩, .ro, [0x0]⟩, ⟨⟨28, 4⟩, .ro, [0x0]⟩]⟩, /- ORYX_STATUS -/
  ⟨0x8, [], false, .none, [⟨⟨0, 1⟩, .w1c, [0x0]⟩, ⟨⟨1, 1⟩, .w1c, [0x0]⟩, ⟨⟨2, 1⟩, .w1c, [0x0]⟩, ⟨⟨3, 1⟩, .w1c, [0x0]⟩, ⟨⟨4, 1⟩, .w1c, [0x0]⟩, ⟨⟨5, 1⟩, .w1c, [0x0]⟩]⟩, /- ORYX_EVT -/
  ⟨0xC, [], false, .none, [⟨⟨0, 32⟩, .ro, [0x0]⟩]⟩, /- ORYX_PASS_CNT -/
  ⟨0x10, [], false, .none, [⟨⟨0, 32⟩, .ro, [0x0]⟩]⟩, /- ORYX_SKIP_CNT -/
  ⟨0x14, [], false, .none, [⟨⟨0, 32⟩, .ro, [0x0]⟩]⟩, /- ORYX_ERR_CNT -/
  ⟨0x18, [], false, .low, [⟨⟨0, 32⟩, .ro, [0x0]⟩]⟩, /- ORYX_VEC_LO -/
  ⟨0x1C, [], false, .high, [⟨⟨0, 32⟩, .ro, [0x0]⟩]⟩, /- ORYX_VEC_HI -/
  ⟨0x20, [], false, .low, [⟨⟨0, 32⟩, .ro, [0x0]⟩]⟩, /- ORYX_BYTES_LO -/
  ⟨0x24, [], false, .high, [⟨⟨0, 32⟩, .ro, [0x0]⟩]⟩, /- ORYX_BYTES_HI -/
  ⟨0x800, [], true, .low, [⟨⟨0, 32⟩, .wo, [0x0]⟩]⟩, /- SRCH_CMD_LO -/
  ⟨0x804, [], true, .high, [⟨⟨0, 32⟩, .wo, [0x0]⟩]⟩, /- SRCH_CMD_HI -/
  ⟨0x808, [], true, .none, [⟨⟨0, 11⟩, .ro, [0x0]⟩]⟩, /- SRCH_COLL -/
  ⟨0x80C, [], true, .none, [⟨⟨0, 1⟩, .w1c, [0x0]⟩, ⟨⟨1, 1⟩, .w1c, [0x0]⟩, ⟨⟨2, 1⟩, .w1c, [0x0]⟩]⟩, /- SRCH_EVT -/
  ⟨0x810, [], true, .none, [⟨⟨0, 32⟩, .ro, [0x0]⟩]⟩, /- SRCH_CLAMP_CNT -/
  ⟨0x814, [], true, .none, [⟨⟨0, 32⟩, .ro, [0x0]⟩]⟩, /- SRCH_SKIP_CNT -/
  ⟨0x818, [], true, .none, [⟨⟨0, 1⟩, .rw, [0x1]⟩, ⟨⟨8, 8⟩, .rw, [0x40]⟩]⟩, /- SRCH_COMPACT_CTRL -/
  ⟨0x81C, [], true, .none, [⟨⟨0, 32⟩, .rw, [0x1000000]⟩]⟩, /- SRCH_WHEY_THRESH -/
  ⟨0x820, [], true, .none, [⟨⟨0, 10⟩, .rw, [0x0]⟩]⟩, /- SRCH_COLL_SEL -/
  ⟨0x824, [], true, .low, [⟨⟨0, 32⟩, .ro, [0x0]⟩]⟩, /- SRCH_GEN_LO -/
  ⟨0x828, [], true, .high, [⟨⟨0, 16⟩, .ro, [0x0]⟩]⟩, /- SRCH_GEN_HI -/
  ⟨0x82C, [], true, .none, [⟨⟨0, 1⟩, .ro, [0x0]⟩, ⟨⟨1, 1⟩, .ro, [0x0]⟩, ⟨⟨2, 1⟩, .ro, [0x0]⟩, ⟨⟨4, 4⟩, .ro, [0x0]⟩, ⟨⟨16, 16⟩, .ro, [0x0]⟩]⟩, /- SRCH_COLL_STATE -/
  ⟨0x830, [], true, .none, [⟨⟨0, 32⟩, .ro, [0x0]⟩]⟩, /- SRCH_WHEY_CNT -/
  ⟨0x834, [], true, .none, [⟨⟨0, 32⟩, .ro, [0x0]⟩]⟩, /- SRCH_RESEL_CNT -/
  ⟨0x838, [], true, .none, [⟨⟨0, 32⟩, .ro, [0x0]⟩]⟩, /- SRCH_COMPACT_CNT -/
  ⟨0x83C, [], true, .none, [⟨⟨0, 1⟩, .w1c, [0x0]⟩, ⟨⟨1, 1⟩, .w1c, [0x0]⟩, ⟨⟨2, 1⟩, .w1c, [0x0]⟩, ⟨⟨3, 1⟩, .w1c, [0x0]⟩]⟩ /- SRCH_SEL_EVT -/]

/-- The registers of KUDU. -/
def kuduRegs : List RegSpec := [
  ⟨0x0, [], false, .none, [⟨⟨0, 1⟩, .rw, [0x0]⟩, ⟨⟨1, 1⟩, .rw, [0x1]⟩, ⟨⟨2, 2⟩, .rw, [0x0]⟩]⟩, /- KUDU_CTRL -/
  ⟨0x4, [], false, .none, [⟨⟨0, 1⟩, .ro, [0x1]⟩, ⟨⟨1, 1⟩, .ro, [0x0]⟩, ⟨⟨2, 1⟩, .ro, [0x0]⟩, ⟨⟨3, 1⟩, .ro, [0x0]⟩, ⟨⟨16, 12⟩, .ro, [0x0]⟩, ⟨⟨28, 4⟩, .ro, [0x0]⟩]⟩, /- KUDU_STATUS -/
  ⟨0x8, [], false, .none, [⟨⟨0, 12⟩, .rw, [0xC8]⟩, ⟨⟨16, 4⟩, .rw, [0x3]⟩]⟩, /- KUDU_GAP -/
  ⟨0xC, [], false, .none, [⟨⟨0, 1⟩, .w1c, [0x0]⟩, ⟨⟨1, 1⟩, .w1c, [0x0]⟩, ⟨⟨2, 1⟩, .w1c, [0x0]⟩]⟩, /- KUDU_PWR_EVT -/
  ⟨0x10, [], false, .none, [⟨⟨0, 32⟩, .ro, [0x0]⟩]⟩, /- KUDU_WAKE_CNT -/
  ⟨0x14, [], false, .none, []⟩, /- KUDU_RESERVED -/
  ⟨0x1000, [(4, 0x100)], false, .none, [⟨⟨0, 2⟩, .ro, [0x0]⟩, ⟨⟨2, 1⟩, .ro, [0x0]⟩, ⟨⟨3, 1⟩, .ro, [0x0]⟩, ⟨⟨4, 7⟩, .ro, [0x0]⟩]⟩, /- KUDU_MA_STATUS -/
  ⟨0x1004, [(4, 0x100)], false, .none, [⟨⟨0, 32⟩, .ro, [0x0]⟩]⟩, /- KUDU_MA_PASS -/
  ⟨0x1008, [(4, 0x100)], false, .low, [⟨⟨0, 32⟩, .ro, [0x0]⟩]⟩, /- KUDU_MA_STEPS_LO -/
  ⟨0x100C, [(4, 0x100)], false, .high, [⟨⟨0, 32⟩, .ro, [0x0]⟩]⟩, /- KUDU_MA_STEPS_HI -/
  ⟨0x1010, [(4, 0x100)], false, .low, [⟨⟨0, 32⟩, .ro, [0x0]⟩]⟩, /- KUDU_MA_DUMMY_LO -/
  ⟨0x1014, [(4, 0x100)], false, .high, [⟨⟨0, 32⟩, .ro, [0x0]⟩]⟩, /- KUDU_MA_DUMMY_HI -/
  ⟨0x1018, [(4, 0x100)], false, .none, [⟨⟨0, 1⟩, .w1c, [0x0]⟩, ⟨⟨1, 1⟩, .w1c, [0x0]⟩, ⟨⟨2, 1⟩, .w1c, [0x0]⟩]⟩, /- KUDU_MA_CNT_STAT -/
  ⟨0x2000, [(4, 0x100)], false, .none, [⟨⟨0, 3⟩, .ro, [0x0]⟩, ⟨⟨3, 1⟩, .ro, [0x0]⟩, ⟨⟨4, 1⟩, .ro, [0x0]⟩, ⟨⟨5, 1⟩, .ro, [0x0]⟩]⟩, /- SE_STATUS -/
  ⟨0x2004, [(4, 0x100)], false, .none, [⟨⟨0, 1⟩, .rw, [0x0]⟩]⟩, /- SE_CTRL -/
  ⟨0x2008, [(4, 0x100)], false, .low, [⟨⟨0, 32⟩, .ro, [0x0]⟩]⟩, /- SE_BYTES_LO -/
  ⟨0x200C, [(4, 0x100)], false, .high, [⟨⟨0, 32⟩, .ro, [0x0]⟩]⟩, /- SE_BYTES_HI -/
  ⟨0x2010, [(4, 0x100)], false, .none, [⟨⟨0, 32⟩, .ro, [0x0]⟩]⟩, /- SE_DRY_CNT -/
  ⟨0x2014, [(4, 0x100)], false, .none, [⟨⟨0, 32⟩, .ro, [0x0]⟩]⟩, /- SE_CANCEL_CNT -/
  ⟨0x2018, [(4, 0x100)], false, .none, [⟨⟨0, 1⟩, .w1c, [0x0]⟩, ⟨⟨1, 1⟩, .w1c, [0x0]⟩, ⟨⟨2, 1⟩, .w1c, [0x0]⟩, ⟨⟨3, 1⟩, .w1c, [0x0]⟩, ⟨⟨4, 1⟩, .w1c, [0x0]⟩]⟩, /- SE_EVT -/
  ⟨0x2800, [], false, .none, [⟨⟨0, 11⟩, .rw, [0x400]⟩]⟩, /- STR_CTRL -/
  ⟨0x2804, [], false, .none, [⟨⟨0, 32⟩, .ro, [0x0]⟩]⟩, /- STR_ABORT_CNT -/
  ⟨0x2808, [], false, .none, [⟨⟨0, 1⟩, .w1c, [0x0]⟩, ⟨⟨1, 3⟩, .ro, [0x0]⟩, ⟨⟨4, 2⟩, .ro, [0x0]⟩, ⟨⟨16, 12⟩, .ro, [0x0]⟩, ⟨⟨31, 1⟩, .w1c, [0x0]⟩]⟩, /- STR_ABORT_INFO -/
  ⟨0x280C, [], false, .none, [⟨⟨0, 32⟩, .ro, [0x0]⟩]⟩, /- STR_INVALID_CNT -/
  ⟨0x3000, [(128, 0x4)], false, .none, [⟨⟨0, 32⟩, .ro, [0xFFFFFFFF]⟩]⟩ /- SCR_VALID -/,
  ⟨0x8000, [(4096, 0x8)], false, .none, [⟨⟨0, 32⟩, .rw, [0x0]⟩]⟩ /- KUDU_SCALE_S -/,
  ⟨0x8004, [(4096, 0x8)], false, .none, [⟨⟨0, 32⟩, .rw, [0x0]⟩]⟩ /- KUDU_SCALE_Z -/]

/-- The registers of a block. -/
def blkRegs : Blk → List RegSpec
  | .addr => addrRegs
  | .cap => capRegs
  | .ts => tsRegs
  | .flt => fltRegs
  | .part => partRegs
  | .tier => tierRegs
  | .d2d => d2dRegs
  | .dir => dirRegs
  | .pwr => pwrRegs
  | .tempo => tempoRegs
  | .cham => chamRegs
  | .press => pressRegs
  | .wbc => wbcRegs
  | .sec => secRegs
  | .tahr => tahrRegs
  | .hbmc => hbmcRegs
  | .lpc => lpcRegs
  | .hl => hlRegs
  | .host => hostRegs
  | .fch => fchRegs
  | .oryx => oryxRegs
  | .kudu => kuduRegs

/-! The tier 4 offset of each register, by instance and index. -/
namespace R
abbrev tempoCtrl (i : Nat) : Nat := 0x80000 + i * 0x1000
abbrev tempoRate (i : Nat) : Nat := 0x80004 + i * 0x1000
abbrev tempoMin (i : Nat) : Nat := 0x80008 + i * 0x1000
abbrev tempoLow (i : Nat) : Nat := 0x8000C + i * 0x1000
abbrev tempoStatus (i : Nat) : Nat := 0x80010 + i * 0x1000
abbrev tempoBelow (i : Nat) : Nat := 0x80014 + i * 0x1000
abbrev tsNowLo (i : Nat) : Nat := 0x8000 + i * 0x1000
abbrev tsNowHi (i : Nat) : Nat := 0x8004 + i * 0x1000
abbrev tsStatus (i : Nat) : Nat := 0x8008 + i * 0x1000
abbrev tsSkew (i : Nat) : Nat := 0x800C + i * 0x1000
abbrev addrNode : Nat := 0x0
abbrev addrPriv : Nat := 0x4
abbrev addrWin : Nat := 0x8
abbrev addrClampCnt (j : Nat) : Nat := 0x100 + j * 0x10
abbrev addrClampLo (j : Nat) : Nat := 0x104 + j * 0x10
abbrev addrClampHi (j : Nat) : Nat := 0x108 + j * 0x10
abbrev addrClampInfo (j : Nat) : Nat := 0x10C + j * 0x10
abbrev capVersion : Nat := 0x4000
abbrev capFeat0 : Nat := 0x4004
abbrev capFeat1 : Nat := 0x4008
abbrev capKudu : Nat := 0x4010
abbrev capArray : Nat := 0x4014
abbrev capCham : Nat := 0x4018
abbrev capScratch : Nat := 0x401C
abbrev capScale : Nat := 0x4020
abbrev capCtx : Nat := 0x4024
abbrev capHerd : Nat := 0x4028
abbrev capD2d : Nat := 0x402C
abbrev capD2dBw0 : Nat := 0x4030
abbrev capD2dBw1 : Nat := 0x4034
abbrev capD2dBw2 : Nat := 0x4038
abbrev capSearch : Nat := 0x403C
abbrev capStep : Nat := 0x4040
abbrev capTierSizeLo (j : Nat) : Nat := 0x4080 + j * 0x10
abbrev capTierSizeHi (j : Nat) : Nat := 0x4084 + j * 0x10
abbrev capTierAvailLo (j : Nat) : Nat := 0x4088 + j * 0x10
abbrev capTierAvailHi (j : Nat) : Nat := 0x408C + j * 0x10
abbrev kuduCtrl (i : Nat) : Nat := 0x400000 + i * 0x10000
abbrev kuduStatus (i : Nat) : Nat := 0x400004 + i * 0x10000
abbrev kuduGap (i : Nat) : Nat := 0x400008 + i * 0x10000
abbrev kuduPwrEvt (i : Nat) : Nat := 0x40000C + i * 0x10000
abbrev kuduWakeCnt (i : Nat) : Nat := 0x400010 + i * 0x10000
abbrev kuduReserved (i : Nat) : Nat := 0x400014 + i * 0x10000
abbrev kuduMaStatus (i j : Nat) : Nat := 0x401000 + i * 0x10000 + j * 0x100
abbrev kuduMaPass (i j : Nat) : Nat := 0x401004 + i * 0x10000 + j * 0x100
abbrev kuduMaStepsLo (i j : Nat) : Nat := 0x401008 + i * 0x10000 + j * 0x100
abbrev kuduMaStepsHi (i j : Nat) : Nat := 0x40100C + i * 0x10000 + j * 0x100
abbrev kuduMaDummyLo (i j : Nat) : Nat := 0x401010 + i * 0x10000 + j * 0x100
abbrev kuduMaDummyHi (i j : Nat) : Nat := 0x401014 + i * 0x10000 + j * 0x100
abbrev kuduMaCntStat (i j : Nat) : Nat := 0x401018 + i * 0x10000 + j * 0x100
abbrev seStatus (i j : Nat) : Nat := 0x402000 + i * 0x10000 + j * 0x100
abbrev seCtrl (i j : Nat) : Nat := 0x402004 + i * 0x10000 + j * 0x100
abbrev seBytesLo (i j : Nat) : Nat := 0x402008 + i * 0x10000 + j * 0x100
abbrev seBytesHi (i j : Nat) : Nat := 0x40200C + i * 0x10000 + j * 0x100
abbrev seDryCnt (i j : Nat) : Nat := 0x402010 + i * 0x10000 + j * 0x100
abbrev seCancelCnt (i j : Nat) : Nat := 0x402014 + i * 0x10000 + j * 0x100
abbrev seEvt (i j : Nat) : Nat := 0x402018 + i * 0x10000 + j * 0x100
abbrev strCtrl (i : Nat) : Nat := 0x402800 + i * 0x10000
abbrev strAbortCnt (i : Nat) : Nat := 0x402804 + i * 0x10000
abbrev strAbortInfo (i : Nat) : Nat := 0x402808 + i * 0x10000
abbrev strInvalidCnt (i : Nat) : Nat := 0x40280C + i * 0x10000
abbrev scrValid (i j : Nat) : Nat := 0x403000 + i * 0x10000 + j * 0x4
abbrev partKuduOwn (j : Nat) : Nat := 0x20000 + j * 0x4
abbrev partChamOwn (j : Nat) : Nat := 0x20100 + j * 0x4
abbrev partCfg (j : Nat) : Nat := 0x20200 + j * 0x40
abbrev partOryx (j : Nat) : Nat := 0x20204 + j * 0x40
abbrev partHerd (j : Nat) : Nat := 0x20208 + j * 0x40
abbrev partInfo (j : Nat) : Nat := 0x2020C + j * 0x40
abbrev partLq (j : Nat) : Nat := 0x20210 + j * 0x40
abbrev partLaunchLo : Nat := 0x20800
abbrev partLaunchHi : Nat := 0x20804
abbrev partCost : Nat := 0x20810
abbrev partClampCnt : Nat := 0x20814
abbrev partEvt : Nat := 0x20818
abbrev partPreemptCnt : Nat := 0x2081C
abbrev partSwapCnt : Nat := 0x20820
abbrev partStealCnt : Nat := 0x20824
abbrev partRestartCnt : Nat := 0x20828
abbrev partCtxSel : Nat := 0x21000
abbrev partCtxCtrl : Nat := 0x21004
abbrev partCtxShare : Nat := 0x21008
abbrev partCtxState : Nat := 0x2100C
abbrev partCtxWin : Nat := 0x21010
abbrev partCtxWrap : Nat := 0x21014
abbrev partCtxAccLo (j : Nat) : Nat := 0x21020 + j * 0x8
abbrev partCtxAccHi (j : Nat) : Nat := 0x21024 + j * 0x8
abbrev chamStatus (i : Nat) : Nat := 0xA0000 + i * 0x1000
abbrev chamCtrl (i : Nat) : Nat := 0xA0004 + i * 0x1000
abbrev chamIrq (i : Nat) : Nat := 0xA0008 + i * 0x1000
abbrev chamIrqEn (i : Nat) : Nat := 0xA000C + i * 0x1000
abbrev tierCtrl (j : Nat) : Nat := 0x30000 + j * 0x20
abbrev tierFreeLo (j : Nat) : Nat := 0x30004 + j * 0x20
abbrev tierFreeHi (j : Nat) : Nat := 0x30008 + j * 0x20
abbrev tierHeldLo (j : Nat) : Nat := 0x3000C + j * 0x20
abbrev tierHeldHi (j : Nat) : Nat := 0x30010 + j * 0x20
abbrev tierWait : Nat := 0x30100
abbrev tierObjCnt : Nat := 0x30104
abbrev tierEvt : Nat := 0x30108
abbrev tierDemoteCnt : Nat := 0x3010C
abbrev tierMoveCnt : Nat := 0x30110
abbrev tierClampCnt : Nat := 0x30114
abbrev tierRindErrCnt : Nat := 0x30118
abbrev tierFullCnt : Nat := 0x3011C
abbrev tierLateCnt : Nat := 0x30120
abbrev tierOcmdLo : Nat := 0x30200
abbrev tierOcmdHi : Nat := 0x30204
abbrev tierQuota (j k : Nat) : Nat := 0x31000 + j * 0x40 + k * 0x10
abbrev tierUsed (j k : Nat) : Nat := 0x31004 + j * 0x40 + k * 0x10
abbrev tierPheld (j k : Nat) : Nat := 0x31008 + j * 0x40 + k * 0x10
abbrev hlCtrl (i : Nat) : Nat := 0x140000 + i * 0x1000
abbrev hlState (i : Nat) : Nat := 0x140004 + i * 0x1000
abbrev hlEvt (i : Nat) : Nat := 0x140008 + i * 0x1000
abbrev hlReplayCnt (i : Nat) : Nat := 0x14000C + i * 0x1000
abbrev hlFecCorrCnt (i : Nat) : Nat := 0x140010 + i * 0x1000
abbrev hlFecUncorrCnt (i : Nat) : Nat := 0x140014 + i * 0x1000
abbrev hlRetrainCnt (i : Nat) : Nat := 0x140018 + i * 0x1000
abbrev hlProtoCnt (i : Nat) : Nat := 0x14001C + i * 0x1000
abbrev hlDropCnt (i : Nat) : Nat := 0x140020 + i * 0x1000
abbrev hlTxflitLo (i : Nat) : Nat := 0x140024 + i * 0x1000
abbrev hlTxflitHi (i : Nat) : Nat := 0x140028 + i * 0x1000
abbrev hlRxflitLo (i : Nat) : Nat := 0x14002C + i * 0x1000
abbrev hlRxflitHi (i : Nat) : Nat := 0x140030 + i * 0x1000
abbrev dirCfg : Nat := 0x50000
abbrev dirEnum : Nat := 0x50004
abbrev dirExptLo : Nat := 0x50008
abbrev dirExptHi : Nat := 0x5000C
abbrev dirGrpLo : Nat := 0x50010
abbrev dirGrpHi : Nat := 0x50014
abbrev dirGrpReset : Nat := 0x50018
abbrev dirTokin : Nat := 0x5001C
abbrev dirRouteSel : Nat := 0x50020
abbrev dirRoute : Nat := 0x50024
abbrev dirEntries (i : Nat) : Nat := 0x50100 + i * 0x4000
abbrev dirEvt (i : Nat) : Nat := 0x50104 + i * 0x4000
abbrev dirInvCnt (i : Nat) : Nat := 0x50108 + i * 0x4000
abbrev dirCoarseCnt (i : Nat) : Nat := 0x5010C + i * 0x4000
abbrev dirEvictCnt (i : Nat) : Nat := 0x50110 + i * 0x4000
abbrev dirCutCnt (i : Nat) : Nat := 0x50114 + i * 0x4000
abbrev dirLateCnt (i : Nat) : Nat := 0x50118 + i * 0x4000
abbrev dirTokncCnt (i : Nat) : Nat := 0x5011C + i * 0x4000
abbrev dirToklostCnt (i : Nat) : Nat := 0x50120 + i * 0x4000
abbrev dirClampCnt (i : Nat) : Nat := 0x50124 + i * 0x4000
abbrev dirCutInfo (i : Nat) : Nat := 0x50128 + i * 0x4000
abbrev oryxCtrl (i : Nat) : Nat := 0x280000 + i * 0x1000
abbrev oryxStatus (i : Nat) : Nat := 0x280004 + i * 0x1000
abbrev oryxEvt (i : Nat) : Nat := 0x280008 + i * 0x1000
abbrev oryxPassCnt (i : Nat) : Nat := 0x28000C + i * 0x1000
abbrev oryxSkipCnt (i : Nat) : Nat := 0x280010 + i * 0x1000
abbrev oryxErrCnt (i : Nat) : Nat := 0x280014 + i * 0x1000
abbrev oryxVecLo (i : Nat) : Nat := 0x280018 + i * 0x1000
abbrev oryxVecHi (i : Nat) : Nat := 0x28001C + i * 0x1000
abbrev oryxBytesLo (i : Nat) : Nat := 0x280020 + i * 0x1000
abbrev oryxBytesHi (i : Nat) : Nat := 0x280024 + i * 0x1000
abbrev srchCmdLo : Nat := 0x280800
abbrev srchCmdHi : Nat := 0x280804
abbrev srchColl : Nat := 0x280808
abbrev srchEvt : Nat := 0x28080C
abbrev srchClampCnt : Nat := 0x280810
abbrev srchSkipCnt : Nat := 0x280814
abbrev srchCompactCtrl : Nat := 0x280818
abbrev srchWheyThresh : Nat := 0x28081C
abbrev srchCollSel : Nat := 0x280820
abbrev srchGenLo : Nat := 0x280824
abbrev srchGenHi : Nat := 0x280828
abbrev srchCollState : Nat := 0x28082C
abbrev srchWheyCnt : Nat := 0x280830
abbrev srchReselCnt : Nat := 0x280834
abbrev srchCompactCnt : Nat := 0x280838
abbrev srchSelEvt : Nat := 0x28083C
abbrev fchCtrl (i : Nat) : Nat := 0x200000 + i * 0x1000
abbrev fchStatus (i : Nat) : Nat := 0x200004 + i * 0x1000
abbrev fchSusp (i : Nat) : Nat := 0x200008 + i * 0x1000
abbrev fchEvt (i : Nat) : Nat := 0x20000C + i * 0x1000
abbrev fchClampCnt (i : Nat) : Nat := 0x200010 + i * 0x1000
abbrev fchRetryCnt (i : Nat) : Nat := 0x200014 + i * 0x1000
abbrev fchSoftCnt (i : Nat) : Nat := 0x200018 + i * 0x1000
abbrev fchUncCnt (i : Nat) : Nat := 0x20001C + i * 0x1000
abbrev fchRefuseCnt (i : Nat) : Nat := 0x200020 + i * 0x1000
abbrev fchSuspCnt (i : Nat) : Nat := 0x200024 + i * 0x1000
abbrev fchPfailCnt (i : Nat) : Nat := 0x200028 + i * 0x1000
abbrev fchDie (i j : Nat) : Nat := 0x200040 + i * 0x1000 + j * 0x4
abbrev fchRaww (i j : Nat) : Nat := 0x200080 + i * 0x1000 + j * 0x4
abbrev fchQCfg (i j : Nat) : Nat := 0x200100 + i * 0x1000 + j * 0x40
abbrev fchQSqbLo (i j : Nat) : Nat := 0x200104 + i * 0x1000 + j * 0x40
abbrev fchQSqbHi (i j : Nat) : Nat := 0x200108 + i * 0x1000 + j * 0x40
abbrev fchQCqbLo (i j : Nat) : Nat := 0x20010C + i * 0x1000 + j * 0x40
abbrev fchQCqbHi (i j : Nat) : Nat := 0x200110 + i * 0x1000 + j * 0x40
abbrev fchQSqt (i j : Nat) : Nat := 0x200114 + i * 0x1000 + j * 0x40
abbrev fchQSqh (i j : Nat) : Nat := 0x200118 + i * 0x1000 + j * 0x40
abbrev fchQCqh (i j : Nat) : Nat := 0x20011C + i * 0x1000 + j * 0x40
abbrev fchQCqt (i j : Nat) : Nat := 0x200120 + i * 0x1000 + j * 0x40
abbrev fchQCtrl (i j : Nat) : Nat := 0x200124 + i * 0x1000 + j * 0x40
abbrev pressStatus (i : Nat) : Nat := 0xC0000 + i * 0x1000
abbrev ftlState : Nat := 0xC0800
abbrev ftlSbFree : Nat := 0xC0804
abbrev ftlSbGood : Nat := 0xC0808
abbrev ftlSbNeed : Nat := 0xC080C
abbrev ftlGcLim0 : Nat := 0xC0810
abbrev ftlGcLim1 : Nat := 0xC0814
abbrev ftlHeat : Nat := 0xC0818
abbrev ftlHoldup : Nat := 0xC081C
abbrev ftlUserwLo : Nat := 0xC0820
abbrev ftlUserwHi : Nat := 0xC0824
abbrev ftlMediawLo : Nat := 0xC0828
abbrev ftlMediawHi : Nat := 0xC082C
abbrev ftlErase : Nat := 0xC0830
abbrev ftlFineFree : Nat := 0xC0834
abbrev ftlRecovMs : Nat := 0xC0838
abbrev ftlEvt : Nat := 0xC083C
abbrev ftlGcCnt : Nat := 0xC0840
abbrev ftlPoisonCnt : Nat := 0xC0844
abbrev ftlPromoteCnt : Nat := 0xC0848
abbrev ftlFlushCnt : Nat := 0xC084C
abbrev wbcStatus : Nat := 0xD0000
abbrev wbcCtrl : Nat := 0xD0004
abbrev wbcHitCnt : Nat := 0xD0008
abbrev wbcEvt : Nat := 0xD000C
abbrev wbcThrCnt : Nat := 0xD0010
abbrev wbcLastFlush : Nat := 0xD0014
abbrev hostPortcfg : Nat := 0x180000
abbrev hostRights (i : Nat) : Nat := 0x180004 + i * 0x4000
abbrev hostLink (i : Nat) : Nat := 0x180008 + i * 0x4000
abbrev hostEvt (i : Nat) : Nat := 0x18000C + i * 0x4000
abbrev hostCmdLo (i : Nat) : Nat := 0x180010 + i * 0x4000
abbrev hostCmdHi (i : Nat) : Nat := 0x180014 + i * 0x4000
abbrev hostOrdCnt (i : Nat) : Nat := 0x180018 + i * 0x4000
abbrev hostAbortCnt (i : Nat) : Nat := 0x18001C + i * 0x4000
abbrev hostDenyCnt (i : Nat) : Nat := 0x180020 + i * 0x4000
abbrev hostClampCnt (i : Nat) : Nat := 0x180024 + i * 0x4000
abbrev fltCtrl (i : Nat) : Nat := 0x10000 + i * 0x4000
abbrev fltStatus (i : Nat) : Nat := 0x10004 + i * 0x4000
abbrev fltEvt (i : Nat) : Nat := 0x10008 + i * 0x4000
abbrev fltCntCorr (i : Nat) : Nat := 0x1000C + i * 0x4000
abbrev fltCntCont (i : Nat) : Nat := 0x10010 + i * 0x4000
abbrev fltCntFatal (i : Nat) : Nat := 0x10014 + i * 0x4000
abbrev fltEscCnt (i : Nat) : Nat := 0x10018 + i * 0x4000
abbrev fltRingOvfCnt (i : Nat) : Nat := 0x1001C + i * 0x4000
abbrev fltRingHead (i : Nat) : Nat := 0x10020 + i * 0x4000
abbrev fltRingTail (i : Nat) : Nat := 0x10024 + i * 0x4000
abbrev fltRingTahr (i : Nat) : Nat := 0x10028 + i * 0x4000
abbrev fltInj (i : Nat) : Nat := 0x10030 + i * 0x4000
abbrev fltCapInfo (i j : Nat) : Nat := 0x10100 + i * 0x4000 + j * 0x20
abbrev fltCapAddrLo (i j : Nat) : Nat := 0x10104 + i * 0x4000 + j * 0x20
abbrev fltCapAddrHi (i j : Nat) : Nat := 0x10108 + i * 0x4000 + j * 0x20
abbrev fltCapTsLo (i j : Nat) : Nat := 0x1010C + i * 0x4000 + j * 0x20
abbrev fltCapTsHi (i j : Nat) : Nat := 0x10110 + i * 0x4000 + j * 0x20
abbrev fltCapSrc (i j : Nat) : Nat := 0x10114 + i * 0x4000 + j * 0x20
abbrev fltCapDetail (i j : Nat) : Nat := 0x10118 + i * 0x4000 + j * 0x20
abbrev d2dStatus (i : Nat) : Nat := 0x40000 + i * 0x1000
abbrev d2dEvt (i : Nat) : Nat := 0x40004 + i * 0x1000
abbrev d2dReplayCnt (i : Nat) : Nat := 0x40008 + i * 0x1000
abbrev d2dRetrainCnt (i : Nat) : Nat := 0x4000C + i * 0x1000
abbrev d2dFenced (i : Nat) : Nat := 0x40010 + i * 0x1000
abbrev hbmcStatus (i : Nat) : Nat := 0x100000 + i * 0x4000
abbrev hbmcEvt (i : Nat) : Nat := 0x100004 + i * 0x4000
abbrev hbmcCorrCnt (i : Nat) : Nat := 0x100008 + i * 0x4000
abbrev hbmcUncCnt (i : Nat) : Nat := 0x10000C + i * 0x4000
abbrev hbmcOndieCnt (i : Nat) : Nat := 0x100010 + i * 0x4000
abbrev hbmcHitCnt (i : Nat) : Nat := 0x100014 + i * 0x4000
abbrev hbmcScrub (i : Nat) : Nat := 0x100018 + i * 0x4000
abbrev hbmcScrubPass (i : Nat) : Nat := 0x10001C + i * 0x4000
abbrev hbmcRetCmd (i : Nat) : Nat := 0x100020 + i * 0x4000
abbrev hbmcRetOldLo (i : Nat) : Nat := 0x100024 + i * 0x4000
abbrev hbmcRetOldHi (i : Nat) : Nat := 0x100028 + i * 0x4000
abbrev hbmcRetNewLo (i : Nat) : Nat := 0x10002C + i * 0x4000
abbrev hbmcRetNewHi (i : Nat) : Nat := 0x100030 + i * 0x4000
abbrev hbmcRetUsed (i : Nat) : Nat := 0x100034 + i * 0x4000
abbrev lpcStatus (i : Nat) : Nat := 0x120000 + i * 0x2000
abbrev lpcEvt (i : Nat) : Nat := 0x120004 + i * 0x2000
abbrev lpcCorrCnt (i : Nat) : Nat := 0x120008 + i * 0x2000
abbrev lpcUncCnt (i : Nat) : Nat := 0x12000C + i * 0x2000
abbrev lpcLinkCnt (i : Nat) : Nat := 0x120010 + i * 0x2000
abbrev lpcHitCnt (i : Nat) : Nat := 0x120014 + i * 0x2000
abbrev lpcScrub (i : Nat) : Nat := 0x120018 + i * 0x2000
abbrev lpcScrubPass (i : Nat) : Nat := 0x12001C + i * 0x2000
abbrev lpcRetCmd (i : Nat) : Nat := 0x120020 + i * 0x2000
abbrev lpcRetOldLo (i : Nat) : Nat := 0x120024 + i * 0x2000
abbrev lpcRetOldHi (i : Nat) : Nat := 0x120028 + i * 0x2000
abbrev lpcRetNewLo (i : Nat) : Nat := 0x12002C + i * 0x2000
abbrev lpcRetNewHi (i : Nat) : Nat := 0x120030 + i * 0x2000
abbrev lpcRetUsed (i : Nat) : Nat := 0x120034 + i * 0x2000
abbrev secLc : Nat := 0xE0000
abbrev secSvn : Nat := 0xE0004
abbrev secSerialLo : Nat := 0xE0008
abbrev secSerialHi : Nat := 0xE000C
abbrev secKeys : Nat := 0xE0010
abbrev secEvt : Nat := 0xE0014
abbrev secAuthCnt : Nat := 0xE0018
abbrev tahrStatus : Nat := 0xF0000
abbrev tahrSetCtrl : Nat := 0xF0004
abbrev tahrLogCnt : Nat := 0xF0008
abbrev tahrEvt : Nat := 0xF000C
abbrev tahrTempLim : Nat := 0xF0010
abbrev tahrTemp (j : Nat) : Nat := 0xF0100 + j * 0x4
abbrev tahrMon (j : Nat) : Nat := 0xF0200 + j * 0x4
abbrev pwrCap : Nat := 0x60000
abbrev pwrStatus : Nat := 0x60004
abbrev pwrCtrl : Nat := 0x60008
abbrev pwrCause : Nat := 0x6000C
abbrev pwrEvt : Nat := 0x60010
abbrev pwrThrottleCnt : Nat := 0x60014
abbrev pwrLossCnt : Nat := 0x60018
abbrev pwrClampCnt : Nat := 0x6001C
abbrev pwrStep (j : Nat) : Nat := 0x60044 + j * 0x4
end R

/-! The fields of each register. -/
namespace F
abbrev tempoCtrl_en : Fld := ⟨0, 1⟩
abbrev tempoCtrl_clrCount : Fld := ⟨1, 1⟩
abbrev tempoCtrl_window : Fld := ⟨4, 4⟩
abbrev tempoRate_rate : Fld := ⟨0, 12⟩
abbrev tempoRate_valid : Fld := ⟨16, 1⟩
abbrev tempoMin_min : Fld := ⟨0, 12⟩
abbrev tempoLow_lowThresh : Fld := ⟨0, 12⟩
abbrev tempoStatus_below : Fld := ⟨0, 1⟩
abbrev tempoStatus_ovf : Fld := ⟨1, 1⟩
abbrev tsStatus_running : Fld := ⟨0, 1⟩
abbrev tsSkew_skew : Fld := ⟨0, 8⟩
abbrev addrNode_nodeId : Fld := ⟨0, 12⟩
abbrev addrNode_assigned : Fld := ⟨16, 1⟩
abbrev addrPriv_priv : Fld := ⟨0, 16⟩
abbrev addrWin_size : Fld := ⟨0, 30⟩
abbrev addrClampInfo_valid : Fld := ⟨0, 1⟩
abbrev addrClampInfo_kind : Fld := ⟨1, 3⟩
abbrev addrClampInfo_srcKind : Fld := ⟨4, 3⟩
abbrev addrClampInfo_srcId : Fld := ⟨16, 12⟩
abbrev addrClampInfo_ovf : Fld := ⟨31, 1⟩
abbrev capVersion_isaMinor : Fld := ⟨0, 8⟩
abbrev capVersion_isaMajor : Fld := ⟨8, 8⟩
abbrev capVersion_fwMinor : Fld := ⟨16, 8⟩
abbrev capVersion_fwMajor : Fld := ⟨24, 8⟩
abbrev capFeat0_fp4 : Fld := ⟨0, 1⟩
abbrev capFeat0_mx : Fld := ⟨1, 1⟩
abbrev capFeat0_sround : Fld := ⟨2, 1⟩
abbrev capFeat0_sgrad : Fld := ⟨3, 1⟩
abbrev capFeat0_rot : Fld := ⟨4, 1⟩
abbrev capFeat0_wtrans : Fld := ⟨5, 1⟩
abbrev capFeat0_scnOryx : Fld := ⟨6, 1⟩
abbrev capFeat0_scnArray : Fld := ⟨7, 1⟩
abbrev capFeat0_tokens : Fld := ⟨8, 1⟩
abbrev capFeat0_neighbour : Fld := ⟨9, 1⟩
abbrev capFeat0_selLarge : Fld := ⟨10, 1⟩
abbrev capKudu_built : Fld := ⟨0, 8⟩
abbrev capKudu_inService : Fld := ⟨8, 8⟩
abbrev capKudu_arrays : Fld := ⟨16, 4⟩
abbrev capKudu_streams : Fld := ⟨20, 4⟩
abbrev capKudu_outstanding : Fld := ⟨24, 4⟩
abbrev capArray_rows : Fld := ⟨0, 8⟩
abbrev capArray_cols : Fld := ⟨8, 8⟩
abbrev capArray_passSteps : Fld := ⟨16, 8⟩
abbrev capCham_built : Fld := ⟨0, 8⟩
abbrev capCham_inService : Fld := ⟨8, 8⟩
abbrev capScale_entries : Fld := ⟨0, 13⟩
abbrev capCtx_contexts : Fld := ⟨0, 13⟩
abbrev capCtx_partitions : Fld := ⟨16, 5⟩
abbrev capHerd_built : Fld := ⟨0, 8⟩
abbrev capHerd_inService : Fld := ⟨8, 8⟩
abbrev capD2d_ibexMod : Fld := ⟨0, 5⟩
abbrev capD2d_vat0Mod : Fld := ⟨8, 5⟩
abbrev capD2d_vat1Mod : Fld := ⟨16, 5⟩
abbrev capD2dBw0_gbps : Fld := ⟨0, 16⟩
abbrev capD2dBw1_gbps : Fld := ⟨0, 16⟩
abbrev capD2dBw2_gbps : Fld := ⟨0, 16⟩
abbrev capSearch_oryx : Fld := ⟨0, 8⟩
abbrev capSearch_queries : Fld := ⟨8, 8⟩
abbrev capSearch_kHw : Fld := ⟨16, 8⟩
abbrev capSearch_kSelLog2 : Fld := ⟨24, 5⟩
abbrev capStep_nominal : Fld := ⟨0, 12⟩
abbrev kuduCtrl_run : Fld := ⟨0, 1⟩
abbrev kuduCtrl_dummyEn : Fld := ⟨1, 1⟩
abbrev kuduCtrl_packMax : Fld := ⟨2, 2⟩
abbrev kuduStatus_stopped : Fld := ⟨0, 1⟩
abbrev kuduStatus_busy : Fld := ⟨1, 1⟩
abbrev kuduStatus_fenced : Fld := ⟨2, 1⟩
abbrev kuduStatus_ctxValid : Fld := ⟨3, 1⟩
abbrev kuduStatus_ctxId : Fld := ⟨16, 12⟩
abbrev kuduStatus_part : Fld := ⟨28, 4⟩
abbrev kuduGap_thresh : Fld := ⟨0, 12⟩
abbrev kuduGap_ramp : Fld := ⟨16, 4⟩
abbrev kuduPwrEvt_idle : Fld := ⟨0, 1⟩
abbrev kuduPwrEvt_wake : Fld := ⟨1, 1⟩
abbrev kuduPwrEvt_wakeOvf : Fld := ⟨2, 1⟩
abbrev kuduMaStatus_mode : Fld := ⟨0, 2⟩
abbrev kuduMaStatus_active : Fld := ⟨2, 1⟩
abbrev kuduMaStatus_ramping : Fld := ⟨3, 1⟩
abbrev kuduMaStatus_density : Fld := ⟨4, 7⟩
abbrev kuduMaCntStat_passOvf : Fld := ⟨0, 1⟩
abbrev kuduMaCntStat_stepsWrap : Fld := ⟨1, 1⟩
abbrev kuduMaCntStat_dummyWrap : Fld := ⟨2, 1⟩
abbrev seStatus_outstanding : Fld := ⟨0, 3⟩
abbrev seStatus_active : Fld := ⟨3, 1⟩
abbrev seStatus_paused : Fld := ⟨4, 1⟩
abbrev seStatus_behind : Fld := ⟨5, 1⟩
abbrev seCtrl_pause : Fld := ⟨0, 1⟩
abbrev seEvt_dry : Fld := ⟨0, 1⟩
abbrev seEvt_cancel : Fld := ⟨1, 1⟩
abbrev seEvt_dryOvf : Fld := ⟨2, 1⟩
abbrev seEvt_cancelOvf : Fld := ⟨3, 1⟩
abbrev seEvt_bytesWrap : Fld := ⟨4, 1⟩
abbrev strCtrl_starve : Fld := ⟨0, 11⟩
abbrev strAbortInfo_valid : Fld := ⟨0, 1⟩
abbrev strAbortInfo_cause : Fld := ⟨1, 3⟩
abbrev strAbortInfo_engine : Fld := ⟨4, 2⟩
abbrev strAbortInfo_ctxId : Fld := ⟨16, 12⟩
abbrev strAbortInfo_ovf : Fld := ⟨31, 1⟩
abbrev partKuduOwn_owner : Fld := ⟨0, 5⟩
abbrev partKuduOwn_effective : Fld := ⟨8, 5⟩
abbrev partKuduOwn_pending : Fld := ⟨16, 1⟩
abbrev partChamOwn_owner : Fld := ⟨0, 5⟩
abbrev partChamOwn_effective : Fld := ⟨8, 5⟩
abbrev partChamOwn_pending : Fld := ⟨16, 1⟩
abbrev partCfg_enable : Fld := ⟨0, 1⟩
abbrev partCfg_priv : Fld := ⟨1, 1⟩
abbrev partCfg_scrCkpt : Fld := ⟨2, 1⟩
abbrev partCfg_slice : Fld := ⟨16, 10⟩
abbrev partOryx_slots : Fld := ⟨0, 14⟩
abbrev partHerd_share : Fld := ⟨0, 8⟩
abbrev partInfo_kudu : Fld := ⟨0, 7⟩
abbrev partInfo_cham : Fld := ⟨8, 6⟩
abbrev partInfo_contexts : Fld := ⟨16, 13⟩
abbrev partLq_depth : Fld := ⟨0, 7⟩
abbrev partCost_wa : Fld := ⟨0, 8⟩
abbrev partCost_wv : Fld := ⟨8, 8⟩
abbrev partCost_wb : Fld := ⟨16, 8⟩
abbrev partCost_wq : Fld := ⟨24, 8⟩
abbrev partEvt_clampOvf : Fld := ⟨0, 1⟩
abbrev partEvt_preemptOvf : Fld := ⟨1, 1⟩
abbrev partEvt_swapOvf : Fld := ⟨2, 1⟩
abbrev partEvt_stealOvf : Fld := ⟨3, 1⟩
abbrev partEvt_restartOvf : Fld := ⟨4, 1⟩
abbrev partCtxSel_ctx : Fld := ⟨0, 12⟩
abbrev partCtxCtrl_end : Fld := ⟨0, 1⟩
abbrev partCtxCtrl_preempt : Fld := ⟨1, 1⟩
abbrev partCtxCtrl_clrClamp : Fld := ⟨2, 1⟩
abbrev partCtxShare_share : Fld := ⟨0, 16⟩
abbrev partCtxState_state : Fld := ⟨0, 3⟩
abbrev partCtxState_part : Fld := ⟨4, 4⟩
abbrev partCtxState_core : Fld := ⟨8, 6⟩
abbrev partCtxState_slots : Fld := ⟨14, 9⟩
abbrev partCtxWrap_array : Fld := ⟨0, 1⟩
abbrev partCtxWrap_vec : Fld := ⟨1, 1⟩
abbrev partCtxWrap_sbytes : Fld := ⟨2, 1⟩
abbrev partCtxWrap_ssteps : Fld := ⟨3, 1⟩
abbrev partCtxWrap_oryx : Fld := ⟨4, 1⟩
abbrev chamStatus_run : Fld := ⟨0, 1⟩
abbrev chamStatus_fenced : Fld := ⟨1, 1⟩
abbrev chamStatus_runtime : Fld := ⟨2, 1⟩
abbrev chamStatus_owner : Fld := ⟨8, 5⟩
abbrev chamCtrl_halt : Fld := ⟨0, 1⟩
abbrev chamCtrl_trap : Fld := ⟨1, 1⟩
abbrev chamIrq_fault : Fld := ⟨0, 1⟩
abbrev chamIrq_done : Fld := ⟨1, 1⟩
abbrev chamIrqEn_en : Fld := ⟨0, 2⟩
abbrev tierCtrl_mode : Fld := ⟨0, 1⟩
abbrev tierCtrl_low : Fld := ⟨8, 10⟩
abbrev tierCtrl_high : Fld := ⟨20, 10⟩
abbrev tierWait_ms : Fld := ⟨0, 10⟩
abbrev tierObjCnt_count : Fld := ⟨0, 19⟩
abbrev tierEvt_rindErr : Fld := ⟨0, 1⟩
abbrev tierEvt_demoteOvf : Fld := ⟨1, 1⟩
abbrev tierEvt_moveOvf : Fld := ⟨2, 1⟩
abbrev tierEvt_clampOvf : Fld := ⟨3, 1⟩
abbrev tierEvt_rindOvf : Fld := ⟨4, 1⟩
abbrev tierEvt_fullOvf : Fld := ⟨5, 1⟩
abbrev tierEvt_lateOvf : Fld := ⟨6, 1⟩
abbrev hlCtrl_disable : Fld := ⟨0, 1⟩
abbrev hlState_state : Fld := ⟨0, 3⟩
abbrev hlState_fecLock : Fld := ⟨3, 1⟩
abbrev hlState_peerHl : Fld := ⟨4, 6⟩
abbrev hlState_peerValid : Fld := ⟨10, 1⟩
abbrev hlState_peerNode : Fld := ⟨16, 12⟩
abbrev hlEvt_replay : Fld := ⟨0, 1⟩
abbrev hlEvt_retrain : Fld := ⟨1, 1⟩
abbrev hlEvt_fenced : Fld := ⟨2, 1⟩
abbrev hlEvt_proto : Fld := ⟨3, 1⟩
abbrev hlEvt_drop : Fld := ⟨4, 1⟩
abbrev hlEvt_replayOvf : Fld := ⟨8, 1⟩
abbrev hlEvt_corrOvf : Fld := ⟨9, 1⟩
abbrev hlEvt_uncorrOvf : Fld := ⟨10, 1⟩
abbrev hlEvt_retrainOvf : Fld := ⟨11, 1⟩
abbrev hlEvt_protoOvf : Fld := ⟨12, 1⟩
abbrev hlEvt_dropOvf : Fld := ⟨13, 1⟩
abbrev hlEvt_flitsWrap : Fld := ⟨14, 1⟩
abbrev dirCfg_root : Fld := ⟨0, 1⟩
abbrev dirCfg_enum : Fld := ⟨1, 1⟩
abbrev dirEnum_state : Fld := ⟨0, 2⟩
abbrev dirEnum_isroot : Fld := ⟨2, 1⟩
abbrev dirEnum_nodes : Fld := ⟨16, 13⟩
abbrev dirGrpReset_group : Fld := ⟨0, 8⟩
abbrev dirTokin_mib : Fld := ⟨0, 16⟩
abbrev dirRouteSel_node : Fld := ⟨0, 12⟩
abbrev dirRoute_link0 : Fld := ⟨0, 6⟩
abbrev dirRoute_link1 : Fld := ⟨6, 6⟩
abbrev dirRoute_link2 : Fld := ⟨12, 6⟩
abbrev dirRoute_link3 : Fld := ⟨18, 6⟩
abbrev dirRoute_nlinks : Fld := ⟨24, 3⟩
abbrev dirRoute_hops : Fld := ⟨27, 4⟩
abbrev dirEntries_used : Fld := ⟨0, 21⟩
abbrev dirEvt_cut : Fld := ⟨0, 1⟩
abbrev dirEvt_invOvf : Fld := ⟨8, 1⟩
abbrev dirEvt_coarseOvf : Fld := ⟨9, 1⟩
abbrev dirEvt_evictOvf : Fld := ⟨10, 1⟩
abbrev dirEvt_cutOvf : Fld := ⟨11, 1⟩
abbrev dirEvt_lateOvf : Fld := ⟨12, 1⟩
abbrev dirEvt_tokncOvf : Fld := ⟨13, 1⟩
abbrev dirEvt_toklostOvf : Fld := ⟨14, 1⟩
abbrev dirEvt_clampOvf : Fld := ⟨15, 1⟩
abbrev dirCutInfo_valid : Fld := ⟨0, 1⟩
abbrev dirCutInfo_node : Fld := ⟨16, 12⟩
abbrev oryxCtrl_en : Fld := ⟨0, 1⟩
abbrev oryxStatus_active : Fld := ⟨0, 1⟩
abbrev oryxStatus_inService : Fld := ⟨1, 1⟩
abbrev oryxStatus_slots : Fld := ⟨2, 7⟩
abbrev oryxStatus_ctxId : Fld := ⟨16, 12⟩
abbrev oryxStatus_part : Fld := ⟨28, 4⟩
abbrev oryxEvt_skip : Fld := ⟨0, 1⟩
abbrev oryxEvt_err : Fld := ⟨1, 1⟩
abbrev oryxEvt_passOvf : Fld := ⟨2, 1⟩
abbrev oryxEvt_skipOvf : Fld := ⟨3, 1⟩
abbrev oryxEvt_errOvf : Fld := ⟨4, 1⟩
abbrev oryxEvt_wrap : Fld := ⟨5, 1⟩
abbrev srchColl_count : Fld := ⟨0, 11⟩
abbrev srchEvt_skip : Fld := ⟨0, 1⟩
abbrev srchEvt_clampOvf : Fld := ⟨1, 1⟩
abbrev srchEvt_skipOvf : Fld := ⟨2, 1⟩
abbrev srchCompactCtrl_en : Fld := ⟨0, 1⟩
abbrev srchCompactCtrl_tomb : Fld := ⟨8, 8⟩
abbrev srchCollSel_coll : Fld := ⟨0, 10⟩
abbrev srchGenHi_genHi : Fld := ⟨0, 16⟩
abbrev srchCollState_exists : Fld := ⟨0, 1⟩
abbrev srchCollState_readOnly : Fld := ⟨1, 1⟩
abbrev srchCollState_compacting : Fld := ⟨2, 1⟩
abbrev srchCollState_views : Fld := ⟨4, 4⟩
abbrev srchCollState_jobs : Fld := ⟨16, 16⟩
abbrev srchSelEvt_compactFail : Fld := ⟨0, 1⟩
abbrev srchSelEvt_readOnly : Fld := ⟨1, 1⟩
abbrev srchSelEvt_reselOvf : Fld := ⟨2, 1⟩
abbrev srchSelEvt_compactOvf : Fld := ⟨3, 1⟩
abbrev fchCtrl_en : Fld := ⟨0, 1⟩
abbrev fchCtrl_suspEn : Fld := ⟨1, 1⟩
abbrev fchStatus_dies : Fld := ⟨0, 4⟩
abbrev fchStatus_ready : Fld := ⟨4, 1⟩
abbrev fchStatus_failed : Fld := ⟨8, 12⟩
abbrev fchSusp_minRun : Fld := ⟨0, 8⟩
abbrev fchSusp_hold : Fld := ⟨8, 8⟩
abbrev fchSusp_maxSusp : Fld := ⟨16, 5⟩
abbrev fchEvt_unc : Fld := ⟨0, 1⟩
abbrev fchEvt_pfail : Fld := ⟨1, 1⟩
abbrev fchEvt_diefail : Fld := ⟨2, 1⟩
abbrev fchEvt_clampOvf : Fld := ⟨8, 1⟩
abbrev fchEvt_retryOvf : Fld := ⟨9, 1⟩
abbrev fchEvt_softOvf : Fld := ⟨10, 1⟩
abbrev fchEvt_uncOvf : Fld := ⟨11, 1⟩
abbrev fchEvt_refuseOvf : Fld := ⟨12, 1⟩
abbrev fchEvt_suspOvf : Fld := ⟨13, 1⟩
abbrev fchEvt_pfailOvf : Fld := ⟨14, 1⟩
abbrev fchDie_state : Fld := ⟨0, 2⟩
abbrev fchDie_lastGood : Fld := ⟨2, 4⟩
abbrev fchDie_susp : Fld := ⟨8, 5⟩
abbrev fchRaww_target : Fld := ⟨0, 4⟩
abbrev fchRaww_block : Fld := ⟨4, 12⟩
abbrev fchRaww_valid : Fld := ⟨31, 1⟩
abbrev fchQCfg_depth : Fld := ⟨0, 4⟩
abbrev fchQCfg_prio : Fld := ⟨4, 2⟩
abbrev fchQCfg_weight : Fld := ⟨8, 8⟩
abbrev fchQCfg_en : Fld := ⟨16, 1⟩
abbrev fchQCfg_part : Fld := ⟨20, 4⟩
abbrev fchQCfg_rawEn : Fld := ⟨24, 1⟩
abbrev fchQSqt_tail : Fld := ⟨0, 10⟩
abbrev fchQSqh_head : Fld := ⟨0, 10⟩
abbrev fchQCqh_head : Fld := ⟨0, 10⟩
abbrev fchQCqt_tail : Fld := ⟨0, 10⟩
abbrev fchQCtrl_reset : Fld := ⟨0, 1⟩
abbrev fchQCtrl_stalled : Fld := ⟨8, 1⟩
abbrev pressStatus_run : Fld := ⟨0, 1⟩
abbrev pressStatus_fenced : Fld := ⟨1, 1⟩
abbrev ftlState_ready : Fld := ⟨0, 1⟩
abbrev ftlState_retired : Fld := ⟨1, 1⟩
abbrev ftlState_wt : Fld := ⟨2, 1⟩
abbrev ftlState_fg : Fld := ⟨3, 1⟩
abbrev ftlState_bg : Fld := ⟨4, 1⟩
abbrev ftlState_rebuild : Fld := ⟨5, 1⟩
abbrev ftlSbFree_f : Fld := ⟨0, 17⟩
abbrev ftlSbGood_g : Fld := ⟨0, 17⟩
abbrev ftlSbNeed_need : Fld := ⟨0, 17⟩
abbrev ftlGcLim0_crit : Fld := ⟨0, 12⟩
abbrev ftlGcLim0_low : Fld := ⟨16, 12⟩
abbrev ftlGcLim1_high : Fld := ⟨0, 12⟩
abbrev ftlGcLim1_idleMs : Fld := ⟨16, 12⟩
abbrev ftlHeat_promote : Fld := ⟨0, 4⟩
abbrev ftlHeat_decayS : Fld := ⟨4, 12⟩
abbrev ftlHoldup_mj : Fld := ⟨0, 16⟩
abbrev ftlHoldup_wt : Fld := ⟨16, 1⟩
abbrev ftlErase_max : Fld := ⟨0, 16⟩
abbrev ftlErase_avg : Fld := ⟨16, 16⟩
abbrev ftlEvt_retired : Fld := ⟨0, 1⟩
abbrev ftlEvt_wt : Fld := ⟨1, 1⟩
abbrev ftlEvt_poison : Fld := ⟨2, 1⟩
abbrev ftlEvt_rebuild : Fld := ⟨3, 1⟩
abbrev ftlEvt_flushLoss : Fld := ⟨4, 1⟩
abbrev ftlEvt_promoteFull : Fld := ⟨5, 1⟩
abbrev ftlEvt_gcOvf : Fld := ⟨8, 1⟩
abbrev ftlEvt_poisonOvf : Fld := ⟨9, 1⟩
abbrev ftlEvt_promoteOvf : Fld := ⟨10, 1⟩
abbrev ftlEvt_flushOvf : Fld := ⟨11, 1⟩
abbrev ftlEvt_wrap : Fld := ⟨12, 1⟩
abbrev wbcStatus_admit : Fld := ⟨0, 1⟩
abbrev wbcStatus_flushing : Fld := ⟨1, 1⟩
abbrev wbcStatus_dirty : Fld := ⟨16, 14⟩
abbrev wbcCtrl_drain : Fld := ⟨0, 1⟩
abbrev wbcCtrl_hiwat : Fld := ⟨8, 8⟩
abbrev wbcEvt_throttle : Fld := ⟨0, 1⟩
abbrev wbcEvt_hitOvf : Fld := ⟨1, 1⟩
abbrev wbcEvt_thrOvf : Fld := ⟨2, 1⟩
abbrev wbcLastFlush_time : Fld := ⟨0, 16⟩
abbrev wbcLastFlush_complete : Fld := ⟨16, 1⟩
abbrev wbcLastFlush_power : Fld := ⟨17, 1⟩
abbrev hostPortcfg_mode : Fld := ⟨0, 2⟩
abbrev hostPortcfg_next : Fld := ⟨4, 2⟩
abbrev hostRights_parts : Fld := ⟨0, 16⟩
abbrev hostRights_admin : Fld := ⟨16, 1⟩
abbrev hostLink_speed : Fld := ⟨0, 4⟩
abbrev hostLink_width : Fld := ⟨4, 5⟩
abbrev hostLink_flit : Fld := ⟨9, 1⟩
abbrev hostLink_up : Fld := ⟨10, 1⟩
abbrev hostLink_ps : Fld := ⟨12, 3⟩
abbrev hostEvt_linkdown : Fld := ⟨0, 1⟩
abbrev hostEvt_denied : Fld := ⟨1, 1⟩
abbrev hostEvt_aborted : Fld := ⟨2, 1⟩
abbrev hostEvt_cmdWrap : Fld := ⟨8, 1⟩
abbrev hostEvt_ordOvf : Fld := ⟨9, 1⟩
abbrev hostEvt_abortOvf : Fld := ⟨10, 1⟩
abbrev hostEvt_denyOvf : Fld := ⟨11, 1⟩
abbrev hostEvt_clampOvf : Fld := ⟨12, 1⟩
abbrev fltCtrl_irqEn : Fld := ⟨0, 1⟩
abbrev fltStatus_dieFenced : Fld := ⟨0, 1⟩
abbrev fltStatus_devFatal : Fld := ⟨1, 1⟩
abbrev fltStatus_pinFault : Fld := ⟨2, 1⟩
abbrev fltStatus_selftestDone : Fld := ⟨3, 1⟩
abbrev fltEvt_corr : Fld := ⟨0, 1⟩
abbrev fltEvt_cont : Fld := ⟨1, 1⟩
abbrev fltEvt_fatal : Fld := ⟨2, 1⟩
abbrev fltEvt_esc : Fld := ⟨3, 1⟩
abbrev fltEvt_corrOvf : Fld := ⟨8, 1⟩
abbrev fltEvt_contOvf : Fld := ⟨9, 1⟩
abbrev fltEvt_fatalOvf : Fld := ⟨10, 1⟩
abbrev fltEvt_escOvf : Fld := ⟨11, 1⟩
abbrev fltEvt_ringOvf : Fld := ⟨12, 1⟩
abbrev fltRingHead_head : Fld := ⟨0, 8⟩
abbrev fltRingTail_tail : Fld := ⟨0, 8⟩
abbrev fltRingTahr_tahr : Fld := ⟨0, 8⟩
abbrev fltInj_unit : Fld := ⟨0, 16⟩
abbrev fltInj_kind : Fld := ⟨16, 2⟩
abbrev fltInj_arm : Fld := ⟨18, 1⟩
abbrev fltCapInfo_valid : Fld := ⟨0, 1⟩
abbrev fltCapInfo_esc : Fld := ⟨1, 1⟩
abbrev fltCapInfo_scope : Fld := ⟨2, 2⟩
abbrev fltCapInfo_access : Fld := ⟨4, 4⟩
abbrev fltCapInfo_cause : Fld := ⟨8, 6⟩
abbrev fltCapInfo_master : Fld := ⟨16, 16⟩
abbrev fltCapSrc_source : Fld := ⟨0, 16⟩
abbrev d2dStatus_modules : Fld := ⟨0, 5⟩
abbrev d2dStatus_built : Fld := ⟨8, 5⟩
abbrev d2dStatus_retraining : Fld := ⟨16, 1⟩
abbrev d2dEvt_replay : Fld := ⟨0, 1⟩
abbrev d2dEvt_retrain : Fld := ⟨1, 1⟩
abbrev d2dEvt_fence : Fld := ⟨2, 1⟩
abbrev d2dEvt_replayOvf : Fld := ⟨8, 1⟩
abbrev d2dEvt_retrainOvf : Fld := ⟨9, 1⟩
abbrev d2dFenced_mask : Fld := ⟨0, 16⟩
abbrev hbmcStatus_withdrawn : Fld := ⟨0, 1⟩
abbrev hbmcEvt_corr : Fld := ⟨0, 1⟩
abbrev hbmcEvt_unc : Fld := ⟨1, 1⟩
abbrev hbmcEvt_retFull : Fld := ⟨2, 1⟩
abbrev hbmcEvt_hit : Fld := ⟨3, 1⟩
abbrev hbmcEvt_corrOvf : Fld := ⟨8, 1⟩
abbrev hbmcEvt_uncOvf : Fld := ⟨9, 1⟩
abbrev hbmcEvt_ondieOvf : Fld := ⟨10, 1⟩
abbrev hbmcEvt_hitOvf : Fld := ⟨11, 1⟩
abbrev hbmcEvt_passOvf : Fld := ⟨12, 1⟩
abbrev hbmcScrub_hours : Fld := ⟨0, 8⟩
abbrev hbmcScrub_active : Fld := ⟨8, 1⟩
abbrev hbmcRetCmd_go : Fld := ⟨0, 1⟩
abbrev hbmcRetCmd_bank : Fld := ⟨1, 1⟩
abbrev hbmcRetCmd_status : Fld := ⟨8, 3⟩
abbrev hbmcRetUsed_pages : Fld := ⟨0, 10⟩
abbrev hbmcRetUsed_banks : Fld := ⟨16, 4⟩
abbrev lpcStatus_withdrawn : Fld := ⟨0, 1⟩
abbrev lpcEvt_corr : Fld := ⟨0, 1⟩
abbrev lpcEvt_unc : Fld := ⟨1, 1⟩
abbrev lpcEvt_retFull : Fld := ⟨2, 1⟩
abbrev lpcEvt_hit : Fld := ⟨3, 1⟩
abbrev lpcEvt_corrOvf : Fld := ⟨8, 1⟩
abbrev lpcEvt_uncOvf : Fld := ⟨9, 1⟩
abbrev lpcEvt_ondieOvf : Fld := ⟨10, 1⟩
abbrev lpcEvt_hitOvf : Fld := ⟨11, 1⟩
abbrev lpcEvt_passOvf : Fld := ⟨12, 1⟩
abbrev lpcScrub_hours : Fld := ⟨0, 8⟩
abbrev lpcScrub_active : Fld := ⟨8, 1⟩
abbrev lpcRetCmd_go : Fld := ⟨0, 1⟩
abbrev lpcRetCmd_bank : Fld := ⟨1, 1⟩
abbrev lpcRetCmd_status : Fld := ⟨8, 3⟩
abbrev lpcRetUsed_pages : Fld := ⟨0, 10⟩
abbrev lpcRetUsed_banks : Fld := ⟨16, 4⟩
abbrev secLc_state : Fld := ⟨0, 3⟩
abbrev secLc_owner : Fld := ⟨3, 1⟩
abbrev secLc_diagOpen : Fld := ⟨4, 1⟩
abbrev secSvn_fused : Fld := ⟨0, 7⟩
abbrev secSvn_image : Fld := ⟨8, 7⟩
abbrev secSvn_slot : Fld := ⟨16, 1⟩
abbrev secKeys_valid : Fld := ⟨0, 8⟩
abbrev secKeys_opal : Fld := ⟨8, 1⟩
abbrev secEvt_auth : Fld := ⟨0, 1⟩
abbrev secEvt_key : Fld := ⟨1, 1⟩
abbrev secEvt_authOvf : Fld := ⟨2, 1⟩
abbrev tahrStatus_ready : Fld := ⟨0, 1⟩
abbrev tahrStatus_defaulted : Fld := ⟨1, 1⟩
abbrev tahrStatus_saving : Fld := ⟨2, 1⟩
abbrev tahrStatus_setFmt : Fld := ⟨16, 16⟩
abbrev tahrSetCtrl_save : Fld := ⟨0, 1⟩
abbrev tahrLogCnt_entries : Fld := ⟨0, 17⟩
abbrev tahrEvt_warn : Fld := ⟨0, 1⟩
abbrev tahrEvt_crit : Fld := ⟨1, 1⟩
abbrev tahrEvt_logWrap : Fld := ⟨2, 1⟩
abbrev tahrTempLim_warn : Fld := ⟨0, 12⟩
abbrev tahrTempLim_crit : Fld := ⟨16, 12⟩
abbrev tahrTemp_temp : Fld := ⟨0, 12⟩
abbrev tahrTemp_valid : Fld := ⟨15, 1⟩
abbrev tahrMon_mv : Fld := ⟨0, 16⟩
abbrev tahrMon_curr : Fld := ⟨16, 16⟩
abbrev pwrCap_w : Fld := ⟨0, 9⟩
abbrev pwrStatus_inForce : Fld := ⟨0, 9⟩
abbrev pwrStatus_limit : Fld := ⟨9, 2⟩
abbrev pwrStatus_atFloor : Fld := ⟨11, 1⟩
abbrev pwrStatus_mainGood : Fld := ⟨12, 1⟩
abbrev pwrStatus_holdup : Fld := ⟨13, 1⟩
abbrev pwrStatus_vcoreMv : Fld := ⟨16, 12⟩
abbrev pwrCtrl_reset : Fld := ⟨0, 1⟩
abbrev pwrCause_cold : Fld := ⟨0, 1⟩
abbrev pwrCause_mainPower : Fld := ⟨1, 1⟩
abbrev pwrCause_resetPin : Fld := ⟨2, 1⟩
abbrev pwrCause_nssr : Fld := ⟨3, 1⟩
abbrev pwrCause_software : Fld := ⟨4, 1⟩
abbrev pwrCause_watchdog : Fld := ⟨5, 1⟩
abbrev pwrCause_lifecycle : Fld := ⟨6, 1⟩
abbrev pwrCause_fwActivate : Fld := ⟨7, 1⟩
abbrev pwrEvt_throttle : Fld := ⟨0, 1⟩
abbrev pwrEvt_floor : Fld := ⟨1, 1⟩
abbrev pwrEvt_trip : Fld := ⟨2, 1⟩
abbrev pwrEvt_loss : Fld := ⟨3, 1⟩
abbrev pwrEvt_throttleOvf : Fld := ⟨8, 1⟩
abbrev pwrEvt_lossOvf : Fld := ⟨9, 1⟩
abbrev pwrEvt_clampOvf : Fld := ⟨10, 1⟩
end F

end Sys2Proof.Machine
end

