-- ==== Sys2Proof/Machine/StCompute.lean ====
section
/-! DEFINITION. The state of the compute complex: contexts, their transfers and pending work, Kudu cores and their arrays
(chapters 04, 06, 08 and 09). -/
namespace Sys2Proof.Machine

/-- Where a context is (Table 09-2); FREE is the absence of the context from the table. -/
inductive CtxSt where
  | running | residentRunnable | residentBlocked | savedRunnable | savedBlocked | replyWait | ending
  deriving DecidableEq, Repr

/-- PART_CTX_STATE.STATE of a context (Table 09-2). -/
def CtxSt.code : CtxSt → Nat
  | .running => 1 | .residentRunnable => 2 | .residentBlocked => 3 | .savedRunnable => 4 | .savedBlocked => 5
  | .replyWait => 6 | .ending => 7

/-- What a context waits for. -/
inductive Wait where
  /-- nothing -/
  | none
  /-- SYN.WAIT: event entry ev at least v (R131) -/
  | event (ev v : Nat)
  /-- SYN.WAITM and SYN.BAR: the word at addr compares true with v (R131, R132) -/
  | word (addr : W64) (cmp : Nat) (v : W64)
  /-- FAB.RECV_TOKENS that has not completed (R225, R307): its instruction word, the tokens gathered, the round it gathers -/
  | tokens (w : W64) (n : Nat) (rd : Option Nat)
  /-- SYN.TASK waits under R92 -/
  | boundary
  /-- the task was aborted: its cancelled requests are awaited, then it restarts or the context ends (R211 steps 4 to 6) -/
  | restart
  /-- held at a remote access of one word: its Herd tag and the address of the next instruction (R225: the context stays
  RUNNING) -/
  | remote (tag : Nat) (next : W64)
  deriving DecidableEq, Repr

/-- A tensor as an instruction reads it at issue (R88, R121): base address, format, extents, byte strides, scale use. -/
structure Tensor where
  base : W64
  fmt : Fmt
  d0 : Nat
  d1 : Nat
  d2 : Nat
  d3 : Nat
  s1 : Int
  s2 : Int
  s3 : Int
  smode : Nat
  sidx : Nat
  hint : Nat
  rank : Nat
  odd0 : Bool
  deriving DecidableEq, Repr

/-- The instructions that stream (Table 08-1). -/
inductive XKind where
  | ld | st | pf | put | send | reply
  deriving DecidableEq, Repr

/-- What the token sends of a transfer share (R303): the group (none: no header names a placed expert), the round, the group's
data units; whether the round's CLOSE messages have gone. -/
structure TokSend where
  group : Option Nat
  round : Nat
  units : Nat
  closed : Bool
  deriving DecidableEq, Repr
/-- What a transfer that sends no tokens has in its place. -/
def TokSend.none : TokSend := ⟨.none, 0, 0, true⟩

/-- A stream transfer from its issue to its completion (R197 to R205). -/
structure Xfer where
  id : Nat
  eng : Nat
  kind : XKind
  src : Tensor
  dst : Tensor
  m0 : Nat
  m1 : Nat
  m2 : Nat
  m3 : Nat
  rate : Nat
  ss : Nat
  hasSs : Bool
  ev : Nat
  eve : Bool
  total : Nat
  granted : Nat
  landed : Nat
  t0 : Option Nat
  g : Nat
  late : Bool
  clamped : Bool
  /-- an invalid scratch page has been read (R212) -/
  inv : Bool
  /-- a reply of another node carried CLAMPED (R76) -/
  rcl : Bool
  rindSrc : Bool
  status : Nat
  noabort : Bool
  /-- FAB.PUT: address of the word that gets 1 added (R143) -/
  notify : Option W64
  pc : W64
  /-- the bytes of a source of registers, read at issue -/
  snap : List Byte
  /-- bytes that have landed and wait for the rest of their word, Rind block or token column, by place in the transfer (R101, R213) -/
  held : Tab Byte
  /-- bytes of the source that were read with their word or block before their own beat landed (R101, R105) -/
  seen : Tab Byte
  /-- tokens that the status word counts -/
  toks : Nat
  tok : TokSend
  deriving DecidableEq, Repr

/-- A beat in flight: its transfer and the bytes it carries (R198, R202). -/
structure Beat where
  ctx : Nat
  eng : Nat
  xid : Nat
  lo : Nat
  n : Nat
  /-- the data that replies from another node have brought so far: place in the transfer and bytes -/
  got : List (Nat × List Byte)
  /-- a reply carried POISON -/
  bad : Bool
  /-- Herd tags of the requests that serve it, for a beat of another node -/
  tags : List Nat
  deriving DecidableEq, Repr

/-- One byte to be written: allotment offset and value; or a nibble of it. -/
structure SWrite where
  addr : Nat
  val : Byte
  mask : Byte
  deriving DecidableEq, Repr

/-- An MM.MAC in progress (R154, R158, R167). -/
structure MmJob where
  /-- its output tiles in the order in which they complete: the array of each, and its results -/
  tiles : List (Nat × List SWrite)
  /-- the tiles already written -/
  done : Nat
  /-- the reduction tiles of each, one pass a tile -/
  kt : Nat
  mode : Nat
  /-- by array, the steps with a pass in flight and those that it waits between passes, where nothing disturbs it -/
  work : List (Nat × Nat)
  /-- the bytes that the core's stream engines had moved when it began -/
  seAt : Nat
  /-- a stop has cut it short -/
  again : Bool
  deriving DecidableEq, Repr

/-- The architected state of a context (Table 04-1), as a restart point records it (R92). -/
structure Arch where
  sreg : Tab W64
  pred : Tab Bool
  td : Tab (List W64)
  winBase : Nat
  winLen : Nat
  ev : Tab Nat
  pc : W64
  deriving DecidableEq, Repr

/-- A reply slot of a saved context (Table 09-3 step 2): the Herd tag it waits for, what it serves, what it caught. -/
structure Slot where
  tag : Nat
  scalar : Bool
  eng : Nat
  xid : Nat
  lo : Nat
  got : Option (List Byte)
  timedOut : Bool
  deriving DecidableEq, Repr

/-- An asynchronous instruction that holds no stream engine: the register places it will write at its completion (R124, R125). -/
structure Async where
  id : Nat
  ss : Nat
  sd : Nat
  hasSs : Bool
  hasSd : Bool
  ev : Nat
  eve : Bool
  deriving DecidableEq, Repr

/-- The launch descriptor's parts that a context keeps (Table 04-5), and the header's (Table 04-4). -/
structure Launch where
  code : W64
  compl : W64
  codeLo : W64
  codeHi : W64
  entry : W64
  clampTrap : Bool
  retryLimit : Nat
  notify : W64
  deriving DecidableEq, Repr

/-- A context (Table 04-1, R99, R111, R225 to R238). -/
structure Ctx where
  part : Nat
  st : CtxSt
  arch : Arch
  restart : Arch
  launch : Launch
  wait : Wait
  share : Nat
  /-- the weight that the next slice end puts in force (Table 09-5g) -/
  shareNext : Nat
  core : Nat
  ran : Bool
  base : Nat
  allot : Nat
  clamps : Nat
  clampOvf : Bool
  firstClamp : Option W64
  flags : Nat
  eventOvf : Bool
  retries : Nat
  restarts : Nat
  restarted : Bool
  endStatus : Option Nat
  xfers : List Xfer
  asyncs : List Async
  mm : Option MmJob
  live : List Nat
  invalid : List Nat
  dirty : List Nat
  image : List Host.Cell
  /-- what the save area holds of scratch pages, and the pages that it holds as they stand (R238) -/
  ckpt : List Host.Cell
  ckptPages : List Nat
  winSave : Tab (W32 × W32)
  slots : List Slot
  /-- beats in flight when it left its core (Table 09-3 step 4) -/
  beats : List Beat
  fenced : Bool
  /-- poisoned words of the saved image, by allotment offset (R457) -/
  bad : List Nat
  /-- the save area's object (R229) -/
  saveObj : Nat
  /-- the object that holds its code, pinned while it runs (R243) -/
  codeObj : Option Nat
  /-- the NVMe command that its completion answers: port, queue, command identifier -/
  host : Option (Nat × Nat × Nat)
  acc : Tab Nat
  wraps : Nat
  accAt : Tab Nat
  windows : List Nat
  blockedAt : Nat
  serial : Nat
  /-- PART_CFG.SCR_CKPT as the last task boundary found it (R238, Table 09-5b) -/
  ckptOn : Bool
  /-- the entries of its scale window as the restart point holds them (R87, R92) -/
  restartWin : Tab (W32 × W32)
  /-- in REPLY_WAIT: its wait is over, or it had none (R226) -/
  woke : Bool
  /-- its completion record is being written (R99) -/
  posting : Bool
  /-- accounts as the last switch or slice end brought them up to date (R228) -/
  accShown : Tab Nat
  deriving DecidableEq, Repr

/-- One matrix array's activity (R163 to R165). -/
structure Arr where
  /-- present density in sixty-fourths -/
  density : Nat
  /-- a gap is open -/
  gap : Bool
  /-- 0 steady, 1 ramping down, 2 ramping up -/
  ramp : Nat
  /-- THRESH and RAMP with which the gap began -/
  thresh : Nat
  rampUs : Nat
  dummyEn : Bool
  /-- context charged for dummy steps (none when it no longer exists) -/
  owner : Option Nat
  deriving DecidableEq, Repr

/-- An array at reset: idle. -/
def Arr.reset : Arr := ⟨0, true, 0, 0, 0, true, none⟩

/-- A Kudu core (R197 to R205, R225). -/
structure Core where
  /-- resident contexts, most recently run first -/
  resident : List Nat
  /-- the context placed on the core: running, or blocked since it last ran -/
  cur : Option Nat
  inflight : List Beat
  step : Nat
  waited : Tab Nat
  arrs : Tab Arr
  stopping : Bool
  deriving DecidableEq, Repr

/-- A core at reset. -/
def Core.reset : Core := ⟨[], none, [], 0, [], [], false⟩

/-- A launch descriptor in a partition's queue: its address's content, who submitted it, the clamps it made (R223). -/
structure LaunchReq where
  words : List W64
  /-- clamps already made of the descriptor's fields (Note 1 of Table 04-5) -/
  clamps : Nat
  /-- the NVMe command a host launch answers: port, queue, command identifier -/
  host : Option (Nat × Nat × Nat)
  /-- the Chamois core that submitted it, for a launch that is not the host's -/
  core : Nat
  deriving DecidableEq, Repr

/-- A completion record on its way (R99): words 1 to 3, then word 0, then the NOTIFY add, each after the one before is performed. -/
structure Post where
  compl : W64
  words : List W64
  notify : Option W64
  /-- 0: words 1 to 3 come next; 1: word 0; 2: the host's answer, and the context's number is free; 3: the NOTIFY add; 4: over -/
  phase : Nat
  ctx : Option Nat
  /-- the answer to the host's command: port, queue, command identifier; status, flags, result word -/
  answer : Option ((Nat × Nat × Nat) × Nat × Nat × W32)
  deriving DecidableEq, Repr

end Sys2Proof.Machine
end

