-- ==== Sys2Proof/Machine/StTier.lean ====
section
/-! DEFINITION. The state of the memory tiers: objects, moves, forwards, waiting allocations, the neighbour window
(chapter 10). -/
namespace Sys2Proof.Machine

/-- Who asked for something and is answered when it ends. -/
inductive Asker where
  /-- nobody -/
  | none
  /-- a Chamois core's command block at an address (R245, R313) -/
  | block (core : Nat) (addr : W64)
  /-- an NVMe command: port, submission queue, command identifier (R437) -/
  | nvme (port sq cid : Nat)
  /-- an asynchronous instruction of a context: context, operation number -/
  | ctx (c id : Nat)
  deriving DecidableEq, Repr

/-- A block of a Rind object whose encoding the device did not make: its index entry and payload (R262). -/
structure RindBlk where
  entry : W64
  payload : List Byte
  /-- it is malformed and has been counted (R263) -/
  seen : Bool
  deriving DecidableEq, Repr

/-- A move in progress (Table 10-4): where to, and whom its end answers. -/
structure MoveJob where
  tier : Nat
  base : Nat
  demotion : Bool
  /-- FREEs during the move: abandon it at its next step (R251); each with its flag byte -/
  abandon : List (Asker × Nat)
  who : Asker
  /-- the flag byte of its answer -/
  fl : Nat
  /-- moves of the same object that start after this one's publish (R251): target tier, asker and flag byte -/
  next : List (Nat × Asker × Nat)
  deriving DecidableEq, Repr

/-- What an object is for: objects of a partition, and those the run-time makes (R243, R255). -/
inductive ObjKind where
  | plain | save | code | index | segment | lent
  deriving DecidableEq, Repr

/-- An object (Table 10-2). -/
structure Obj where
  part : Nat
  kind : ObjKind
  tier : Nat
  base : Nat
  size : Nat
  hint : Nat
  pins : Nat
  /-- pins that cannot be removed (R243) -/
  fixedPins : Nat
  rind : Bool
  fmt : Nat
  locator : W64
  touch : Nat
  lost : Bool
  enc : Tab RindBlk
  move : Option MoveJob
  /-- the object that holds its Rind index (R258) -/
  idx : Option Nat
  deriving DecidableEq, Repr

/-- A forward (R249): the old range, the object it stands for, and what its rebase point still waits for. -/
structure Forward where
  part : Nat
  obj : Nat
  tier : Nat
  base : Nat
  size : Nat
  /-- bytes of the object's old index, behind the old range -/
  ix : Nat
  /-- what it charges to its owner (R253) -/
  cost : Nat
  demotion : Bool
  ctxs : List Nat
  needAck : Bool
  hostCmds : List (Nat × Nat × Nat)
  late : Bool
  deriving DecidableEq, Repr

/-- An allocation that waits for room in a pool (R254). -/
structure AllocWait where
  tier : Nat
  die : Nat
  size : Nat
  part : Nat
  /-- the creation to finish: command block words -/
  words : List W64
  /-- some o: a move of object o; none: a creation -/
  moving : Option Nat
  demotion : Bool
  who : Asker
  /-- the flag byte of its answer -/
  fl : Nat
  /-- moves of the same object that follow (R251), as in a move -/
  next : List (Nat × Asker × Nat)
  deriving DecidableEq, Repr

/-- A mapped segment of the neighbour window (R255). -/
structure Seg where
  node : Nat
  tier : Nat
  offset : Nat
  /-- its lender has recalled it (R256) -/
  leaving : Bool
  /-- its lender can be reached no longer (R257) -/
  gone : Bool
  /-- nodes that have been asked to lend in its place (R256) -/
  asked : List Nat
  deriving DecidableEq, Repr

/-- The state of the memory tiers. -/
structure TierSt where
  objs : Tab Obj
  forwards : Tab Forward
  waits : Tab AllocWait
  segs : Tab Seg
  nextId : Nat
  /-- the run-time has loaded its settings (Table 10-8b) -/
  loaded : Bool
  deriving DecidableEq, Repr

/-- The tiers at reset. -/
def TierSt.reset : TierSt := ⟨[], [], [], [], 0, false⟩

end Sys2Proof.Machine
end

