-- ==== Sys2Proof/Machine/StHerd.lean ====
section
/-! DEFINITION. The state of the Herd fabric: links, messages, outstanding requests, the home-node directory, cached
remote lines, enumeration and expert routing (chapter 11). -/
namespace Sys2Proof.Machine

/-- A message (Table 11-4); its data is len units of 16 bytes. -/
structure Msg where
  opc : Nat
  dst : Nat
  src : Nat
  tag : Nat
  poison : Bool
  clamped : Bool
  addr : W64
  data : List Byte
  deriving DecidableEq, Repr

/-- A DATA flit in a replay buffer: its sequence number and payload bytes (R271). -/
structure TxFlit where
  seq : Nat
  payload : List Byte
  deriving DecidableEq, Repr

/-- A Herd link beyond its registers (R271 to R277, R286 to R289). -/
structure Link where
  /-- flits sent and not yet acknowledged, oldest first -/
  replay : List TxFlit
  /-- SEQ of the next new flit -/
  txSeq : Nat
  /-- flits of the buffer that are to be sent again, from its head -/
  resend : Nat
  /-- SEQ of the last flit accepted in order -/
  rxSeq : Nat
  /-- a NAK has been sent and no later flit accepted -/
  nakOut : Bool
  /-- a NAK waits to be sent -/
  nakDue : Bool
  /-- bytes of a message that spans into the next flit -/
  rxPart : List Byte
  /-- messages received and not yet handled, oldest first -/
  rx : List Msg
  /-- messages waiting to be sent, oldest first, with the partition that sent each (none: transit or the device itself) -/
  tx : List (Option Nat × Msg)
  /-- bytes of a message that spans into the next flit sent -/
  txPart : List Byte
  /-- credits of each channel at the next hop, in 64-byte units -/
  credits : Tab Nat
  /-- credits to return to the sender -/
  owed : Tab Nat
  /-- weighted round robin: units granted to each class in the present round (R284) -/
  grants : Tab Nat
  /-- retrains failed in a row -/
  fails : Nat
  /-- times of the replay sequences and of the uncorrectable codewords of the last millisecond (R276) -/
  replays : List Nat
  uncorrs : List Nat
  /-- from the far end's HELLO -/
  peerSerial : W64
  peerRoot : Option W64
  peerAssigned : Bool
  /-- a signal is present on the lanes -/
  signal : Bool
  /-- the last flit put on the lanes -/
  wire : List Byte
  deriving DecidableEq, Repr

/-- The receive buffers of Table 11-2 in 64-byte units: what a link may send before any credit returns. -/
def vcCredits : Tab Nat := [(0, 1024), (1, 2048), (2, 256), (3, 4096), (4, 64)]

/-- A link at reset. -/
def Link.reset : Link :=
  ⟨[], 0, 0, 4095, false, false, [], [], [], [], vcCredits, [], [], 0, [], [], 0#64, none, false, false, []⟩

/-- What an outstanding request will do with its reply. -/
inductive OutKind where
  /-- a scalar load of a context: register, width in bytes, byte offset in the reply -/
  | load (c sd width off : Nat)
  /-- a store of a context, and its instruction's address -/
  | store (c : Nat) (pc : W64)
  /-- an atomic of a context: its instruction word, and whether its issue was clamped -/
  | amo (c : Nat) (w : W64) (cl : Bool)
  /-- part of a descriptor load of a context: descriptor, byte offset in the reply, first word and number of words -/
  | tdld (c td off w n : Nat)
  /-- a word read of SYN.WAITM (the line is re-read when it is invalidated), with the instruction's address where it is the read that
  the instruction itself makes -/
  | poll (c off : Nat) (pc : Option W64)
  /-- the atomic add of SYN.BAR: the instruction word -/
  | bar (c : Nat) (w : W64)
  /-- part of a stream beat: context, transfer, first byte of the transfer, count, byte offset in the reply -/
  | beat (c xid lo n off : Nat)
  /-- a store part of a stream beat -/
  | beatSt (c xid : Nat)
  /-- the notify add of FAB.PUT -/
  | putNotify (c xid : Nat)
  /-- the receipts of a token send that have not come: they time out together (log 38) -/
  | receipts (c id : Nat)
  /-- a Chamois line fill: core, line address, true for ownership -/
  | chamLine (n : Nat) (own : Bool)
  /-- an uncached read of a Chamois core: core, byte offset in the reply, bytes -/
  | chamRd (n off w : Nat)
  /-- an uncached write of a Chamois core -/
  | chamSt (n : Nat)
  /-- an atomic of a Chamois core on a word that no cache may hold: core, operation, width, place in the 8-byte word, operand,
  and what the word is expected to hold when the new value is sent as a compare and swap (none: it is being read) -/
  | chamAmo (n f w lo : Nat) (v : W64) (old : Option Nat)
  /-- a write back of an evicted owned line -/
  | wb
  /-- LEND_REQ for the neighbour window: segment number -/
  | lend (seg : Nat)
  /-- LEND_FREE of a segment -/
  | lendFree
  /-- a RECALL sent as a lender: object index -/
  | recall (obj : Nat)
  /-- a request of a context that has been cancelled: the context waits for its reply or its timeout, and discards it -/
  | cancelled (c : Nat)
  /-- a write or add of a completion record on its way -/
  | post (id : Nat)
  /-- a line read for a purpose of a context, or of no context (R101, R323): its data are kept for it -/
  | fetch (c : Option Nat) (k : Nat)
  /-- an access by the device's own movers or the host: nothing waits for it -/
  | other
  deriving DecidableEq, Repr

/-- An outstanding request (R280). -/
structure OutReq where
  node : Nat
  addr : W64
  kind : OutKind
  deriving DecidableEq, Repr

/-- A request that waits at a directory entry (R292). -/
structure DirWait where
  msg : Msg
  link : Nat
  deriving DecidableEq, Repr

/-- A directory entry (Table 11-8) with the replies the home waits for. -/
structure DirEnt where
  /-- 1 shared, 2 owned (an uncached line has no entry) -/
  st : Nat
  coarse : Bool
  nodes : List Nat
  groups : List Nat
  loc : Nat
  busy : Bool
  /-- nodes whose INV_ACK or FWD_DATA is awaited -/
  await : List Nat
  /-- the request being served, if it is a message -/
  serving : Option DirWait
  /-- requests behind it -/
  queue : List DirWait
  /-- the entry is being evicted (R291) -/
  evicting : Bool
  used : Nat
  /-- the line has been set to 0 meanwhile: what its owner still sends back is older (R244) -/
  drop : Bool
  deriving DecidableEq, Repr

/-- An SNP message sent and not yet answered (R296). -/
structure Snp where
  tag : Nat
  node : Nat
  line : Nat
  opc : Nat
  resent : Bool
  deriving DecidableEq, Repr

/-- A cached line of another node (R290, R297): state 1 shared, 2 owned. -/
structure CLine where
  st : Nat
  data : List Byte
  dirty : Bool
  deriving DecidableEq, Repr

/-- A token that a context of this node has sent (R306, R308): 0 awaits its receipt, 1 accepted. -/
structure TokOut where
  ctx : Nat
  send : Nat
  token : Nat
  expert : Nat
  node : Nat
  round : Nat
  bytes : Nat
  st : Nat
  deriving DecidableEq, Repr

/-- A token at its home (R304, R307, R308). -/
structure TokIn where
  group : Nat
  round : Nat
  expert : Nat
  src : Nat
  ctx : Nat
  token : Nat
  replica : Nat
  data : List Byte
  poison : Bool
  gathered : Bool
  deriving DecidableEq, Repr

/-- A round of a group at this home (R305). -/
structure Round where
  group : Nat
  round : Nat
  closes : Nat
  closed : Bool
  /-- tokens that arrived for each replica of an expert (4 times the expert plus the replica) and were accepted -/
  taken : Tab Nat
  deriving DecidableEq, Repr

/-- A context's token inbox (R306): its object, the bytes reserved, the returns not yet gathered. -/
structure Inbox where
  obj : Nat
  size : Nat
  used : Nat
  /-- return header (16 bytes) and data of each token returned, the data bytes reserved for it, and whether its data is poisoned -/
  back : List (List Byte × List Byte × Nat × Bool)
  deriving DecidableEq, Repr

/-- A bound expert replica (R307): its partition and its inbox object. -/
structure Bound where
  part : Nat
  obj : Nat
  room : Nat
  deriving DecidableEq, Repr

/-- A device of the domain as the root knows it (R287). -/
structure Member where
  serial : W64
  pref : Option Nat
  id : Option Nat
  /-- the links from the root to it, one a hop -/
  path : List Nat
  /-- its links with their far-end serials -/
  adj : List (Nat × W64)
  deriving DecidableEq, Repr

/-- A route table entry (R281). -/
structure Route where
  links : List Nat
  hops : Nat
  deriving DecidableEq, Repr

/-- A line of another node that an input of a job, a change, a launch or a command block was read from (log 43): of which context, for what. -/
structure Fetched where
  ctx : Option Nat
  use : Nat
  addr : W64
  data : List Byte
  deriving DecidableEq, Repr

/-- The state of the Herd fabric. -/
structure HerdSt where
  links : Tab Link
  outs : Tab OutReq
  guarded : List Nat
  routes : Tab Route
  dir : Tab DirEnt
  snps : List Snp
  cut : List Nat
  /-- nodes and TAGs of forwards that a WB has answered: their FWD_DATA with LEN 0 is still to come (R295) -/
  raced : List (Nat × Nat)
  /-- accesses of Chamois cores that a fence of the core waits for: core and TAG (R107, R283) -/
  fences : List (Nat × Nat)
  fetched : List Fetched
  cache : Tab CLine
  tokOut : List TokOut
  tokIn : List TokIn
  rounds : List Round
  /-- round counter of (context, group): key context × 256 + group (R303) -/
  roundCtr : Tab Nat
  inboxes : Tab Inbox
  bound : Tab Bound
  /-- enumeration: devices known, IDs retired, probes outstanding with tries left -/
  members : List Member
  retired : List Nat
  probes : Tab Nat
  rootSerial : Option W64
  /-- the links from this device back to the root, from the last message of the root -/
  rootPath : List Nat
  /-- the root's routes have come whole -/
  routed : Bool
  /-- lent objects: object index to borrower node -/
  lentTo : Tab Nat
  lru : Nat
  deriving DecidableEq, Repr

/-- The fabric at reset. -/
def HerdSt.reset : HerdSt :=
  ⟨[], [], [], [], [], [], [], [], [], [], [], [], [], [], [], [], [], [], [], [], none, [], false, [], 0⟩

end Sys2Proof.Machine
end

