-- ==== Sys2Proof/Machine/StOperand.lean ====
section
/-! DEFINITION. Operand types of the commands. -/
namespace Sys2Proof.Machine

/-- A Chamois access (R22, R107): a load, a store, one of the atomics of codes 0 to 8 of Table 05-12, the load-reserved and
store-conditional pair, and the forms of Table 04-8 that order: a fence, the pair with aq or rl, an atomic with aq, rl or both. -/
inductive MemOp where
  | load | store
  | amo (f : Fin 9)
  | lr | sc
  | fence
  | lrAq | scRl
  | amoOrd (f : Fin 9) (aq rl : Bool)
  deriving DecidableEq, Repr

/-- A load-reserved. -/
def MemOp.isLr : MemOp → Bool
  | .lr | .lrAq => true
  | _ => false
/-- Neither a plain load nor a plain store: it must be aligned. -/
def MemOp.atomic : MemOp → Bool
  | .load | .store | .fence => false
  | _ => true
/-- A form that acts as an acquire (Table 04-8). -/
def MemOp.acquires : MemOp → Bool
  | .lrAq => true
  | .amoOrd _ aq _ => aq
  | _ => false
/-- A form that acts as a release (Table 04-8). -/
def MemOp.releases : MemOp → Bool
  | .scRl => true
  | .amoOrd _ _ rl => rl
  | _ => false

/-- What the die and the decoder gave for one code word of a read (R373): the highest level run (3: failed at level 2),
the retry step that succeeded, the bit errors corrected. -/
structure CwRes where
  level : Fin 4
  step : Fin 16
  bits : Fin 256
  deriving DecidableEq, Repr

end Sys2Proof.Machine
end

