-- ==== Sys2Proof/Machine/StBus.lean ====
section
/-! DEFINITION. The state of the register bus, the dual-clock queues, the die-to-die links and the fault logic
(chapters 01, 02, 03 and 17). -/
namespace Sys2Proof.Machine

/-- A requester of a register or memory access (R83, Table 03-6f). -/
inductive Req where
  /-- an ITNUM context -/
  | ctx (c : Nat)
  /-- a Chamois core -/
  | cham (n : Nat)
  /-- another node -/
  | remote (node : Nat)
  /-- a host port -/
  | host (port : Nat)
  /-- a host port on behalf of a partition, as a Chamois core of the partition would act (R437) -/
  | hostFor (port part : Nat)
  /-- a Press core, a tier mover or the Tahr subsystem: its unit KIND and instance (Table 17-8) -/
  | unit (kind inst : Nat)
  deriving DecidableEq, Repr

/-- A dual-clock queue (R52 to R61): entries written and not read, the two pointers, the number of entries that the last
handshake discarded and reported, the entry that the reader took last, and whether a side has been reset and the handshake
has not been completed since: the queue is then empty to its reader and full to its writer (R59). -/
structure Dcq where
  items : List (List Byte)
  wr : Nat
  rd : Nat
  lost : Nat
  out : List Byte
  down : Bool
  deriving DecidableEq, Repr

/-- A queue after reset: empty. -/
def Dcq.reset : Dcq := ⟨[], 0, 0, 0, [], false⟩

/-- A module of a die-to-die link (R31): retraining or not, retrainings failed in a row, the times of its replays within the
last millisecond, and whether there have been more than 16 of them within one. -/
structure D2dMod where
  retraining : Bool
  fails : Nat
  replays : List Nat
  due : Bool
  deriving DecidableEq, Repr

/-- A module at reset. -/
def D2dMod.reset : D2dMod := ⟨false, 0, [], false⟩

/-- A flit in a sender's replay buffer (R30, R33): the module that carries it, its virtual channel, its 250 bytes of payload. -/
structure D2dFlit where
  mdl : Nat
  vc : Nat
  payload : List Byte
  deriving DecidableEq, Repr

/-- One direction of a die-to-die link (R28, R30): the place in order of the next flit to be accepted, whether a flit has been
refused whose replay is awaited, and the sender's replay buffer by place in order. -/
structure D2dDir where
  next : Nat
  refused : Bool
  replay : Tab D2dFlit
  deriving DecidableEq, Repr

/-- A direction at reset. -/
def D2dDir.reset : D2dDir := ⟨0, false, []⟩

/-- A fault log entry (Table 17-7). -/
structure LogEnt where
  w0 : W64
  w1 : W64
  w2 : W64
  w3 : W64
  deriving DecidableEq, Repr

/-- A fault as a checker reports it (R462, R466). -/
structure FaultReq where
  /-- 0 corrected, 1 contained, 2 fatal -/
  cls : Nat
  cause : Nat
  master : Nat
  source : Nat
  access : Nat
  addr : W64
  detail : Nat
  selftest : Bool
  inj : Bool
  /-- the scope of a raw fatal fault where Table 17-5 gives one that is not its master's -/
  scope : Option Nat
  deriving DecidableEq, Repr

/-- A retirement of a page or bank of a memory controller (R480, R485). -/
structure Retired where
  ctrl : Nat
  bank : Bool
  old : Nat
  spare : Nat
  deriving DecidableEq, Repr

/-- The state of the fault logic beyond its registers. -/
structure FltSt where
  /-- ring entries: key block × 256 + index (R470) -/
  ring : Tab LogEnt
  /-- entries not yet consumed by the run-time and by the Tahr subsystem, by block (R471) -/
  unTail : Tab Nat
  unTahr : Tab Nat
  seq : Tab Nat
  /-- blocks whose contained capture slot holds an exempt fault (R468) -/
  exempt : Tab Bool
  /-- reports of the present command, not yet taken -/
  raised : List FaultReq
  /-- code words of tiers 0 to 2 that are poisoned (R457): their lowest addresses -/
  poison : Tab Bool
  /-- unit IDs that are fenced (R37) -/
  fenced : List Nat
  /-- retirements and withheld spares (R480 to R482) -/
  retired : List Retired
  withheld : List Retired
  /-- retirement copies in progress -/
  retiring : List Retired
  deriving DecidableEq, Repr

/-- The fault logic at reset. -/
def FltSt.reset : FltSt := ⟨[], [], [], [], [], [], [], [], [], [], []⟩

end Sys2Proof.Machine
end

