-- ==== Sys2Proof/Machine/StFlash.lean ====
section
/-! DEFINITION. The state of the flash array, its channel controllers and the flash translation layer (chapters 14 and 15). -/
namespace Sys2Proof.Machine

/-- Bytes by offset: offsets rise strictly, a byte that is not listed is 0. -/
abbrev Cells := List Host.Cell

/-- A stored code word (R357): its data and side bytes in the clear, the key slot, key generation and tweak under which
the inline AES engine enciphered the data, and whether it can be read (R386). -/
structure CodeWord where
  data : Cells
  side : Cells
  enc : Option (Nat × Nat × Nat)
  lost : Bool
  deriving DecidableEq, Repr

/-- A plane-block as its controller knows it (R358, R369, R383): mode SLC, write pointer, bad mark. -/
structure PBlk where
  slc : Bool
  wp : Nat
  bad : Bool
  deriving DecidableEq, Repr

/-- A plane-block after the controller's reset (R385). -/
def PBlk.reset : PBlk := ⟨false, 0x1FFF, false⟩

/-- A descriptor fetched and not completed: its queue and its eight words after clamping, and the clamps made. -/
structure FDesc where
  q : Nat
  words : List W64
  clamped : Bool
  deriving DecidableEq, Repr

/-- A die's operation in progress. -/
structure DieOp where
  desc : FDesc
  /-- 1 read, 2 program, 3 erase -/
  kind : Nat
  suspended : Bool
  deriving DecidableEq, Repr

/-- A flash die (R373, R379, R384). -/
structure DieSt where
  op : Option DieOp
  /-- an erase that is suspended, or that a suspend has been requested of -/
  erase : Option DieOp
  /-- a suspend is requested -/
  suspReq : Bool
  /-- the erase is suspended -/
  susp : Bool
  /-- time at which the erase began, resumed or was suspended -/
  at' : Nat
  ran : Nat
  suspCnt : Nat
  failed : Bool
  lastGood : Nat
  /-- FCH_SUSP as it stood when the erase began (a change takes effect at the next erase) -/
  suspCfg : W32
  deriving DecidableEq, Repr

/-- A die after reset: idle. -/
def DieSt.reset : DieSt := ⟨none, none, false, false, 0, 0, 0, false, 0, 0#32⟩

/-- A channel controller beyond its registers (R361 to R363). -/
structure FchSt where
  /-- fetched descriptors not started, by queue, oldest first -/
  waiting : Tab (List FDesc)
  /-- completion entries reserved for started descriptors or not yet freed by the owner, by queue -/
  reserved : Tab Nat
  /-- PHASE of the next completion entry, by queue (default 1) -/
  phase : Tab Bool
  dies : Tab DieSt
  /-- deficit round robin: the queue whose turn it is and the descriptors it has had, by class -/
  turn : Tab (Nat × Nat)
  deriving DecidableEq, Repr

/-- A channel controller after reset. -/
def FchSt.reset : FchSt := ⟨[], [], [], [], []⟩

/-- The flash array. -/
structure FlashSt where
  /-- code words that hold data: key ((die × 4 + plane) × 2,542 + block) × 6,144 + index -/
  words : Tab CodeWord
  /-- plane-blocks: key (die × 4 + plane) × 2,542 + block -/
  blocks : Tab PBlk
  fch : Tab FchSt
  /-- the grown-defect map (R382): key as blocks -/
  grown : Tab Nat
  /-- the factory bad-block tables (R381): key as blocks -/
  factory : Tab Bool
  /-- write-buffer memory as descriptors of KIND 1 address it (R24, R365), and its poisoned 4 KiB slots (R376) -/
  wbuf : List Host.Cell
  wbPoison : List Nat
  /-- what the channels have handed to their Oryx engines, by pass tag, in order (R36, R369); none is a failed code word -/
  oryxIn : List (W64 × Option (List Byte))
  deriving DecidableEq, Repr

/-- The flash array as it leaves manufacture. -/
def FlashSt.reset : FlashSt := ⟨[], [], [], [], [], [], [], []⟩

/-- A version of a logical block: its data, its host metadata, and whether the block is POISONED (R401). -/
structure LVer where
  data : Cells
  side : Cells
  poisoned : Bool
  deriving DecidableEq, Repr

/-- A slot of the write buffer: the newest version of its block, when it became dirty (R402, R404), and whether the
version is a deallocation (R443). -/
structure WSlot where
  ver : LVer
  at' : Nat
  trim : Bool
  deriving DecidableEq, Repr

/-- A version in flash and the superblock that holds it. -/
structure FVer where
  ver : LVer
  sb : Nat
  deriving DecidableEq, Repr

/-- What a superblock is used for. -/
inductive SbUse where
  | free | open' | closed | reclaiming | flush | journal | mapStore | system | retired
  deriving DecidableEq, Repr

/-- A superblock (R393 to R397): use, mode SLC, wear, code words written, a member that has failed. -/
structure Sb where
  use : SbUse
  slc : Bool
  wear : Nat
  used : Nat
  failed : Bool
  deriving DecidableEq, Repr

/-- A superblock never used. -/
def Sb.fresh : Sb := ⟨.free, false, 0, 0, false⟩

/-- A 64 KiB unit of the map (R398, R399): fine or coarse, HEAT, blocks written by users since its last flush. -/
structure MapUnit where
  fine : Bool
  heat : Nat
  written : List Nat
  deriving DecidableEq, Repr

/-- Journal records (R410). -/
inductive JKind where
  | map | trim | gcCommit | eraseIntent | eraseDone | openSb | retire | poison | publish
  deriving DecidableEq, Repr

/-- A journal record: kind, sequence number, what it names. -/
structure JRec where
  kind : JKind
  seq : Nat
  arg : Nat
  deriving DecidableEq, Repr

/-- What a hold-up flush wrote (Table 15-5). -/
structure FlushRec where
  slots : Tab WSlot
  tail : List JRec
  closed : Bool
  power : Bool
  time : Nat
  deriving DecidableEq, Repr

/-- A user write that waits for admission (R404, R408): its block, the bytes it writes, whom its end answers. -/
structure AdmWait where
  blk : Nat
  data : Cells
  mask : List (Nat × Nat)
  side : Option Cells
  trim : Bool
  poison : Bool
  who : Asker
  deriving DecidableEq, Repr

/-- The flash translation layer and the write buffer. -/
structure FtlSt where
  slots : Tab WSlot
  /-- slots restored from the flush region and not yet written to QLC -/
  restored : List Nat
  flash : Tab FVer
  units : Tab MapUnit
  /-- packed entries (R400): logical block to sector count -/
  packed : Tab Nat
  sbs : Tab Sb
  credit : Nat
  waits : List AdmWait
  lastWrite : Nat
  gcIdle : Bool
  tail : List JRec
  seq : Nat
  regionSeq : Nat
  intents : List Nat
  /-- the reclaim in progress: victim, foreground, valid blocks that it held -/
  victim : Option (Nat × Bool × Nat)
  flushRec : Option FlushRec
  flushLoss : Bool
  /-- admission is open -/
  admOpen : Bool
  ready : Bool
  retired : Bool
  g0 : Nat
  /-- dies that have failed (R396) -/
  failedDies : List Nat
  poisonCount : Nat
  /-- FTL_GC_LIM0, FTL_GC_LIM1 and FTL_HEAT as they are in effect: a change takes effect at the next reclaim -/
  lim0 : W32
  lim1 : W32
  heatCfg : W32
  /-- plane-blocks that have failed as members of a superblock and are not replaced; replaced ones with their donors (R395) -/
  badMembers : List Nat
  donated : List (Nat × Nat)
  /-- the flush region that the last recovery read: erased once its slots are written (Table 15-6 step 7) -/
  oldFlush : List Nat
  deriving DecidableEq, Repr

/-- The superblocks in use when the device leaves manufacture (Table 15-1): 24 flush, 32 journal, 40 map store, 3 system,
taken in the order of R397. -/
def sbFactory : Tab Sb :=
  (List.range 99).map (fun i => (i, ⟨if i < 24 then .flush else if i < 56 then .journal else if i < 96 then .mapStore else .system,
    i < 24 || i < 56 && false, 0, 0, false⟩))

/-- The translation layer of a device that has never stored anything. -/
def FtlSt.reset : FtlSt :=
  ⟨[], [], [], [], [], sbFactory, 0, [], 0, false, [], 0, 0, [], none, none, false, false, false, false, 121968, [], 0, 0x02000040#32, 0x00640400#32, 0x3C3#32, [], [], []⟩

end Sys2Proof.Machine
end

