-- ==== Sys2Proof/Machine/StHost.lean ====
section
/-! DEFINITION. The state of the host interface: ports, controllers, queues, namespaces, program slots (chapter 16). -/
namespace Sys2Proof.Machine

/-- An NVMe command as a controller holds it. -/
structure NvmeCmd where
  sq : Nat
  cid : Nat
  nsid : Nat
  d10 : W32
  d11 : W32
  d12 : W32
  d13 : W32
  d14 : W32
  d15 : W32
  data : List Byte
  deriving DecidableEq, Repr

/-- What kind of outstanding command it is, which decides what an abort does (R444). -/
inductive OutCmd where
  | write | read | search | execute | held | other
  deriving DecidableEq, Repr

/-- An outstanding command: started or held by ORDERED (R440), and what else it still waits for. -/
structure Outst where
  cmd : NvmeCmd
  kind : OutCmd
  ordered : Bool
  started : Bool
  /-- the context an Execute Program launched -/
  ctx : Option Nat
  /-- the job a search issued -/
  job : Option Nat
  /-- 1: aborted by Abort; 2: by the deletion of its queue -/
  flags : Nat
  /-- the flag byte of its completion, as far as its start has set it -/
  marks : Nat
  deriving DecidableEq, Repr

/-- A completion posted, with the data that the command wrote to host memory. -/
structure Cpl where
  sq : Nat
  cid : Nat
  sct : Nat
  sc : Nat
  dw0 : W32
  dw1 : W32
  data : List Byte
  deriving DecidableEq, Repr

/-- An I/O queue: entries, and for a submission queue its completion queue. -/
structure IoQ where
  size : Nat
  cq : Nat
  prio : Nat
  deriving DecidableEq, Repr

/-- An NVMe controller (R425, R428, R446 to R451). -/
structure Ctrl where
  en : Bool
  rdy : Bool
  cfs : Bool
  /-- 0 normal, 1 occurring, 2 complete -/
  shst : Nat
  sqs : Tab IoQ
  cqs : Tab IoQ
  outst : List Outst
  cpls : List Cpl
  /-- feature values and saved values by feature identifier -/
  feats : Tab W32
  saved : Tab W32
  apstTab : List W64
  aers : List Nat
  events : List W32
  masked : List Nat
  errCnt : Nat
  errLog : List (List Byte)
  changed : List Nat
  ps : Nat
  lastOp : Nat
  idleAt : Nat
  mediaErrs : Nat
  /-- Timestamp in ms less the time-stamp in ms -/
  tsBase : Int
  d3 : Bool
  /-- the MSI-X vector count is in BAR0; BAR0 base and command register of the function -/
  cfg : Tab W32
  deriving DecidableEq, Repr

/-- A controller after a controller reset. -/
def Ctrl.reset : Ctrl :=
  ⟨false, false, false, 0, [], [], [], [], [], [], [], [], [], [], 0, [], [], 0, 0, 0, 0, 0, false, []⟩

/-- A namespace (R429): logical block extents in LBA order, format, controllers attached. -/
structure Ns where
  size : Nat
  lbaf : Nat
  extents : List (Nat × Nat)
  attached : List Nat
  deriving DecidableEq, Repr

/-- An Opal non-global locking range (R501). -/
structure LockRange where
  nsid : Nat
  start : Nat
  len : Nat
  rlock : Bool
  wlock : Bool
  onReset : Bool
  deriving DecidableEq, Repr

/-- A program slot (R439): bytes loaded, active. -/
structure Prog where
  size : Nat
  active : Bool
  deriving DecidableEq, Repr

/-- A PCIe cable connector (R421, R534, R540): PERST#, when it deasserted, its cable-present contact closed. -/
structure Port where
  perst : Bool
  perstAt : Nat
  cable : Bool
  deriving DecidableEq, Repr

/-- A connector at reset: PERST# asserted, cable-present contact closed. -/
def Port.reset : Port := ⟨true, 0, true⟩

/-- The state of the host interface. -/
structure HostSt where
  ctrls : Tab Ctrl
  /-- connectors A (0) and B (1) -/
  ports : Tab Port
  nss : Tab Ns
  progs : Tab Prog
  /-- memory range sets (R432) -/
  ranges : Tab (List Byte)
  /-- in-band NVMe-MI response waiting for Receive -/
  mi : List Byte
  /-- Security Receive data waiting -/
  sec : List Byte
  deriving DecidableEq, Repr

/-- The host interface at reset. -/
def HostSt.reset : HostSt := ⟨[], [], [], [], [], [], []⟩

end Sys2Proof.Machine
end

