-- ==== Sys2Proof/Machine/StTahr.lean ====
section
/-! DEFINITION. The state on the standby rail: the Tahr subsystem, the security block, the power sequencer and the records
in management flash (chapters 18 and 19). -/
namespace Sys2Proof.Machine

/-- A firmware image in a slot: its bytes and its length (R508). -/
structure Img where
  bytes : Cells
  size : Nat
  deriving DecidableEq, Repr

/-- A settings copy (R496): format, sequence, values by register offset and the other values of R495. -/
structure SetCopy where
  fmt : Nat
  seq : Nat
  vals : Tab W32
  deriving DecidableEq, Repr

/-- The path by which an update runs (R510). -/
inductive UpdPath where
  | nvme | pldm | fawn
  deriving DecidableEq, Repr

/-- A download in progress: its path, the bytes received so far. -/
structure Update where
  path : UpdPath
  bytes : Cells
  next : Nat
  deriving DecidableEq, Repr

/-- Why Fawn mode was entered and the mailbox (Table 18-11). -/
structure Fawn where
  reason : Nat
  addr : W64
  len : Nat
  off : Nat
  op : Nat
  status : Nat
  flags : Nat
  /-- bytes the last command wrote to the host -/
  out : List Byte
  deriving DecidableEq, Repr

/-- Opal state (R501): enabled, global range locks by namespace, non-global ranges. -/
structure Opal where
  enabled : Bool
  globals : Tab (Bool × Bool × Bool)
  ranges : Tab LockRange
  deriving DecidableEq, Repr

/-- SPDM responder state: 0 nothing, 1 version, 2 capabilities, 3 algorithms negotiated. -/
abbrev SpdmSt := Nat

/-- The state on the standby rail. -/
structure AonSt where
  /-- Tahr standby time in ns (R494) -/
  ns : Nat
  img1 : Option Img
  img2 : Option Img
  /-- the active slot: 1 or 2 -/
  active : Nat
  /-- the slot whose activation is pending -/
  pendAct : Option Nat
  /-- the slot that runs -/
  running : Option Nat
  update : Option Update
  copyA : Option SetCopy
  copyB : Option SetCopy
  /-- the values chosen at the last boot, which step 7 of start-up loads (R497, Table 19-4) -/
  setVals : Tab W32
  bootCnt : Nat
  retired : List Retired
  /-- media key slots that hold a key: the key's generation -/
  keys : Tab Nat
  keyGen : Nat
  ownerKey : Option (List Byte)
  idKey : Bool
  testKeys : Bool
  opal : Opal
  /-- life-cycle state (Table 18-6) and the DECOMMISSIONED fuse -/
  lc : Nat
  lcFuse : Bool
  /-- fused security version -/
  svn : Nat
  readyAt : Option Nat
  /-- the persistent log, newest first, and how many of its newest entries are not yet in flash -/
  log : List LogEnt
  uncommitted : Nat
  nonce : Option (List Byte × Nat)
  nonceSeq : Nat
  eid : Nat
  i3c : Option Nat
  spdm : SpdmSt
  /-- the last reply of the management port -/
  reply : List Byte
  /-- NVMe-MI configuration values: identifier × 256 + port -/
  miCfg : Tab W32
  vpd : Cells
  fawn : Option Fawn
  /-- the standby rail is up -/
  standby : Bool
  standbyAt : Nat
  charged : Bool
  /-- main rails in regulation; input in range -/
  mainGood : Bool
  inputGood : Bool
  holdup : Bool
  /-- step of start-up in progress: 0 not started, 1 to 8, 9 when NVMe ready is reached -/
  step : Nat
  /-- RESET_N is held low; the recovery strap is asserted -/
  resetLow : Bool
  recov : Bool
  pwrgd : Bool
  /-- levels of FLT_P and FLT_N -/
  fltP : Bool
  fltN : Bool
  /-- last ten samples of input power, newest first -/
  samples : List Nat
  thermCap : Nat
  warned : List Nat
  /-- cage modules: cage to power enabled -/
  cages : Tab Bool
  deriving DecidableEq, Repr

/-- The standby rail's state at a cold reset of a device that is fresh from manufacture and has no image (log 8). -/
def AonSt.reset : AonSt :=
  { ns := 0, img1 := none, img2 := none, active := 1, pendAct := none, running := none, update := none, copyA := none,
    copyB := none, setVals := [], bootCnt := 0, retired := [], keys := (List.range 145).map (fun k => (k, 0)), keyGen := 0, ownerKey := none, idKey := false, testKeys := true,
    opal := ⟨false, [], []⟩, lc := 0, lcFuse := false, svn := 0, readyAt := none, log := [], uncommitted := 0, nonce := none,
    nonceSeq := 0, eid := 0, i3c := none, spdm := 0, reply := [], miCfg := [], vpd := [], fawn := none, standby := true, standbyAt := 0,
    charged := false, mainGood := false, inputGood := true, holdup := false, step := 1, resetLow := false,
    recov := false, pwrgd := false, fltP := false, fltN := false, samples := [], thermCap := 450, warned := [], cages := [] }

end Sys2Proof.Machine
end

