-- ==== Sys2Proof/Machine/StSearch.lean ====
section
/-! DEFINITION. The state of vector search: collections, jobs, passes, selection states, partial lists (chapters 12 and 13). -/
namespace Sys2Proof.Machine

/-- A vector record of a collection (R316, R346): its codes, norm term, tags, its record generation, and the delete generation
of its tombstone. -/
structure VRec where
  id : Nat
  gen : Nat
  dead : Option Nat
  norm : Nat
  ttag : Nat
  attr : Nat
  codes : List Byte
  deriving DecidableEq, Repr

/-- A main segment, or the whey records of one append, with the object that holds it (0: none, for no records; else its index
plus 1); its records lie there one behind the other (log 42). -/
structure CSeg where
  obj : Nat
  whey : Bool
  recs : List VRec
  deriving DecidableEq, Repr

/-- A change that waits to be published (R347, R547). -/
inductive Change where
  | append (recs : List VRec)
  | delete (ids : List Nat)
  deriving DecidableEq, Repr

/-- An append or delete that waits for its publish: who is answered, with which flags. -/
structure PendChange where
  change : Change
  who : Asker
  flags : Nat
  /-- the address of the instruction that asks -/
  pc : W64
  deriving DecidableEq, Repr

/-- A compaction in progress (Table 13-3): g_cut, the segments chosen, the segment of copies. -/
structure Compact where
  cut : Nat
  chosen : List Nat
  new : Nat
  deriving DecidableEq, Repr

/-- A view (R352, R353): the first generation that it serves, its segments. -/
structure CView where
  start : Nat
  segs : List Nat
  deriving DecidableEq, Repr

/-- A collection (R312 to R315, R346 to R354). -/
structure Coll where
  part : Nat
  /-- COSINE -/
  cosine : Bool
  dim : Nat
  scales : List W32
  hshift : Int
  weights : List Nat
  home : Nat
  gen : Nat
  segs : Tab CSeg
  nextSeg : Nat
  /-- views alive, the current one last -/
  views : List CView
  compact : Option Compact
  /-- a compaction failed for lack of capacity and is to be tried again -/
  retry : Bool
  pend : List PendChange
  destroyed : Bool
  /-- the object made at its creation -/
  obj : Nat
  deriving DecidableEq, Repr

/-- A candidate (R339): key, ID, record generation. -/
structure Cand where
  key : Nat
  id : Nat
  gen : Nat
  deriving DecidableEq, Repr

/-- The selection state of a query in a part (R339), with the candidates that the scan has still to bring. -/
structure Sel where
  rest : List Cand
  cand : List Cand
  overs : List Cand
  theta : Nat
  tau : Nat
  deriving DecidableEq, Repr

/-- A partial list (R340): its entries, and t_p. -/
structure Part where
  ents : List Cand
  ties : Nat
  deriving DecidableEq, Repr

/-- A query of a job (R319, R325, R329). -/
structure Query where
  weights : List Int
  shift : Int
  /-- bits 3 to 5 of the header's flags (Table 12-7) -/
  flags : Nat
  ids : Option (List Nat)
  terms : List (Nat × Nat × Nat × Nat)
  parts : List Part
  scanned : Nat
  matched : Nat
  absent : Nat
  unread : Nat
  /-- the result, once merged: header words and entries -/
  done : Option (List Byte)
  deriving DecidableEq, Repr

/-- A pass of an engine (R327): its job, the first query, a selection state for each slot. -/
structure Pass where
  job : Nat
  q0 : Nat
  sels : List Sel
  /-- the steps that scoring its share takes (R327) -/
  steps : Nat
  deriving DecidableEq, Repr

/-- A search job (R323, R344, R353). -/
structure SJob where
  coll : Nat
  /-- the collection was there at the job's issue -/
  found : Bool
  part : Nat
  k : Nat
  dist : Nat
  path : Nat
  large : Bool
  /-- it scores only the IDs of a list (R325) -/
  rerank : Bool
  /-- a context's inputs: query tensor, filter block, ID list; none: the inputs stand below -/
  src : Option (Tensor × W64 × W64)
  raw : List (List W32)
  filt : List Byte
  idl : List Byte
  /-- where a context's results go, and the room there -/
  dst : Option W64
  room : Nat
  who : Asker
  pc : W64
  started : Bool
  gen : Nat
  view : Nat
  /-- channels with queries to scan: the next query (R327) -/
  chans : Tab Nat
  /-- channels whose share goes to the arrays (R326, R331) -/
  handed : List Nat
  queries : List Query
  /-- bit 0 Oryx, bit 1 arrays (Table 12-6) -/
  paths : Nat
  /-- the last Kudu core was missing (R548), a read failed (R331), an allocation failed (R344) -/
  noCore : Bool
  noQuota : Bool
  /-- k above 64: the candidate buffer in tier 1 and its objects (R344) -/
  big : Sel
  bufs : List Nat
  cancelled : Bool
  flags : Nat
  /-- its results to another node have been sent; their replies are awaited (R333) -/
  sent : Bool
  deriving DecidableEq, Repr

/-- The context of a job. -/
def SJob.ctx (j : SJob) : Option Nat := match j.who with | .ctx c _ => some c | _ => none

/-- The state of search. -/
structure SearchSt where
  colls : Tab Coll
  jobs : Tab SJob
  nextJob : Nat
  /-- passes running, by channel -/
  passes : Tab Pass
  deriving DecidableEq, Repr

/-- Search at reset. -/
def SearchSt.reset : SearchSt := ⟨[], [], 0, []⟩

/-- A collection of tier 3 as a reset leaves it (R350): at the last generation it published. -/
def Coll.onReset (c : Coll) : Coll :=
  let v := c.views.drop (c.views.length - 1)
  { c with pend := [], compact := none, retry := false, views := v, segs := c.segs.filter (fun s => v.any (fun w => w.segs.contains s.1)) }
/-- The objects of a collection: indices plus 1. -/
def Coll.objs (c : Coll) : List Nat := c.obj :: c.segs.map (·.2.obj)

end Sys2Proof.Machine
end

