-- ==== Sys2Proof/Syntax.lean ====
section
/-! DEFINITION. The commands of the block: one constructor for each row of the spec's table of operations and events, with
the operands that the rules of that row give it. An ITNUM row takes the context, the instruction word and its extension word
(0 where there is none); a message row takes the link it arrived on and the message; an NVMe row the port and the command. -/
namespace Sys2Proof

open Sys2Proof.Machine

/-- A command. Each constructor's rule is the one its row of the table cites. -/
inductive Instr where
  | registerWrite (r : Req) (a : BitVec 24) (n : Fin 4) (v : W64)  -- register write (R12)
  | registerHoleAccess (r : Req) (a : BitVec 24) (wr : Bool)  -- register hole access (R79)
  | chamois8bytePairAccess (k : Fin 32) (a : BitVec 24) (wr : Bool) (v : W64)  -- chamois 8byte pair access (R81)
  | pairLowWordRead (r : Req) (a : BitVec 24)  -- pair low word read (R82)
  | pairHighWordWrite (r : Req) (a : BitVec 24) (v : W32)  -- pair high word write (R82)
  | pairLowWordWrite (r : Req) (a : BitVec 24) (v : W32)  -- pair low word write (R82)
  | tempoWindowComplete (i : Fin 32) (rate : BitVec 12)  -- tempo window complete (R50)
  | tempoClrCount (r : Req) (i : Fin 32)  -- tempo clr count (R50)
  | tempoMinRead (r : Req) (i : Fin 32)  -- tempo min read (R66)
  | addrClampCntRead (r : Req) (j : Fin 19)  -- addr clamp cnt read (R66)
  | tsSkewCompare (d0 : BitVec 8) (d1 : BitVec 8)  -- ts skew compare (R63)
  | dcqWrite (q : Fin 17) (i : BitVec 8) (up : Bool) (e : List Byte)  -- dcq write (R54)
  | dcqRead (q : Fin 17) (i : BitVec 8) (up : Bool)  -- dcq read (R55)
  | clockStop (dom : Fin 10) (i : BitVec 8)  -- clock stop (R58)
  | clockRestart (dom : Fin 10) (i : BitVec 8)  -- clock restart (R58)
  | queueResync (q : Fin 17) (i : BitVec 8) (up : Bool) (wr : Bool) (rd : Bool)  -- queue resync (R59)
  | d2dFlitReceive (l : Fin 3) (up : Bool) (m : Fin 16) (sq : BitVec 16) (vc : BitVec 4) (good : Bool) (e : List Byte)  -- d2d flit receive (R30)
  | d2dModuleRetrain (l : Fin 3) (m : Fin 16) (lanes : Bool)  -- d2d module retrain (R31)
  | d2dRetrainComplete (l : Fin 3) (m : Fin 16) (good : Bool)  -- d2d retrain complete (R31)
  | chamoisMemoryAccess (k : Fin 32) (a : W64) (op : MemOp) (n : Fin 4) (v : W64)  -- chamois memory access (R35)
  | instructionFetchEnd (c : BitVec 12)  -- instruction fetch end (R97)
  | undefinedOpcode (c : BitVec 12) (w : W64) (x : W64)  -- undefined opcode (R119)
  | ctlNop (c : BitVec 12) (w : W64) (x : W64)  -- ctl nop (R129)
  | ctlEnd (c : BitVec 12) (w : W64) (x : W64)  -- ctl end (R129)
  | ctlBr (c : BitVec 12) (w : W64) (x : W64)  -- ctl br (R129)
  | ctlJr (c : BitVec 12) (w : W64) (x : W64)  -- ctl jr (R130)
  | ctlCall (c : BitVec 12) (w : W64) (x : W64)  -- ctl call (R129)
  | ctlCallr (c : BitVec 12) (w : W64) (x : W64)  -- ctl callr (R130)
  | ctlLoop (c : BitVec 12) (w : W64) (x : W64)  -- ctl loop (R129)
  | qryCap (c : BitVec 12) (w : W64) (x : W64)  -- qry cap (R109)
  | qrySelf (c : BitVec 12) (w : W64) (x : W64)  -- qry self (R110)
  | qryTime (c : BitVec 12) (w : W64) (x : W64)  -- qry time (R129)
  | qryEvent (c : BitVec 12) (w : W64) (x : W64)  -- qry event (R129)
  | synSignal (c : BitVec 12) (w : W64) (x : W64)  -- syn signal (R131)
  | synWait (c : BitVec 12) (w : W64) (x : W64)  -- syn wait (R131)
  | eventWaitSatisfied (c : BitVec 12)  -- event wait satisfied (R90)
  | synFence (c : BitVec 12) (w : W64) (x : W64)  -- syn fence (R104)
  | synTask (c : BitVec 12) (w : W64) (x : W64)  -- syn task (R92)
  | taskBoundaryRecord (c : BitVec 12)  -- task boundary record (R92)
  | synLda (c : BitVec 12) (w : W64) (x : W64)  -- syn lda (R131)
  | synStrel (c : BitVec 12) (w : W64) (x : W64)  -- syn strel (R131)
  | synWaitm (c : BitVec 12) (w : W64) (x : W64)  -- syn waitm (R132)
  | synBar (c : BitVec 12) (w : W64) (x : W64)  -- syn bar (R131)
  | waitmRecheck (c : BitVec 12)  -- waitm recheck (R298)
  | waitmPoll (c : BitVec 12)  -- waitm poll (R132)
  | vecAdd (c : BitVec 12) (w : W64) (x : W64)  -- vec add (R133)
  | vecSub (c : BitVec 12) (w : W64) (x : W64)  -- vec sub (R133)
  | vecMul (c : BitVec 12) (w : W64) (x : W64)  -- vec mul (R133)
  | vecDivu (c : BitVec 12) (w : W64) (x : W64)  -- vec divu (R133)
  | vecRemu (c : BitVec 12) (w : W64) (x : W64)  -- vec remu (R133)
  | vecAnd (c : BitVec 12) (w : W64) (x : W64)  -- vec and (R133)
  | vecOr (c : BitVec 12) (w : W64) (x : W64)  -- vec or (R133)
  | vecXor (c : BitVec 12) (w : W64) (x : W64)  -- vec xor (R133)
  | vecShl (c : BitVec 12) (w : W64) (x : W64)  -- vec shl (R133)
  | vecShr (c : BitVec 12) (w : W64) (x : W64)  -- vec shr (R133)
  | vecSar (c : BitVec 12) (w : W64) (x : W64)  -- vec sar (R133)
  | vecMin (c : BitVec 12) (w : W64) (x : W64)  -- vec min (R133)
  | vecMax (c : BitVec 12) (w : W64) (x : W64)  -- vec max (R133)
  | vecLi (c : BitVec 12) (w : W64) (x : W64)  -- vec li (R133)
  | vecCmpeq (c : BitVec 12) (w : W64) (x : W64)  -- vec cmpeq (R133)
  | vecCmplt (c : BitVec 12) (w : W64) (x : W64)  -- vec cmplt (R133)
  | vecCmpltu (c : BitVec 12) (w : W64) (x : W64)  -- vec cmpltu (R133)
  | vecPand (c : BitVec 12) (w : W64) (x : W64)  -- vec pand (R133)
  | vecPor (c : BitVec 12) (w : W64) (x : W64)  -- vec por (R133)
  | vecPnot (c : BitVec 12) (w : W64) (x : W64)  -- vec pnot (R133)
  | vecElt (c : BitVec 12) (w : W64) (x : W64)  -- vec elt (R134)
  | vecRed (c : BitVec 12) (w : W64) (x : W64)  -- vec red (R134)
  | vecSoftmax (c : BitVec 12) (w : W64) (x : W64)  -- vec softmax (R186)
  | vecRmsnorm (c : BitVec 12) (w : W64) (x : W64)  -- vec rmsnorm (R186)
  | vecGather (c : BitVec 12) (w : W64) (x : W64)  -- vec gather (R134)
  | vecScatter (c : BitVec 12) (w : W64) (x : W64)  -- vec scatter (R134)
  | mmMac (c : BitVec 12) (w : W64) (x : W64)  -- mm mac (R136)
  | mmMacComplete (c : BitVec 12)  -- mm mac complete (R158)
  | qntQ (c : BitVec 12) (w : W64) (x : W64)  -- qnt q (R189)
  | qntDq (c : BitVec 12) (w : W64) (x : W64)  -- qnt dq (R189)
  | qntSgrad (c : BitVec 12) (w : W64) (x : W64)  -- qnt sgrad (R193)
  | qntSld (c : BitVec 12) (w : W64) (x : W64)  -- qnt sld (R139)
  | qntSst (c : BitVec 12) (w : W64) (x : W64)  -- qnt sst (R139)
  | rotWht (c : BitVec 12) (w : W64) (x : W64)  -- rot wht (R194)
  | selHist (c : BitVec 12) (w : W64) (x : W64)  -- sel hist (R141)
  | selFilt (c : BitVec 12) (w : W64) (x : W64)  -- sel filt (R141)
  | selTopk (c : BitVec 12) (w : W64) (x : W64)  -- sel topk (R141)
  | selMerge (c : BitVec 12) (w : W64) (x : W64)  -- sel merge (R141)
  | selSort (c : BitVec 12) (w : W64) (x : W64)  -- sel sort (R141)
  | strLd (c : BitVec 12) (w : W64) (x : W64)  -- str ld (R142)
  | strSt (c : BitVec 12) (w : W64) (x : W64)  -- str st (R142)
  | strPf (c : BitVec 12) (w : W64) (x : W64)  -- str pf (R142)
  | strMove (c : BitVec 12) (w : W64) (x : W64)  -- str move (R251)
  | strLds (c : BitVec 12) (w : W64) (x : W64)  -- str lds (R142)
  | strSts (c : BitVec 12) (w : W64) (x : W64)  -- str sts (R142)
  | strLds4 (c : BitVec 12) (w : W64) (x : W64)  -- str lds4 (R142)
  | strSts4 (c : BitVec 12) (w : W64) (x : W64)  -- str sts4 (R142)
  | strTdld (c : BitVec 12) (w : W64) (x : W64)  -- str tdld (R142)
  | strTdst (c : BitVec 12) (w : W64) (x : W64)  -- str tdst (R142)
  | strTdw (c : BitVec 12) (w : W64) (x : W64)  -- str tdw (R142)
  | strTdr (c : BitVec 12) (w : W64) (x : W64)  -- str tdr (R142)
  | strTdadd (c : BitVec 12) (w : W64) (x : W64)  -- str tdadd (R142)
  | fabAmo (c : BitVec 12) (w : W64) (x : W64)  -- fab amo (R143)
  | fabPut (c : BitVec 12) (w : W64) (x : W64)  -- fab put (R143)
  | fabSendTokens (c : BitVec 12) (w : W64) (x : W64)  -- fab send tokens (R306)
  | fabRecvTokens (c : BitVec 12) (w : W64) (x : W64)  -- fab recv tokens (R307)
  | tokenGatherComplete (c : BitVec 12)  -- token gather complete (R307)
  | fabReplyTokens (c : BitVec 12) (w : W64) (x : W64)  -- fab reply tokens (R308)
  | scnQuery (c : BitVec 12) (w : W64) (x : W64)  -- scn query (R323)
  | scnRerank (c : BitVec 12) (w : W64) (x : W64)  -- scn rerank (R325)
  | scnAppend (c : BitVec 12) (w : W64) (x : W64)  -- scn append (R317)
  | scnDelete (c : BitVec 12) (w : W64) (x : W64)  -- scn delete (R348)
  | scnGen (c : BitVec 12) (w : W64) (x : W64)  -- scn gen (R349)
  | streamBeatGrant (k : Fin 64)  -- stream beat grant (R205)
  | streamBeatLand (k : Fin 64) (b : Fin 256)  -- stream beat land (R199)
  | streamTransferComplete (c : BitVec 12) (e : Fin 4)  -- stream transfer complete (R198)
  | taskAbort (c : BitVec 12) (cause : Fin 8) (e : Fin 4) (a : W64)  -- task abort (R211)
  | taskRestart (c : BitVec 12)  -- task restart (R211)
  | sePause (r : Req) (k : Fin 64) (e : Fin 4) (on : Bool)  -- se pause (R216)
  | arrayGapBegin (k : Fin 64) (m : Fin 4)  -- array gap begin (R163)
  | arrayRampDownStart (k : Fin 64) (m : Fin 4)  -- array ramp down start (R164)
  | arrayRampInterval (k : Fin 64) (m : Fin 4)  -- array ramp interval (R164)
  | arrayRampUp (k : Fin 64) (m : Fin 4)  -- array ramp up (R164)
  | kuduCoreStop (r : Req) (k : Fin 64)  -- kudu core stop (R167)
  | kuduCoreStopped (k : Fin 64)  -- kudu core stopped (R167)
  | kuduCoreRun (r : Req) (k : Fin 64)  -- kudu core run (R170)
  | kuduScaleWrite (r : Req) (k : Fin 64) (e : BitVec 12) (hi : Bool) (v : W32)  -- kudu scale write (R171)
  | launchSubmit (r : Req) (a : W64)  -- launch submit (R223)
  | launchDequeue (p : Fin 16)  -- launch dequeue (R224)
  | completionRecordWrite (c : BitVec 12)  -- completion record write (R99)
  | partKuduOwnWrite (r : Req) (k : Fin 64) (v : W32)  -- part kudu own write (R221)
  | kuduOwnerApply (k : Fin 64)  -- kudu owner apply (R221)
  | partChamOwnWrite (r : Req) (k : Fin 32) (v : W32)  -- part cham own write (R221)
  | partCfgWrite (r : Req) (p : Fin 16) (v : W32)  -- part cfg write (R219)
  | partOryxWrite (r : Req) (p : Fin 16) (v : W32)  -- part oryx write (R220)
  | sliceEnd (p : Fin 16)  -- slice end (R230)
  | contextSwitch (k : Fin 64) (c : BitVec 12)  -- context switch (R227)
  | coreSteal (k : Fin 64)  -- core steal (R232)
  | allBlockedSwap (k : Fin 64)  -- all blocked swap (R233)
  | preempt (c : BitVec 12)  -- preempt (R234)
  | capturedReplyLand (c : BitVec 12) (i : BitVec 9) (good : Bool) (e : List Byte)  -- captured reply land (R234)
  | contextRestore (k : Fin 64) (c : BitVec 12)  -- context restore (R235)
  | contextEndRequest (r : Req) (c : BitVec 12)  -- context end request (R236)
  | contextClearClamp (r : Req) (c : BitVec 12)  -- context clear clamp (R111)
  | fencedContextRestart (c : BitVec 12)  -- fenced context restart (R237)
  | chamHalt (r : Req) (k : Fin 32) (on : Bool)  -- cham halt (R240)
  | chamTrap (r : Req) (k : Fin 32)  -- cham trap (R240)
  | ocmdCreate (k : Fin 32) (a : W64)  -- ocmd create (R246)
  | ocmdFree (k : Fin 32) (a : W64)  -- ocmd free (R245)
  | ocmdMove (k : Fin 32) (a : W64)  -- ocmd move (R247)
  | ocmdPin (k : Fin 32) (a : W64)  -- ocmd pin (R245)
  | ocmdUnpin (k : Fin 32) (a : W64)  -- ocmd unpin (R245)
  | ocmdRebaseAck (k : Fin 32) (a : W64)  -- ocmd rebase ack (R249)
  | ocmdQuery (k : Fin 32) (a : W64)  -- ocmd query (R245)
  | objectMovePublish (o : BitVec 18)  -- object move publish (R247)
  | forwardRetire (f : BitVec 32)  -- forward retire (R249)
  | forwardLate (f : BitVec 32)  -- forward late (R249)
  | poolDemote (j : Fin 4)  -- pool demote (R254)
  | allocWaitExpire (f : BitVec 32)  -- alloc wait expire (R254)
  | herdFlitReceive (h : Fin 36) (e : List Byte)  -- herd flit receive (R271)
  | herdNakReceive (h : Fin 36) (ack : BitVec 12)  -- herd nak receive (R271)
  | herdNakRepeat (h : Fin 36)  -- herd nak repeat (R271)
  | herdLinkTransmit (h : Fin 36)  -- herd link transmit (R284)
  | hlSignalDetect (h : Fin 36)  -- hl signal detect (R275)
  | hlTrainingComplete (h : Fin 36)  -- hl training complete (R275)
  | hlTrainingTimeout (h : Fin 36)  -- hl training timeout (R275)
  | hlTrainingRetry (h : Fin 36)  -- hl training retry (R275)
  | hlRetrainEnter (h : Fin 36) (lost : Bool)  -- hl retrain enter (R276)
  | hlRetrainComplete (h : Fin 36)  -- hl retrain complete (R277)
  | hlRetrainTimeout (h : Fin 36)  -- hl retrain timeout (R276)
  | hlDisable (r : Req) (h : Fin 36) (on : Bool)  -- hl disable (R309)
  | rd (h : Fin 36) (m : Msg)  -- rd (R279)
  | rdShared (h : Fin 36) (m : Msg)  -- rd shared (R293)
  | rdOwn (h : Fin 36) (m : Msg)  -- rd own (R293)
  | upgrade (h : Fin 36) (m : Msg)  -- upgrade (R295)
  | wr (h : Fin 36) (m : Msg)  -- wr (R293)
  | wrp (h : Fin 36) (m : Msg)  -- wrp (R279)
  | wb (h : Fin 36) (m : Msg)  -- wb (R292)
  | amo (h : Fin 36) (m : Msg)  -- amo (R279)
  | evict (h : Fin 36) (m : Msg)  -- evict (R293)
  | lendReq (h : Fin 36) (m : Msg)  -- lend req (R299)
  | lendFree (h : Fin 36) (m : Msg)  -- lend free (R299)
  | recall (h : Fin 36) (m : Msg)  -- recall (R256)
  | data (h : Fin 36) (m : Msg)  -- data (R280)
  | dataS (h : Fin 36) (m : Msg)  -- data s (R279)
  | dataE (h : Fin 36) (m : Msg)  -- data e (R279)
  | ack (h : Fin 36) (m : Msg)  -- ack (R279)
  | ackE (h : Fin 36) (m : Msg)  -- ack e (R279)
  | invAck (h : Fin 36) (m : Msg)  -- inv ack (R293)
  | fwdData (h : Fin 36) (m : Msg)  -- fwd data (R295)
  | receipt (h : Fin 36) (m : Msg)  -- receipt (R306)
  | lendGrant (h : Fin 36) (m : Msg)  -- lend grant (R299)
  | inv (h : Fin 36) (m : Msg)  -- inv (R293)
  | fwdS (h : Fin 36) (m : Msg)  -- fwd s (R293)
  | fwdI (h : Fin 36) (m : Msg)  -- fwd i (R293)
  | token (h : Fin 36) (m : Msg)  -- token (R304)
  | close (h : Fin 36) (m : Msg)  -- close (R305)
  | tokenReply (h : Fin 36) (m : Msg)  -- token reply (R308)
  | hello (h : Fin 36) (m : Msg)  -- hello (R286)
  | probe (h : Fin 36) (m : Msg)  -- probe (R287)
  | probeReply (h : Fin 36) (m : Msg)  -- probe reply (R287)
  | assign (h : Fin 36) (m : Msg)  -- assign (R287)
  | route (h : Fin 36) (m : Msg)  -- route (R287)
  | nodeGone (h : Fin 36) (m : Msg)  -- node gone (R288)
  | helloPeriod (h : Fin 36)  -- hello period (R286)
  | enumerationStart (r : Req)  -- enumeration start (R287)
  | probeTimeout (t : W64)  -- probe timeout (R285)
  | nodeGoneTimer (n : BitVec 12)  -- node gone timer (R288)
  | herdRequestTimeout (tag : BitVec 16)  -- herd request timeout (R143)
  | tagReuseGuard (tag : BitVec 16)  -- tag reuse guard (R280)
  | snpResend (n : BitVec 12) (a : W64)  -- snp resend (R296)
  | snpCutoff (n : BitVec 12) (a : W64)  -- snp cutoff (R296)
  | routeLoss (n : BitVec 12)  -- route loss (R297)
  | roundTimer (g : BitVec 8) (rd : BitVec 32)  -- round timer (R305)
  | serveTimer (g : BitVec 8) (rd : BitVec 32)  -- serve timer (R308)
  | replyTimer (c : BitVec 12) (tok : BitVec 32) (ex : BitVec 16)  -- reply timer (R308)
  | dirGrpReset (r : Req) (g : BitVec 8)  -- dir grp reset (R303)
  | collCreate (k : Fin 32) (a : W64)  -- coll create (R313)
  | collDestroy (k : Fin 32) (a : W64)  -- coll destroy (R315)
  | collInfo (k : Fin 32) (a : W64)  -- coll info (R313)
  | collectionRelease (l : BitVec 10)  -- collection release (R315)
  | searchJobStart (j : BitVec 32)  -- search job start (R353)
  | oryxPass (ch : Fin 128) (j : BitVec 32)  -- oryx pass (R327)
  | reselect (j : BitVec 32) (i : BitVec 12)  -- reselect (R341)
  | oryxPassComplete (ch : Fin 128)  -- oryx pass complete (R340)
  | partialListMerge (j : BitVec 32) (i : BitVec 12)  -- partial list merge (R342)
  | searchJobComplete (j : BitVec 32)  -- search job complete (R333)
  | largeKReselect (j : BitVec 32)  -- large k reselect (R344)
  | generationPublish (l : BitVec 10)  -- generation publish (R547)
  | compactionStart (l : BitVec 10)  -- compaction start (R352)
  | compactionPublish (l : BitVec 10)  -- compaction publish (R352)
  | compactionRelease (l : BitVec 10)  -- compaction release (R352)
  | compactionRetry (l : BitVec 10)  -- compaction retry (R352)
  | oryxEnableWrite (r : Req) (ch : Fin 128) (v : W32)  -- oryx enable write (R335)
  | fchSubmit (r : Req) (ch : Fin 128) (q : Fin 8) (v : W32)  -- fch submit (R361)
  | fchCqHeadWrite (r : Req) (ch : Fin 128) (q : Fin 8) (v : W32)  -- fch cq head write (R361)
  | fchQueueReset (r : Req) (ch : Fin 128) (q : Fin 8)  -- fch queue reset (R388)
  | flashNop (ch : Fin 128) (q : Fin 8) (i : BitVec 10)  -- flash nop (R366)
  | flashRead (ch : Fin 128) (q : Fin 8) (i : BitVec 10)  -- flash read (R373)
  | flashProgram (ch : Fin 128) (q : Fin 8) (i : BitVec 10)  -- flash program (R369)
  | flashErase (ch : Fin 128) (q : Fin 8) (i : BitVec 10)  -- flash erase (R378)
  | flashSetBlock (ch : Fin 128) (q : Fin 8) (i : BitVec 10)  -- flash set block (R369)
  | flashGetBlock (ch : Fin 128) (q : Fin 8) (i : BitVec 10)  -- flash get block (R366)
  | flashDieOpComplete (ch : Fin 128) (t : Fin 12) (good : Bool) (e : List CwRes)  -- flash die op complete (R368)
  | eraseSuspended (ch : Fin 128) (t : Fin 12)  -- erase suspended (R379)
  | eraseResume (ch : Fin 128) (t : Fin 12)  -- erase resume (R379)
  | eraseHoldExpire (ch : Fin 128) (t : Fin 12)  -- erase hold expire (R379)
  | dieTimeout (ch : Fin 128) (t : Fin 12)  -- die timeout (R384)
  | parityRebuild (ch : Fin 128) (t : Fin 12) (pl : Fin 4) (b : BitVec 12) (cw : BitVec 13) (n : BitVec 37) (a : W64) (good : Bool)  -- parity rebuild (R374)
  | blockAdmission  -- block admission (R402)
  | wbFlushToFlash (u : BitVec 33)  -- wb flush to flash (R404)
  | wbSlotAge (b : BitVec 37)  -- wb slot age (R404)
  | wbcDrain (r : Req)  -- wbc drain (R404)
  | heatDecay  -- heat decay (R399)
  | gcReclaim  -- gc reclaim (R407)
  | gcReclaimComplete  -- gc reclaim complete (R408)
  | gcIdleTimer  -- gc idle timer (R407)
  | holdupMeasure (mj : BitVec 16)  -- holdup measure (R405)
  | nvmFlush (p : Fin 4) (q : NvmeCmd)  -- nvm flush (R442)
  | nvmWrite (p : Fin 4) (q : NvmeCmd)  -- nvm write (R402)
  | nvmRead (p : Fin 4) (q : NvmeCmd)  -- nvm read (R402)
  | nvmWriteUncorrectable (p : Fin 4) (q : NvmeCmd)  -- nvm write uncorrectable (R432)
  | nvmCompare (p : Fin 4) (q : NvmeCmd)  -- nvm compare (R432)
  | nvmWriteZeroes (p : Fin 4) (q : NvmeCmd)  -- nvm write zeroes (R432)
  | nvmDatasetManagement (p : Fin 4) (q : NvmeCmd)  -- nvm dataset management (R432)
  | nvmVerify (p : Fin 4) (q : NvmeCmd)  -- nvm verify (R432)
  | executeProgram (p : Fin 4) (q : NvmeCmd)  -- execute program (R439)
  | loadProgram (p : Fin 4) (q : NvmeCmd)  -- load program (R439)
  | programActivationManagement (p : Fin 4) (q : NvmeCmd)  -- program activation management (R439)
  | memoryRangeSetManagement (p : Fin 4) (q : NvmeCmd)  -- memory range set management (R432)
  | slmRead (p : Fin 4) (q : NvmeCmd)  -- slm read (R430)
  | slmWrite (p : Fin 4) (q : NvmeCmd)  -- slm write (R430)
  | memoryCopy (p : Fin 4) (q : NvmeCmd)  -- memory copy (R430)
  | createIoSubmissionQueue (p : Fin 4) (q : NvmeCmd)  -- create io submission queue (R428)
  | deleteIoSubmissionQueue (p : Fin 4) (q : NvmeCmd)  -- delete io submission queue (R444)
  | createIoCompletionQueue (p : Fin 4) (q : NvmeCmd)  -- create io completion queue (R428)
  | deleteIoCompletionQueue (p : Fin 4) (q : NvmeCmd)  -- delete io completion queue (R428)
  | getLogPage (p : Fin 4) (q : NvmeCmd)  -- get log page (R433)
  | identify (p : Fin 4) (q : NvmeCmd)  -- identify (R426)
  | nvmeAbort (p : Fin 4) (q : NvmeCmd)  -- nvme abort (R444)
  | setFeatures (p : Fin 4) (q : NvmeCmd)  -- set features (R433)
  | getFeatures (p : Fin 4) (q : NvmeCmd)  -- get features (R433)
  | asynchronousEventRequest (p : Fin 4) (q : NvmeCmd)  -- asynchronous event request (R440)
  | namespaceManagement (p : Fin 4) (q : NvmeCmd)  -- namespace management (R429)
  | namespaceAttachment (p : Fin 4) (q : NvmeCmd)  -- namespace attachment (R429)
  | formatNvm (p : Fin 4) (q : NvmeCmd)  -- format nvm (R432)
  | sanitize (p : Fin 4) (q : NvmeCmd)  -- sanitize (R500)
  | nvmeMiSend (p : Fin 4) (q : NvmeCmd)  -- nvme mi send (R424)
  | nvmeMiReceive (p : Fin 4) (q : NvmeCmd)  -- nvme mi receive (R424)
  | firmwareImageDownload (p : Fin 4) (q : NvmeCmd)  -- firmware image download (R510)
  | firmwareCommit (p : Fin 4) (q : NvmeCmd)  -- firmware commit (R510)
  | securitySend (p : Fin 4) (q : NvmeCmd)  -- security send (R501)
  | securityReceive (p : Fin 4) (q : NvmeCmd)  -- security receive (R501)
  | invalidCommandOpcode (p : Fin 4) (opc : BitVec 8) (q : NvmeCmd)  -- invalid command opcode (R432)
  | partitionSet (p : Fin 4) (q : NvmeCmd)  -- partition set (R436)
  | partitionGet (p : Fin 4) (q : NvmeCmd)  -- partition get (R436)
  | contextControl (p : Fin 4) (q : NvmeCmd)  -- context control (R437)
  | contextState (p : Fin 4) (q : NvmeCmd)  -- context state (R437)
  | objectCommand (p : Fin 4) (q : NvmeCmd)  -- object command (R437)
  | collectionCommand (p : Fin 4) (q : NvmeCmd)  -- collection command (R437)
  | rindImport (p : Fin 4) (q : NvmeCmd)  -- rind import (R437)
  | rindExport (p : Fin 4) (q : NvmeCmd)  -- rind export (R437)
  | fabricEnumerate (p : Fin 4) (q : NvmeCmd)  -- fabric enumerate (R437)
  | fabricStatus (p : Fin 4) (q : NvmeCmd)  -- fabric status (R437)
  | search (p : Fin 4) (q : NvmeCmd)  -- search (R438)
  | searchLargeK (p : Fin 4) (q : NvmeCmd)  -- search large k (R344)
  | collectionAppend (p : Fin 4) (q : NvmeCmd)  -- collection append (R348)
  | collectionDelete (p : Fin 4) (q : NvmeCmd)  -- collection delete (R348)
  | controllerEnable (p : Fin 4)  -- controller enable (R533)
  | controllerReset (p : Fin 4)  -- controller reset (R445)
  | functionLevelReset (p : Fin 4)  -- function level reset (R423)
  | shutdownNotification (p : Fin 4) (abrupt : Bool)  -- shutdown notification (R451)
  | apstTransition (p : Fin 4) (ps : Fin 5)  -- apst transition (R448)
  | ps3Wake  -- ps3 wake (R449)
  | nonOperationalWake (p : Fin 4)  -- non operational wake (R447)
  | portResetPerst (conn : Bool)  -- port reset perst (R529)
  | perstDeassert (conn : Bool)  -- perst deassert (R534)
  | hostLinkDown (p : Fin 4)  -- host link down (R452)
  | faultReport (f : FaultReq)  -- fault report (R466)
  | coreStallTimeout (k : Fin 64)  -- core stall timeout (R463)
  | fabricStallTimeout (d : Fin 2)  -- fabric stall timeout (R463)
  | scrubRead (m : BitVec 16) (a : W64) (kind : Fin 3)  -- scrub read (R459)
  | faultCaptureAck (r : Req) (d : Fin 3) (cls : Fin 3)  -- fault capture ack (R466)
  | faultInjectArm (r : Req) (d : Fin 3) (m : BitVec 16) (kind : Fin 4)  -- fault inject arm (R483)
  | faultPinReadbackMismatch (pos : Bool) (neg : Bool)  -- fault pin readback mismatch (R478)
  | memoryRetire (r : Req) (lpc : Bool) (i : Fin 16) (bank : Bool) (old : W64) (spare : W64)  -- memory retire (R480)
  | memoryRetireComplete (lpc : Bool) (i : Fin 16)  -- memory retire complete (R480)
  | tahrLogPoll  -- tahr log poll (R492)
  | tahrLogCommit  -- tahr log commit (R492)
  | tempSample (e : List (BitVec 12))  -- temp sample (R491)
  | monitorSample (e : List W32)  -- monitor sample (R490)
  | settingsSave (r : Req)  -- settings save (R496)
  | svnFuseAdvance  -- svn fuse advance (R511)
  | bootRomStart  -- boot rom start (R512)
  | bootWatchdogExpire  -- boot watchdog expire (R512)
  | fawnNop  -- fawn nop (R514)
  | fawnWrite (a : W64) (off : BitVec 27) (e : List Byte)  -- fawn write (R514)
  | fawnCommit  -- fawn commit (R513)
  | fawnBoot  -- fawn boot (R514)
  | fawnBootOther  -- fawn boot other (R514)
  | fawnReadLog (a : W64) (off : BitVec 27) (len : BitVec 21)  -- fawn read log (R514)
  | fawnAbort  -- fawn abort (R514)
  | fawnReservedOp (op : BitVec 8)  -- fawn reserved op (R514)
  | getNonce  -- get nonce (R506)
  | transition (target : Fin 5) (serial : W64) (nonce : List Byte) (owner : Option (List Byte)) (sig : List Byte)  -- transition (R505)
  | readNvmeMiDataStructure (typ : BitVec 8) (p : Fin 4)  -- read nvme mi data structure (R488)
  | nvmSubsystemHealthStatusPoll (clear : Bool)  -- nvm subsystem health status poll (R489)
  | controllerHealthStatusPoll (p : Fin 4)  -- controller health status poll (R489)
  | configurationGet (id : BitVec 8) (port : BitVec 8)  -- configuration get (R488)
  | configurationSet (id : BitVec 8) (port : BitVec 8) (v : W32)  -- configuration set (R488)
  | vpdRead (off : BitVec 16) (len : BitVec 16)  -- vpd read (R488)
  | vpdWrite (off : BitVec 16) (e : List Byte)  -- vpd write (R488)
  | nvmeMiReset  -- nvme mi reset (R529)
  | tunnelledAdminCommand (p : Fin 4) (opc : BitVec 8) (q : NvmeCmd)  -- tunnelled admin command (R489)
  | pldmBaseRequest (cmd : BitVec 8) (e : List Byte)  -- pldm base request (R488)
  | pldmGetSensorReading (id : BitVec 16)  -- pldm get sensor reading (R490)
  | pldmRequestUpdate  -- pldm request update (R510)
  | pldmActivateFirmware  -- pldm activate firmware (R510)
  | getVersion  -- get version (R488)
  | getCapabilities (flags : W32)  -- get capabilities (R488)
  | negotiateAlgorithms (asym : W32) (hash : W32)  -- negotiate algorithms (R488)
  | getDigests  -- get digests (R488)
  | getCertificate (slot : BitVec 8) (off : BitVec 16) (len : BitVec 16)  -- get certificate (R502)
  | challenge (slot : BitVec 8) (e : List Byte)  -- challenge (R502)
  | getMeasurements (idx : BitVec 8) (e : List Byte)  -- get measurements (R502)
  | mainPowerLoss  -- main power loss (R527)
  | mainPowerReturn  -- main power return (R527)
  | coldReset  -- cold reset (R529)
  | deviceReset (cause : Fin 8)  -- device reset (R531)
  | resetPinAssert (us : BitVec 16)  -- reset pin assert (R539)
  | resetPinRelease  -- reset pin release (R539)
  | pwrCtrlReset (r : Req)  -- pwr ctrl reset (R543)
  | nvmSubsystemReset  -- nvm subsystem reset (R529)
  | startupStepEnd (ms : W32) (fail : List (BitVec 16))  -- startup step end (R533)
  | holdupBankCharged  -- holdup bank charged (R521)
  | powerControlSample (watts : BitVec 16) (mv : BitVec 12)  -- power control sample (R523)
  | pwrCapWrite (r : Req) (v : W32)  -- pwr cap write (R522)
  | thermalCapStep  -- thermal cap step (R525)
  | thermalTrip  -- thermal trip (R526)
  | cageModuleInsert (cage : Fin 9) (watts : BitVec 8)  -- cage module insert (R541)
  | hlSignalLoss (h : Fin 36)  -- hl signal loss (R275)
  | standbyPowerLoss  -- standby power loss (R528)
  | eraseMinRunMet (ch : Fin 128) (t : Fin 12)  -- erase min run met (R379)
  | hostLinkUp (p : Fin 4) (speed : Fin 7) (width : Fin 17) (flit : Bool)  -- host link up (R452)
  | cablePresentChange (conn : Bool) (present : Bool)  -- cable present change (R540)
  | i3cDynamicAddressAssign (a : BitVec 7)  -- i3c dynamic address assign (R488)
  | mctpSetEndpointId (id : BitVec 8)  -- mctp set endpoint id (R488)
  | faultPairRelease  -- fault pair release (R538)
  | pldmFirmwareData (off : BitVec 32) (e : List Byte)  -- pldm firmware data (R510)
  | pcieConfigurationRequest (p : Fin 4) (off : BitVec 12) (wr : Bool) (v : W32)  -- pcie configuration request (R534)
  deriving DecidableEq, Repr

end Sys2Proof
end

