-- ==== Sys2Proof/Decode.lean ====
section
/-! DEFINITION. Commands by words. No row of the spec's table gives its command any bits: every row's list of fields is
empty, so no word spells a command. -/
namespace Sys2Proof

/-- The command that a word spells by the table's bits. The table gives no row bits. -/
def decodeTableWord (_nbits _w : Nat) : Option Instr := none

end Sys2Proof
end

