-- ==== Sys2Proof/Machine/State.lean ====
section
/-! DEFINITION. The state of the device: everything the spec gives it, as plain data, with the queue of commands that wait. -/
namespace Sys2Proof.Machine

/-- Reasons for which the machine stops with a fault. None is raised: the spec clamps every address (R74), and every
register and byte of memory holds a value. -/
inductive Fault where
  deriving DecidableEq, Repr

/-- Reasons for which a command has no meaning. -/
inductive Refusal where
  /-- A row of the table that the model does not cover yet; raised by the dispatch alone. Safe: the machine stops. -/
  | notModelled (mnemonic : String)
  deriving DecidableEq, Repr

/-- The device on its main rails: registers, memories and units of the two Ibex dies and the Vat die. -/
structure Dev where
  /-- ns since the main rails came up (R62) -/
  now : Nat
  /-- the model's own field: how many free values have been drawn (Config.freeWord) -/
  draws : Nat
  /-- the last value of each die's time-stamp counter that has crossed: key die for mclk, 16 + die for the self-timed logic (R62,
  R63) -/
  tsHeld : Tab Nat
  /-- registers by tier 4 offset; one that is not listed holds its reset value -/
  regs : Tab W32
  /-- shadows and held high words of pairs, by the offset of the low word (R82): a read of the low word was the last
  4-byte access, with the high word it copied; the held high word -/
  shadow : Tab W32
  held : Tab W32
  /-- the value and the CLAMPED flag that the last read or access gave its requester -/
  rdata : W64
  rflags : Nat
  rstatus : Nat
  /-- tiers 0, 1 and 2: key the low 52 bits of the global address; a byte that is not listed reads 0 (R507) -/
  mem : List Host.Cell
  /-- scale files: key core × 4,096 + entry, low word the scale, high word the zero point (R171, R188) -/
  scales : Tab W64
  /-- dual-clock queues: key crossing × 512 + instance × 2 + direction -/
  dcqs : Tab Dcq
  /-- domains whose clock is stopped: domain × 256 + instance (R58) -/
  stopped : List Nat
  /-- modules of the die-to-die links: key link × 16 + module; directions: link × 2 + direction -/
  d2dMods : Tab D2dMod
  d2dDirs : Tab D2dDir
  flt : FltSt
  ctxs : Tab Ctx
  cores : Tab Core
  /-- launch queues by partition, oldest first (R223) -/
  launchQ : Tab (List LaunchReq)
  /-- completion records on their way (R99) -/
  posts : Tab Post
  /-- reservations of load-reserved, by Chamois core (R107) -/
  resv : Tab (W64 × Nat)
  /-- Chamois exceptions raised and not cleared by a later access of the core: core to cause -/
  chamExc : Tab Nat
  tier : TierSt
  herd : HerdSt
  search : SearchSt
  flash : FlashSt
  ftl : FtlSt
  host : HostSt
  deriving DecidableEq, Repr

/-- The state of the machine: the units on the main rails, the units on the standby rail, the commands that wait. -/
structure State where
  dev : Dev
  aon : AonSt
  /-- commands that wait, first in, first out -/
  pending : List Instr
  deriving DecidableEq, Repr

/-- The units on the main rails after a reset whose scope is the device. -/
def Dev.reset : Dev :=
  { now := 0, draws := 0, tsHeld := [], regs := [], shadow := [], held := [], rdata := 0#64, rflags := 0, rstatus := 0, mem := [], scales := [],
    dcqs := [], stopped := [], d2dMods := [], d2dDirs := [], flt := FltSt.reset, ctxs := [], cores := [], launchQ := [], posts := [],
    resv := [], chamExc := [], tier := TierSt.reset, herd := HerdSt.reset, search := SearchSt.reset, flash := FlashSt.reset,
    ftl := FtlSt.reset, host := HostSt.reset }

/-- The machine right after a cold reset. -/
def State.reset : State := { dev := Dev.reset, aon := AonSt.reset, pending := [] }

/-- Memory is in canonical form: addresses strictly rising, no byte equal to what an unlisted address reads as. -/
def Memory.wf (m : List Host.Cell) : Bool := Tab.risesFrom 0 m && m.all (fun c => c.2 != 0#8)

end Sys2Proof.Machine
end

