-- ==== Sys2Proof/Machine/Reg.lean ====
section
/-! DEFINITION. Registers: where an offset lies, reset values, fields, counters, the access codes of R12, pairs (R82). -/
namespace Sys2Proof.Machine

/-- The place of an offset within the repeats of a register: indices by dimension, if it is one of the register's. -/
def dimIdx : List (Nat × Nat) → Nat → Option (List Nat)
  | [], o => if o = 0 then some [] else none
  | (n, st) :: r, o => if o / st < n then (dimIdx r (o % st)).map (o / st :: ·) else none

/-- The instance of Table 03-5 in whose range an offset lies, with the offset within it. -/
def blkAt (a : Nat) : Option (BlkRow × Nat × Nat) :=
  (blkRows.find? (fun r => r.base ≤ a && a < r.base + r.count * r.stride && (a - r.base) % r.stride < r.size)).map
    (fun r => (r, (a - r.base) / r.stride, (a - r.base) % r.stride))

/-- A register found at an offset: its block, instance, description and repeat. -/
structure RegAt where
  row : BlkRow
  inst : Nat
  spec : RegSpec
  idx : Nat
  deriving DecidableEq, Repr

/-- The register of a list that lies at an offset within its block. -/
def regIn (l : List RegSpec) (o : Nat) : Option (RegSpec × Nat) :=
  l.findSome? (fun s => if s.off ≤ o then (dimIdx s.dims (o - s.off)).map (fun ix => (s, ix.headD 0)) else none)

/-- The register at a tier 4 offset, if one is defined there (R77, R79). -/
def regAt (a : Nat) : Option RegAt :=
  match blkAt a with
  | none => none
  | some (row, i, o) => (regIn (blkRegs row.blk) o).map (fun p => ⟨row, i, p.1, p.2⟩)

/-- The home of a register: a device-wide register has one, in instance 0. -/
def regHome (r : RegAt) (a : Nat) : Nat := if r.spec.wide then a - r.inst * r.row.stride else a

/-- The reset value of a field in one instance and repeat. -/
def fieldReset (f : FieldSpec) (cnt inst idx : Nat) : Nat :=
  match f.reset with
  | [] => 0
  | [v] => v
  | l => if l.length = cnt then l.getD inst 0 else l.getD idx 0

/-- The reset value of the register at an offset; 0 where there is none. -/
def regReset (a : Nat) : W32 :=
  match regAt a with
  | none => 0#32
  | some r => r.spec.fields.foldl (fun v f => setF v f.f (fieldReset f r.row.count r.inst r.idx)) 0#32

namespace Dev

/-- The content of a register. -/
def reg (d : Dev) (a : Nat) : W32 := Tab.getD d.regs a (regReset a)
/-- Sets the content of a register. -/
def setReg (d : Dev) (a : Nat) (v : W32) : Dev := { d with regs := Tab.store d.regs a v (regReset a) }
/-- A field of a register. -/
def fld (d : Dev) (a : Nat) (f : Fld) : Nat := getF (d.reg a) f
/-- A field of a register as a flag. -/
def flag (d : Dev) (a : Nat) (f : Fld) : Bool := d.fld a f != 0
/-- Sets a field of a register. -/
def setFld (d : Dev) (a : Nat) (f : Fld) (x : Nat) : Dev := d.setReg a (setF (d.reg a) f x)
/-- Sets several fields of a register. -/
def setFlds (d : Dev) (a : Nat) (l : List (Fld × Nat)) : Dev := l.foldl (fun d p => d.setFld a p.1 p.2) d
/-- Adds one to an event counter, or sets its sticky overflow bit where it stands at its last value (R65). -/
def count (d : Dev) (cnt evt : Nat) (ovf : Fld) : Dev :=
  if (d.reg cnt).toNat = 0xFFFFFFFF then d.setFld evt ovf 1 else d.setReg cnt (d.reg cnt + 1#32)
/-- Adds n to an event counter, one event at a time (R65). -/
def countN (d : Dev) (cnt evt : Nat) (ovf : Fld) (n : Nat) : Dev :=
  if (d.reg cnt).toNat + n ≤ 0xFFFFFFFF then (if n = 0 then d else d.setReg cnt (d.reg cnt + BitVec.ofNat 32 n))
  else (d.setReg cnt 0xFFFFFFFF#32).setFld evt ovf 1
/-- A 64-bit quantity in a pair. -/
def pair (d : Dev) (lo : Nat) : Nat := (d.reg lo).toNat + 2 ^ 32 * (d.reg (lo + 4)).toNat
/-- Sets a 64-bit quantity in a pair. -/
def setPair (d : Dev) (lo v : Nat) : Dev := (d.setReg lo (BitVec.ofNat 32 v)).setReg (lo + 4) (BitVec.ofNat 32 (v / 2 ^ 32))
/-- Adds to a 64-bit volume counter that wraps to 0 and then sets a sticky bit. -/
def addPair (d : Dev) (lo n evt : Nat) (wrap : Fld) : Dev :=
  let v := d.pair lo + n
  let d := d.setPair lo v
  if v < 2 ^ 64 then d else d.setFld evt wrap 1

/-- The next free value: a word that the spec leaves open (R9). -/
def draw (d : Dev) : W64 × Dev := (Config.freeWord d.draws, { d with draws := d.draws + 1 })
/-- A free choice among n alternatives. -/
def choose (d : Dev) (n : Nat) : Nat × Dev := ((Config.freeWord d.draws).toNat % n, { d with draws := d.draws + 1 })

/-- A unit is fenced (R37). -/
def isFenced (d : Dev) (u : Nat) : Bool := d.flt.fenced.contains u
/-- This device's node ID (R69). -/
def nodeId (d : Dev) : Nat := d.fld R.addrNode F.addrNode_nodeId
/-- Enumeration has assigned a node ID. -/
def assigned (d : Dev) : Bool := d.flag R.addrNode F.addrNode_assigned
/-- The owner in force of a Chamois core: 0 to 15 a partition, 16 the run-time, 31 none. -/
def chamOwner (d : Dev) (n : Nat) : Nat := d.fld (R.partChamOwn n) F.partChamOwn_effective
/-- The owner in force of a Kudu core. -/
def kuduOwner (d : Dev) (k : Nat) : Nat := d.fld (R.partKuduOwn k) F.partKuduOwn_effective
/-- A partition is privileged (R73, R219). -/
def isPriv (d : Dev) (p : Nat) : Bool := d.flag (R.partCfg p) F.partCfg_priv
/-- The device is stopped (R477). -/
def devFatal (d : Dev) : Bool := d.flag (R.fltStatus 0) F.fltStatus_devFatal
/-- Raises a fault report, which is taken at the end of the command. -/
def raise (d : Dev) (f : FaultReq) : Dev := { d with flt := { d.flt with raised := d.flt.raised ++ [f] } }

/-- A context of the table. -/
def ctx? (d : Dev) (c : Nat) : Option Ctx := Tab.find d.ctxs c
/-- Changes a context. -/
def modCtx (d : Dev) (c : Nat) (f : Ctx → Ctx) : Dev := { d with ctxs := Tab.modify d.ctxs c f }
/-- A Kudu core. -/
def core (d : Dev) (k : Nat) : Core := Tab.getD d.cores k Core.reset
/-- Changes a Kudu core. -/
def modCore (d : Dev) (k : Nat) (f : Core → Core) : Dev := { d with cores := Tab.store d.cores k (f (d.core k)) Core.reset }

end Dev

/-- A unit ID (Table 17-8). -/
def unitId (kind inst : Nat) : Nat := kind * 1024 + inst

/-- The partition of a requester, if it has one (R83). -/
def Req.part (d : Dev) : Req → Option Nat
  | .ctx c => (d.ctx? c).map (·.part)
  | .cham n => if d.chamOwner n < 16 then some (d.chamOwner n) else none
  | .hostFor _ p => some p
  | _ => none

/-- The ADDR_CLAMP slot of a requester (R83). -/
def Req.slot (d : Dev) (r : Req) : Nat :=
  match r with
  | .remote _ => 16
  | .host _ => 17
  | .hostFor _ _ => 17
  | .unit _ _ => 18
  | _ => (r.part d).getD 18

/-- ADDR_CLAMP_INFO.SRC_KIND and SRC_ID of a requester (Table 03-6f). -/
def Req.src : Req → Nat × Nat
  | .ctx c => (0, c)
  | .cham n => (1, n)
  | .remote n => (2, n)
  | .host p => (3, p)
  | .hostFor p _ => (3, p)
  | .unit k i => (4, k % 64 * 64 + i % 64)

/-- The unit on whose behalf a requester's access is made: the master of its faults (R462, Table 17-8). -/
def Req.master (d : Dev) : Req → Nat
  | .ctx c => unitId 1 (((d.ctx? c).map (·.core)).getD 0)
  | .cham n => unitId 2 n
  | .remote _ => unitId 7 0
  | .host p => unitId 0x0E p
  | .hostFor p _ => unitId 0x0E p
  | .unit k i => unitId k i

/-- Counts one address clamp of a requester in its slot, and captures it where the slot's VALID is 0 (R83, R84). -/
def Dev.addrClamp (d : Dev) (r : Req) (kind : Nat) (addr : W64) : Dev :=
  let j := r.slot d
  let d := d.count (R.addrClampCnt j) (R.addrClampInfo j) F.addrClampInfo_ovf
  if d.flag (R.addrClampInfo j) F.addrClampInfo_valid then d
  else (d.setPair (R.addrClampLo j) addr.toNat).setFlds (R.addrClampInfo j)
    [(F.addrClampInfo_valid, 1), (F.addrClampInfo_kind, kind), (F.addrClampInfo_srcKind, r.src.1), (F.addrClampInfo_srcId, r.src.2)]

/-- The tier 4 address of an offset on this device. -/
def Dev.regAddr (d : Dev) (a : Nat) : W64 := BitVec.ofNat 64 (d.nodeId * 2 ^ 52 + 4 * 2 ^ 49 + a)

/-- A requester is a Chamois core of the run-time or the Tahr subsystem, the writers of the device's own blocks (R222). -/
def Req.isRuntime (d : Dev) : Req → Bool
  | .cham n => d.chamOwner n == 16
  | .unit k _ => k == 0x10
  | _ => false

/-- A Chamois core that a partition owns. -/
def Req.isPartCham (d : Dev) : Req → Bool
  | .cham n => d.chamOwner n < 16
  | _ => false

/-- Access to an FCH block (R362): everything, queue 7 of the raw queue's partition and the reads beside it, or nothing. -/
def fchAccess (d : Dev) (r : Req) (inst off : Nat) (wr : Bool) : Bool :=
  match r with
  | .unit k _ => k == 0x0C || k == 0x10
  | .cham n =>
    d.chamOwner n == 16 ||
    (d.flag (R.fchQCfg inst 7) F.fchQCfg_rawEn && d.chamOwner n == d.fld (R.fchQCfg inst 7) F.fchQCfg_part &&
      (!wr || (0x100 + 0x40 * 7 + 4 ≤ off && off ≤ 0x100 + 0x40 * 7 + 0x24)))
  | _ => false

/-- Whether a requester may make an access to a block, by the access rule of the block's chapter; an access it may not make
is an access to a hole (R79). -/
def mayAccess (d : Dev) (r : Req) (b : Blk) (inst off : Nat) (wr : Bool) : Bool :=
  match b with
  | .ts => !wr
  | .part => r.isRuntime d || (wr && r.isPartCham d && (off == 0x800 || off == 0x804))
  | .tier => r.isRuntime d || (wr && r.isPartCham d && (off == 0x200 || off == 0x204))
  | .cham => !wr || r.isRuntime d || ((off == 8 || off == 0xC) && r == .cham inst)
  | .oryx => if off < 0x800 then !wr || r.isRuntime d else !wr || r.isRuntime d || ((off == 0x800 || off == 0x804) && r.isPartCham d)
  | .fch => fchAccess d r inst off wr
  | .press => !wr || off == 0 || r.isRuntime d
  | .host => r.isRuntime d
  | .dir | .wbc | .flt | .d2d | .hbmc | .lpc | .sec | .tahr | .pwr => !wr || r.isRuntime d
  | .addr | .cap | .tempo | .hl | .kudu => true

/-- A write of the fields of a register that have no behaviour of their own, by their access codes (R12, R13). -/
def writeFields (fs : List FieldSpec) (old v : W32) : W32 :=
  fs.foldl (fun acc f =>
    match f.acc with
    | .rw => setF acc f.f (getF v f.f)
    | .w1c => setF acc f.f (getF old f.f &&& (2 ^ f.f.w - 1 - getF v f.f))
    | .w1s => setF acc f.f (getF old f.f ||| getF v f.f)
    | _ => acc) old

/-- The value a read returns: the register with its WO fields read as 0 (R12). -/
def readValue (fs : List FieldSpec) (v : W32) : W32 :=
  fs.foldl (fun acc f => if f.acc = .wo then setF acc f.f 0 else acc) v

/-- The register after a read: its RC fields are cleared (R12, R66). -/
def clearRc (fs : List FieldSpec) (v : W32) : W32 :=
  fs.foldl (fun acc f => if f.acc = .rc then setF acc f.f 0 else acc) v

/-- The unit whose registers a block instance holds, for the freeze of R80. -/
def blkUnit (b : Blk) (inst : Nat) : Option Nat :=
  match b with
  | .kudu => some (unitId 1 inst)
  | .cham => some (unitId 2 inst)
  | .oryx => some (unitId 0x0A inst)
  | .press => some (unitId 0x0C inst)
  | .hl => some (unitId 5 inst)
  | _ => none

end Sys2Proof.Machine
end

