-- ==== Sys2Proof/Machine/Mem.lean ====
section
/-! DEFINITION. Bytes of tiers 0 to 2: reads, writes, poison (R457), and the pieces of an address (R68). -/
namespace Sys2Proof.Machine

/-- The byte at a key of memory. -/
def Memory.get (m : List Host.Cell) (k : Nat) : Byte := Tab.getD m k 0#8
/-- Writes the byte at a key of memory, keeping the canonical form. -/
def Memory.set (m : List Host.Cell) (k : Nat) (b : Byte) : List Host.Cell := Tab.store m k b 0#8
/-- The n bytes from a key on. -/
def Memory.read (m : List Host.Cell) (k n : Nat) : List Byte := (List.range n).map (fun i => Memory.get m (k + i))
/-- Writes bytes from a key on. -/
def Memory.write (m : List Host.Cell) (k : Nat) : List Byte → List Host.Cell
  | [] => m
  | b :: r => Memory.write (Memory.set m k b) (k + 1) r
/-- Writes zeros: the listed cells of a range are dropped. -/
def Memory.wipe (m : List Host.Cell) (k n : Nat) : List Host.Cell := m.filter (fun c => c.1 < k || k + n ≤ c.1)
/-- The listed cells of a range, moved to start at another key. -/
def Memory.slice (m : List Host.Cell) (k n dest : Nat) : List Host.Cell :=
  (m.filter (fun c => k ≤ c.1 && c.1 < k + n)).map (fun c => (c.1 - k + dest, c.2))
/-- Copies a range: the target ends equal to the source as it stood. -/
def Memory.copy (m : List Host.Cell) (k n dest : Nat) : List Host.Cell :=
  (Memory.slice m k n dest).foldl (fun m c => Memory.set m c.1 c.2) (Memory.wipe m dest n)

/-- The bytes of a cell list. -/
def Cells.bytes (c : Cells) (n : Nat) : List Byte := Memory.read c 0 n
/-- A cell list of bytes. -/
def Cells.of (l : List Byte) : Cells := Memory.write [] 0 l

/-- NODE of an address. -/
def addrNode (a : W64) : Nat := bits64 a 52 12
/-- TIER of an address. -/
def addrTier (a : W64) : Nat := bits64 a 49 3
/-- OFFSET of an address. -/
def addrOff (a : W64) : Nat := bits64 a 0 49
/-- An address from its fields (Table 03-1). -/
def mkAddr (node tier off : Nat) : W64 := BitVec.ofNat 64 (node % 4096 * 2 ^ 52 + tier % 8 * 2 ^ 49 + off % 2 ^ 49)
/-- The key under which memory holds a byte of this device: tier and offset. -/
def memKey (tier off : Nat) : Nat := tier * 2 ^ 49 + off

/-- Sizes of the tiers (Table 03-2); tier 5 takes its size from ADDR_WIN. -/
def Dev.tierSize (d : Dev) (t : Nat) : Nat :=
  match t with
  | 0 => 0x40000000
  | 1 => 0xC000000000
  | 2 => 0x10000000000
  | 3 => 0x12309CE540000
  | 4 => 0x1000000
  | 5 => d.fld R.addrWin F.addrWin_size * 2 ^ 20
  | _ => 0

/-- Bytes of the code word that holds a byte of a tier (Table 17-1). -/
def codeWordSize (tier : Nat) : Nat := if tier = 1 then 64 else 8
/-- The key of the code word that holds a byte. -/
def codeWordOf (k : Nat) : Nat := alignDown k (codeWordSize (k / 2 ^ 49))
/-- The code words that a range touches. -/
def codeWords (k n : Nat) : List Nat :=
  let cw := codeWordSize (k / 2 ^ 49)
  let a := codeWordOf k
  if n = 0 then [] else (List.range ((k + n - a + cw - 1) / cw)).map (fun i => a + i * cw)

/-- Some byte of a range is poisoned. -/
def Dev.poisoned (d : Dev) (k n : Nat) : Bool :=
  d.flt.poison.any (fun p => p.1 < k + n && k < p.1 + codeWordSize (p.1 / 2 ^ 49))
/-- Poisons every code word that a range touches. -/
def Dev.poisonRange (d : Dev) (k n : Nat) : Dev :=
  { d with flt := { d.flt with poison := (codeWords k n).foldl (fun t w => Tab.put t w true) d.flt.poison } }
/-- A write of a range clears the poison of the code words that it covers whole (R457). -/
def Dev.cleanRange (d : Dev) (k n : Nat) : Dev :=
  if d.flt.poison.isEmpty then d else
  { d with flt := { d.flt with poison := d.flt.poison.filter (fun p => !(k ≤ p.1 && p.1 + codeWordSize (p.1 / 2 ^ 49) ≤ k + n)) } }

/-- The controller of a tier 1 or 2 offset (R71): unit KIND and instance. -/
def ctrlOf (tier off : Nat) : Nat × Nat :=
  if tier = 1 then
    if off < 0x6000000000 then (3, off / 4096 % 4) else (3, 4 + (off - 0x6000000000) / 4096 % 4)
  else
    if off < 0x8000000000 then (4, off / 4096 % 8) else (4, 8 + (off - 0x8000000000) / 4096 % 8)
/-- The controller granule index of a tier 1 or 2 offset (R479). -/
def granuleOf (tier off : Nat) : Nat :=
  if tier = 1 then (off % 0x6000000000) / 4096 / 4 else (off % 0x8000000000) / 4096 / 8
/-- The base register of a memory controller's block. -/
def mcBase (kind inst : Nat) : Nat := if kind = 3 then R.hbmcStatus inst else R.lpcStatus inst
/-- Granules in a bank (R479). -/
def bankGranules (kind : Nat) : Nat := if kind = 3 then 6144 else 65536
/-- The die that homes an offset of tiers 0 to 2. -/
def dieOf (tier off : Nat) : Nat :=
  match tier with
  | 0 => if off < 0x20000000 then 0 else 1
  | 1 => if off < 0x6000000000 then 0 else 1
  | _ => if off < 0x8000000000 then 0 else 1

/-- An access to a withheld spare, or to a die half that self-test withdrew (R481). -/
def Dev.retiredAddr (d : Dev) (tier off : Nat) : Bool :=
  if tier = 1 || tier = 2 then
    let (k, i) := ctrlOf tier off
    let g := granuleOf tier off
    d.flag (mcBase k i) F.hbmcStatus_withdrawn ||
    d.flt.withheld.any (fun w => w.ctrl == unitId k i && w.spare ≤ g && g < w.spare + (if w.bank then bankGranules k else 1))
  else false
/-- Counts a retired-address access (R481). -/
def Dev.countHit (d : Dev) (tier off : Nat) : Dev :=
  let (k, i) := ctrlOf tier off
  let b := mcBase k i
  (d.count (b + 0x14) (b + 4) F.hbmcEvt_hitOvf).setFld (b + 4) F.hbmcEvt_hit 1

/-- Reads bytes of tiers 0 to 2. -/
def Dev.mread (d : Dev) (tier off n : Nat) : List Byte := Memory.read d.mem (memKey tier off) n
/-- Writes bytes of tiers 0 to 2 and clears the poison of the code words covered; a retired address discards them. -/
def Dev.mwrite (d : Dev) (tier off : Nat) (l : List Byte) : Dev :=
  if d.retiredAddr tier off then d.countHit tier off
  else Dev.cleanRange { d with mem := Memory.write d.mem (memKey tier off) l } (memKey tier off) l.length
/-- Writes one byte under a mask of bits. -/
def Dev.mwriteMask (d : Dev) (tier off : Nat) (b m : Byte) : Dev :=
  { d with mem := Memory.set d.mem (memKey tier off) ((Memory.get d.mem (memKey tier off) &&& ~~~m) ||| (b &&& m)) }
/-- Zeroes a range (R244, R507). -/
def Dev.mzero (d : Dev) (tier off n : Nat) : Dev :=
  Dev.cleanRange { d with mem := Memory.wipe d.mem (memKey tier off) n } (memKey tier off) n

/-- The little-endian word of n bytes at an address of tiers 0 to 2. -/
def Dev.mword (d : Dev) (tier off n : Nat) : Nat := leVal (d.mread tier off n)

end Sys2Proof.Machine
end

