-- ==== Sys2Proof/Machine/Flash.lean ====
section
/-! DEFINITION. The flash channel controllers (chapter 14): descriptor queues, checks, reads, programs, erases, suspends. -/
namespace Sys2Proof.Machine

/-- A die's number (R357). -/
def dieNo (ch t : Nat) : Nat := 12 * ch + t
/-- Key of a plane-block. -/
def pblkKey (die plane block : Nat) : Nat := (die * 4 + plane) * 2542 + block
/-- Key of a code word. -/
def cwKey (die plane block i : Nat) : Nat := pblkKey die plane block * 6144 + i
/-- Code words of a plane-block by mode (Table 14-1). -/
def cwCount (slc : Bool) : Nat := if slc then 1536 else 6144
/-- The write pointer of a full block (R369). -/
def wpFull : Nat := 0x1FFF

namespace FDesc
/-- A field of a descriptor (Table 14-3). -/
def f (x : FDesc) (w lo n : Nat) : Nat := bits64 (x.words.getD w 0#64) lo n
def op (x : FDesc) : Nat := x.f 0 0 8
def tag (x : FDesc) : Nat := x.f 0 16 16
def target (x : FDesc) : Nat := x.f 0 32 4
def planes (x : FDesc) : List Nat := (List.range 4).filter (fun p => bit64 (x.words.getD 0 0#64) (36 + p))
def slc (x : FDesc) : Bool := bit64 (x.words.getD 0 0#64) 40
def kind (x : FDesc) : Nat := x.f 0 41 2
def ladderOff (x : FDesc) : Bool := bit64 (x.words.getD 0 0#64) 43
def block (x : FDesc) : Nat := x.f 1 0 12
def page (x : FDesc) : Nat := x.f 1 16 11
def cwm (x : FDesc) : List Nat := (List.range 4).filter (fun w => bit64 (x.words.getD 1 0#64) (27 + w))
def cw (x : FDesc) : Nat := x.f 1 32 13
def count (x : FDesc) : Nat := x.f 1 48 5
def data (x : FDesc) : W64 := x.words.getD 2 0#64
def side (x : FDesc) : W64 := x.words.getD 3 0#64
def keyslot (x : FDesc) : Nat := x.f 4 0 12
def crypt (x : FDesc) : Bool := bit64 (x.words.getD 4 0#64) 12 && x.q != 7
def tweak (x : FDesc) : Nat := (x.words.getD 5 0#64).toNat
def wp (x : FDesc) : Nat := x.f 6 0 13
def setWp (x : FDesc) : Bool := bit64 (x.words.getD 6 0#64) 13
def markBad (x : FDesc) : Bool := bit64 (x.words.getD 6 0#64) 14
def setMode (x : FDesc) : Bool := bit64 (x.words.getD 6 0#64) 15
end FDesc

/-- Sets bits of one word of a list of words. -/
def wordsWith (ws : List W64) (i lo n v : Nat) : List W64 :=
  ws.set i (BitVec.ofNat 64 (withBits (ws.getD i 0#64).toNat lo n v))

/-- One clamp of a descriptor's field: where the value must change, it changes and counts. -/
def fclamp (i lo n : Nat) (g : Nat → Nat) (s : List W64 × Nat) : List W64 × Nat :=
  let v := bits64 (s.1.getD i 0#64) lo n
  if g v = v then s else (wordsWith s.1 i lo n (g v), s.2 + 1)

/-- The clamp of an address or offset (Table 14-3): with KIND 0 to tier 2 where it names another tier than 1 or 2; down to 64 bytes with
KIND 0 and 1. -/
def fclampAddr (i : Nat) (s : List W64 × Nat) : List W64 × Nat :=
  let a := s.1.getD i 0#64
  let kind := bits64 (s.1.getD 0 0#64) 41 2
  if kind = 2 || (i = 3 && a = 0#64) then s else
  let s := if kind = 1 || addrTier a = 1 || addrTier a = 2 then s else (wordsWith s.1 i 49 3 2, s.2 + 1)
  fclamp i 0 6 (fun _ => 0) s

/-- A descriptor after the clamps of Table 14-3, with their number (R365, R499). -/
def fdescClamp (ws : List W64) : List W64 × Nat :=
  let s := (ws, 0)
  let s := fclamp 0 0 8 (fun v => if v ≤ 5 then v else 0) s
  let op := bits64 (s.1.getD 0 0#64) 0 8
  let s := fclamp 0 32 4 (fun v => if v ≤ 11 then v else 11) s
  let s := fclamp 0 36 4 (fun v => if v = 0 then 1 else v) s
  let s := fclamp 0 41 2 (fun v => if v = 3 || (v = 2 && op ≠ 1) then 0 else v) s
  let s := fclamp 1 0 12 (fun v => if v ≤ 2541 then v else 2541) s
  let slc := bit64 (s.1.getD 0 0#64) 40
  let n := cwCount slc
  let s := if op = 1 then fclamp 1 27 4 (fun v => if v = 0 then 1 else v) (fclamp 1 16 11 (fun v => if v < n / 4 then v else n / 4 - 1) s) else s
  let s := if op = 2 then
      let s := fclamp 1 32 13 (fun v => if v < n then v else n - 1) s
      fclamp 1 48 5 (fun v => min (if v = 0 then 1 else if v > 16 then 16 else v) (n - bits64 (s.1.getD 1 0#64) 32 13)) s
    else s
  let s := if op = 1 || op = 2 || op = 5 then fclampAddr 2 s else s
  let s := if op = 1 || op = 2 then fclampAddr 3 s else s
  let s := fclamp 4 0 12 (fun v => if v ≤ 144 then v else 0) s
  if op = 4 && bit64 (s.1.getD 6 0#64) 15 then fclamp 6 0 13 (fun v => if v > n then wpFull else v) s else s

namespace Dev

def fch (d : Dev) (ch : Nat) : FchSt := Tab.getD d.flash.fch ch FchSt.reset
def setFch (d : Dev) (ch : Nat) (x : FchSt) : Dev := { d with flash := { d.flash with fch := Tab.store d.flash.fch ch x FchSt.reset } }
def die (d : Dev) (ch t : Nat) : DieSt := Tab.getD (d.fch ch).dies t DieSt.reset
def pblk (d : Dev) (k : Nat) : PBlk := Tab.getD d.flash.blocks k PBlk.reset
def setPblk (d : Dev) (k : Nat) (x : PBlk) : Dev := { d with flash := { d.flash with blocks := Tab.store d.flash.blocks k x PBlk.reset } }

/-- Sets a die's state and the registers that show it (Table 14-9e). -/
def setDie (d : Dev) (ch t : Nat) (x : DieSt) : Dev :=
  let f := d.fch ch
  (d.setFch ch { f with dies := Tab.store f.dies t x DieSt.reset }).setFlds (R.fchDie ch t)
    [(F.fchDie_state, if x.failed then 3 else if x.susp then 2 else if x.op.isSome || x.erase.isSome then 1 else 0),
     (F.fchDie_lastGood, x.lastGood), (F.fchDie_susp, x.suspCnt)]

/-- Counts clamps of a channel's descriptors and registers. -/
def fchClamp (d : Dev) (ch n : Nat) : Dev := d.countN (R.fchClampCnt ch) (R.fchEvt ch) F.fchEvt_clampOvf n

/-- Depth of a queue's rings (R361). -/
def fchDepth (d : Dev) (ch q : Nat) : Nat := 2 ^ d.fld (R.fchQCfg ch q) F.fchQCfg_depth

/-- Completion entries of a queue that are reserved or not yet freed, with FCH_Q_CTRL.STALLED after them (R363). -/
def setReserved (d : Dev) (ch q n : Nat) : Dev :=
  let f := d.fch ch
  (d.setFch ch { f with reserved := Tab.store f.reserved q n 0 }).setFld (R.fchQCtrl ch q) F.fchQCtrl_stalled (b2n (n ≥ d.fchDepth ch q))

/-- A write of FCH_Q_CQH frees the entries up to the new head. -/
def fchFree (d : Dev) (ch q head : Nat) : Dev :=
  let n := d.fchDepth ch q
  let h := d.fld (R.fchQCqh ch q) F.fchQCqh_head
  let used := Tab.getD (d.fch ch).reserved q 0
  (d.setFld (R.fchQCqh ch q) F.fchQCqh_head (head % n)).setReserved ch q (used - (head % n + n - h) % n)

/-- The queue that the controller serves next for a descriptor's class: strict priority, then deficit round robin (R363). -/
def fchTurn (d : Dev) (ch : Nat) (elig : List Nat) : Option Nat :=
  let prio := fun q => d.fld (R.fchQCfg ch q) F.fchQCfg_prio
  match (List.range 4).find? (fun p => elig.any (fun q => prio q == p)) with
  | none => none
  | some p =>
    let qs := elig.filter (fun q => prio q == p)
    let (cur, had) := Tab.getD (d.fch ch).turn p (7, 0)
    if qs.contains cur && had > 0 && had < d.fld (R.fchQCfg ch cur) F.fchQCfg_weight then some cur
    else (((List.range 8).map (fun i => (cur + 1 + i) % 8)).find? (fun q => qs.contains q))

/-- The die can take a descriptor (R363 item 3): NOP and SET_BLOCK touch no die; a READ also runs on a suspended erase. -/
def dieTakes (d : Dev) (ch : Nat) (x : FDesc) : Bool :=
  let y := d.die ch x.target
  x.op == 0 || x.op == 4 || y.failed || (y.op.isNone && (y.erase.isNone || (y.susp && x.op == 1)))

/-- A descriptor, the i-th waiting of its queue, is eligible to start but for its die (R363, R364). -/
def fchReady (d : Dev) (ch q i : Nat) : Option FDesc :=
  let ws := Tab.getD (d.fch ch).waiting q []
  match ws[i]? with
  | none => none
  | some x =>
    if d.flag (R.fchCtrl ch) F.fchCtrl_en && d.flag (R.fchStatus ch) F.fchStatus_ready && d.flag (R.fchQCfg ch q) F.fchQCfg_en &&
      !d.flag (R.fchQCtrl ch q) F.fchQCtrl_reset && (ws.take i).all (fun y => y.target != x.target) && decide (Tab.getD (d.fch ch).reserved q 0 < d.fchDepth ch q)
    then some x else none

/-- A descriptor is eligible to start (R363). -/
def fchEligible (d : Dev) (ch q i : Nat) : Bool := (d.fchReady ch q i).any (fun x => d.dieTakes ch x)

/-- The queues that have an eligible descriptor. -/
def fchEligQueues (d : Dev) (ch : Nat) : List Nat :=
  (List.range 8).filter (fun q => (List.range (Tab.getD (d.fch ch).waiting q []).length).any (fun i => d.fchEligible ch q i))

/-- Takes a descriptor out of its queue to start it: a completion entry is reserved, the turn advances. -/
def fchTake (d : Dev) (ch q i : Nat) : Dev :=
  let p := d.fld (R.fchQCfg ch q) F.fchQCfg_prio
  let f := d.fch ch
  let ws := Tab.getD f.waiting q []
  let (cur, had) := Tab.getD f.turn p (7, 0)
  let d := d.setFch ch { f with waiting := Tab.store f.waiting q (ws.eraseIdx i) [], turn := Tab.put f.turn p (q, if cur = q && had < d.fld (R.fchQCfg ch q) F.fchQCfg_weight then had + 1 else 1) }
  d.setReserved ch q (Tab.getD f.reserved q 0 + 1)

/-- A plane-block is open to the raw queue (R367). -/
def rawListed (d : Dev) (ch t b : Nat) : Bool :=
  (List.range 16).any (fun i => d.flag (R.fchRaww ch i) F.fchRaww_valid && d.fld (R.fchRaww ch i) F.fchRaww_target == t &&
    d.fld (R.fchRaww ch i) F.fchRaww_block == b)

/-- The keys of a descriptor's plane-blocks. -/
def descBlks (ch : Nat) (x : FDesc) : List Nat := x.planes.map (fun p => pblkKey (dieNo ch x.target) p x.block)

/-- The checks of R367 in their order: the status of the first that fails. -/
def fchCheck (d : Dev) (ch : Nat) (x : FDesc) : Option Nat :=
  let bs := (descBlks ch x).map (fun k => d.pblk k)
  let y := d.die ch x.target
  let prog := x.op == 2
  let ers := x.op == 3
  if x.q = 7 && (x.op == 4 || x.kind != 0 || ((prog || ers) && !d.rawListed ch x.target x.block)) then some 0x55
  else if y.failed then some 0x56
  else if (prog || ers) && bs.any (·.bad) then some 0x50
  else if (x.op == 1 || prog) && bs.any (fun b => b.slc != x.slc) then some 0x54
  else if (x.op == 1 || prog) && y.susp && (y.erase.any (fun e => e.desc.block == x.block)) then some 7
  else if prog && bs.any (fun b => x.cw < b.wp) then some 8
  else if prog && bs.any (fun b => b.wp < x.cw) then some 0x53
  else none

/-- The data bytes that a read of a stored code word returns (R362, R371, R499). -/
def cwBytes (a : AonSt) (x : FDesc) (n : Nat) (w : CodeWord) : List Byte :=
  let b := Cells.bytes w.data 4096
  match w.enc, x.crypt with
  | none, false => b
  | some (slot, g, tw), true =>
    if slot = x.keyslot ∧ g = Tab.getD a.keys slot 0 ∧ tw = x.tweak + n then b
    else Config.aes false (Tab.getD a.keys x.keyslot 0) (x.tweak + n) (Config.aes true g tw b)
  | some (_, g, tw), false => Config.aes true g tw b
  | none, true => Config.aes false (Tab.getD a.keys x.keyslot 0) (x.tweak + n) b

/-- Erases the plane-blocks of a descriptor (R378). -/
def fchErase (d : Dev) (ch : Nat) (x : FDesc) : Dev :=
  (descBlks ch x).foldl (fun d k =>
    { d with flash := { d.flash with words := d.flash.words.filter (fun w => w.1 / 6144 ≠ k) } }.setPblk k ⟨x.slc, 0, (d.pblk k).bad⟩) d

/-- The time an erase has run since it began or last resumed reaches FCH_SUSP.MIN_RUN, and it may be suspended (R379). -/
def mayReqSusp (d : Dev) (ch : Nat) (y : DieSt) : Bool :=
  d.flag (R.fchCtrl ch) F.fchCtrl_suspEn && y.erase.isSome && !y.susp && !y.suspReq &&
  getF y.suspCfg F.fchSusp_minRun * 10000 ≤ d.now - y.at' && y.suspCnt < getF y.suspCfg F.fchSusp_maxSusp

/-- An eligible READ waits for a die (R379). -/
def readWaits (d : Dev) (ch t : Nat) : Bool :=
  (List.range 8).any (fun q => (List.range (Tab.getD (d.fch ch).waiting q []).length).any (fun i =>
    (d.fchReady ch q i).any (fun x => x.op == 1 && x.target == t)))

/-- A suspended erase resumes (R379). -/
def fchResume (d : Dev) (ch t : Nat) : Dev :=
  let y := d.die ch t
  d.setDie ch t { y with susp := false, suspReq := false, at' := d.now }

/-- SET_BLOCK on one plane-block (R369): a pointer beyond the block's mode is full, with a clamp; a lower one is refused with a clamp
unless the block is full. -/
def fchSetBlock (d : Dev) (ch : Nat) (x : FDesc) (k : Nat) : Dev × Nat :=
  let b := d.pblk k
  let beyond := !x.setMode && x.wp ≠ wpFull && cwCount b.slc < x.wp
  let wp := if beyond then wpFull else x.wp
  let ok := b.wp = wpFull ∨ wp = wpFull ∨ b.wp ≤ wp
  let b := if x.setWp && decide ok then { b with wp := wp } else b
  let b := { b with bad := b.bad || x.markBad, slc := if x.setMode then x.slc else b.slc }
  let n := b2n beyond + (if x.setWp && !decide ok then 1 else 0)
  ((d.setPblk k b).fchClamp ch n, n)

/-- The word of GET_BLOCK for one plane (Table 14-4). -/
def fchGetWord (d : Dev) (ch : Nat) (x : FDesc) (p : Nat) : Nat :=
  let b := d.pblk (pblkKey (dieNo ch x.target) p x.block)
  let y := d.die ch x.target
  b.wp + b2n b.slc * 2 ^ 13 + b2n b.bad * 2 ^ 14 + b2n (y.susp && y.erase.any (fun e => e.desc.block == x.block)) * 2 ^ 15

/-- The die has reached the suspended state (R379). -/
def fchSuspended (d : Dev) (ch t : Nat) : Dev :=
  let y := d.die ch t
  if y.suspReq && y.erase.isSome && !y.susp then
    (d.setDie ch t { y with susp := true, suspReq := false, ran := y.ran + (d.now - y.at'), at' := d.now, suspCnt := y.suspCnt + 1 }).count
      (R.fchSuspCnt ch) (R.fchEvt ch) F.fchEvt_suspOvf
  else d

/-- The controller's part of start-up for one channel (R385, R386): pointers full, modes QLC, marks clear but for the plane-blocks
that the factory tables and the grown-defect map record (R383, Table 15-6), queues and dies idle; the code words of an operation that the reset interrupted read as they may. -/
def fchInit (d : Dev) (ch : Nat) (dies : Nat) : Dev :=
  let cutOff := ((d.fch ch).dies.flatMap (fun p => (p.2.op.toList ++ p.2.erase.toList))).filter (fun o => o.kind ≠ 1)
  let d := cutOff.foldl (fun d o => (descBlks ch o.desc).foldl (fun d k =>
    let (c, d) := d.choose 3
    let ws := if c = 0 then d.flash.words
      else if c = 1 then d.flash.words.filter (fun w => w.1 / 6144 ≠ k)
      else d.flash.words.map (fun w => if w.1 / 6144 = k then (w.1, { w.2 with lost := true }) else w)
    { d with flash := { d.flash with words := ws } }) d) d
  let d := d.setFch ch FchSt.reset
  let mine := fun (k : Nat) => k / 2542 / 4 / 12 == ch
  let d := { d with flash := { d.flash with blocks := d.flash.blocks.filter (fun b => !mine b.1) } }
  let d := (List.range 12).foldl (fun d t => d.setDie ch t { DieSt.reset with failed := decide (dies ≤ t) }) d
  let d := ((Tab.keys d.flash.factory ++ Tab.keys d.flash.grown).filter mine).foldl (fun d k => d.setPblk k { d.pblk k with bad := true }) d
  d.setFlds (R.fchStatus ch) [(F.fchStatus_dies, dies), (F.fchStatus_ready, 1), (F.fchStatus_failed, 4096 - 2 ^ dies)]

end Dev

end Sys2Proof.Machine
end

