-- ==== Sys2Proof/Machine/Ftl.lean ====
section
/-! DEFINITION. The flash translation layer and the write buffer (chapter 15): admission, map, heat, collection, journal,
flush and recovery. -/
namespace Sys2Proof.Machine

/-- Superblocks in all, data blocks of one in each mode, data slots of the write buffer (R392, R402, Table 15-1). -/
def sbTotal : Nat := 121968
def sbBlocks (slc : Bool) : Nat := if slc then 190464 else 761856
def wbSlots : Nat := 3932160
/-- Logical blocks of the user space (R390). -/
def userBlocks : Nat := 78125000000
/-- Entries of the shared pool of fine and packed entries (R398). -/
def finePool : Nat := 2 ^ 32

/-- A version of zeros. -/
def LVer.zero : LVer := ⟨[], [], false⟩

namespace Dev

def setFtl (d : Dev) (f : FtlSt → FtlSt) : Dev := { d with ftl := f d.ftl }
def sb (d : Dev) (i : Nat) : Sb := Tab.getD d.ftl.sbs i Sb.fresh
def setSb (d : Dev) (i : Nat) (x : Sb) : Dev := d.setFtl (fun f => { f with sbs := Tab.store f.sbs i x Sb.fresh })

/-- F, the superblocks in the free pool (R407). -/
def sbF (d : Dev) : Nat := sbTotal - (d.ftl.sbs.filter (fun p => p.2.use ≠ .free)).length
/-- G, the good superblocks (R395). -/
def sbG (d : Dev) : Nat := sbTotal - (d.ftl.sbs.filter (fun p => p.2.use = .retired)).length
/-- CRIT, LOW and HIGH, as they are in effect. -/
def gcCrit (d : Dev) : Nat := getF d.ftl.lim0 F.ftlGcLim0_crit
def gcLow (d : Dev) : Nat := getF d.ftl.lim0 F.ftlGcLim0_low
def gcHigh (d : Dev) : Nat := getF d.ftl.lim1 F.ftlGcLim1_high
/-- N_need (Table 15-1). -/
def sbNeed (d : Dev) : Nat := 102645 + d.gcCrit

/-- Appends a journal record (R410). -/
def jot (d : Dev) (k : JKind) (arg : Nat) : Dev :=
  d.setFtl (fun f => { f with seq := f.seq + 1, tail := f.tail ++ [⟨k, f.seq + 1, arg⟩] })

/-- The newest version of a logical block (R402, R403): its slot, else flash, else zeros. -/
def newest (d : Dev) (b : Nat) : LVer :=
  match Tab.find d.ftl.slots b with
  | some s => s.ver
  | none => match Tab.find d.ftl.flash b with
    | some v => v.ver
    | none => LVer.zero

/-- A read of a block: a block served from a slot counts (R403). -/
def sampleBlk (d : Dev) (b : Nat) : LVer × Dev :=
  (d.newest b, if (Tab.find d.ftl.slots b).isSome then d.count R.wbcHitCnt R.wbcEvt F.wbcEvt_hitOvf else d)

/-- The block is mapped: a slot or flash holds a version that is no deallocation. -/
def mapped (d : Dev) (b : Nat) : Bool :=
  match Tab.find d.ftl.slots b with
  | some s => !s.trim
  | none => (Tab.find d.ftl.flash b).isSome

/-- Counts a block that becomes poisoned (R401). -/
def countPoison (d : Dev) : Dev := (d.count R.ftlPoisonCnt R.ftlEvt F.ftlEvt_poisonOvf).setFld R.ftlEvt F.ftlEvt_poison 1

/-- The free superblock of least wear, the lowest index among equals (R397). -/
def allocSb (d : Dev) : Option Nat :=
  let fresh := Tab.firstFree d.ftl.sbs sbTotal 0
  let l := d.ftl.sbs.filter (fun p => p.2.use = .free)
  let best := l.foldl (fun acc p => match acc with | none => some p | some q => if p.2.wear < q.2.wear then some p else some q) (none : Option (Nat × Sb))
  match best with
  | none => if fresh < sbTotal then some fresh else none
  | some (i, x) => if fresh < sbTotal && (0 < x.wear || fresh < i) then some fresh else some i

/-- Code words that parity adds as a superblock fills from u to v data blocks (R394). -/
def parityWords (u v : Nat) : Nat := (v / 124 - u / 124) * 4

/-- Programs one data block into an open QLC superblock, opening one where none has room; answers where it went. -/
def programBlk (d : Dev) : Option (Nat × Dev) :=
  let cur := d.ftl.sbs.find? (fun p => p.2.use = .open' && !p.2.slc && p.2.used < sbBlocks false)
  let got : Option (Nat × Dev) := match cur with
    | some (i, _) => some (i, d)
    | none => (d.allocSb).map (fun i => (i, (d.setSb i { d.sb i with use := .open', slc := false, used := 0 }).jot .openSb i))
  got.map (fun p =>
    let x := p.2.sb p.1
    let u := x.used + 1
    let d := p.2.setSb p.1 { x with used := u, use := if u = sbBlocks false then .closed else x.use }
    (p.1, d.addPair R.ftlMediawLo (4096 * (1 + parityWords x.used u)) R.ftlEvt F.ftlEvt_wrap))

/-- An erased superblock returns to the free pool: the intent and the end are journaled, its count rises (R397, R410). -/
def freeSb (d : Dev) (i : Nat) : Dev :=
  let d := (d.jot .eraseIntent i).jot .eraseDone i
  d.setSb i { d.sb i with use := .free, slc := false, used := 0, wear := min 65535 ((d.sb i).wear + 1) }
/-- The flush region that was read at start-up is erased once every slot restored from it has been written (Table 15-6 step 7). -/
def dropFlush (d : Dev) : Dev :=
  if d.ftl.restored ≠ [] || d.ftl.oldFlush = [] then d
  else d.ftl.oldFlush.foldl (fun d i => d.freeSb i) (d.setFtl (fun f => { f with oldFlush := [] }))
/-- Writes one version of a block to flash and journals it; the slot becomes free (R404, R410). -/
def storeBlk (d : Dev) (b : Nat) (v : LVer) (trim : Bool) : Dev :=
  if trim then
    ((d.setFtl (fun f => { f with flash := Tab.del f.flash b, packed := Tab.del f.packed b, slots := Tab.del f.slots b, restored := f.restored.filter (· ≠ b) })).jot .trim b).dropFlush
  else
    match d.programBlk with
    | none => d
    | some (i, d) =>
      ((d.setFtl (fun f => { f with flash := Tab.put f.flash b ⟨v, i⟩, slots := Tab.del f.slots b, restored := f.restored.filter (· ≠ b) })).jot
        (if v.poisoned then .poison else .map) b).dropFlush

def unit (d : Dev) (u : Nat) : MapUnit := Tab.getD d.ftl.units u ⟨false, 0, []⟩
def setUnit (d : Dev) (u : Nat) (x : MapUnit) : Dev := d.setFtl (fun f => { f with units := Tab.store f.units u x ⟨false, 0, []⟩ })
/-- Packed entries: one for each 4 KiB block of a Rind object of tier 3, and of one that moves there (R400). -/
def packedCnt (d : Dev) : Nat :=
  (d.tier.objs.map (fun p => if p.2.rind && (p.2.tier == 3 || p.2.move.any (·.tier == 3)) then ceilDiv p.2.size 4096 else 0)).foldl (· + ·) 0
/-- Free entries of the shared pool (R398, R400). -/
def fineFree (d : Dev) : Nat := finePool - 16 * (d.ftl.units.filter (·.2.fine)).length - d.ftl.packed.length - d.packedCnt
/-- A logical block that a packed entry maps. -/
def isPacked (d : Dev) (b : Nat) : Bool := d.tier.objs.any (fun p => p.2.rind && p.2.tier == 3 && decide (p.2.base ≤ 4096 * b) && decide (4096 * b < p.2.base + p.2.size))

/-- Writes the dirty slots of a 64 KiB unit to flash (R399, R404): a partial flush of a coarse unit raises its heat and
rewrites the whole unit, or makes it fine. -/
def flushUnit (d : Dev) (u : Nat) : Dev :=
  let bs := upFrom (16 * u) 16
  let dirty := bs.filter (fun b => (Tab.find d.ftl.slots b).isSome)
  if dirty.isEmpty then d else
  let x := d.unit u
  let partly := !x.written.isEmpty && x.written.length < 16 && !d.isPacked (16 * u)
  let heat := if partly then min 15 (x.heat + 1) else x.heat
  let hot := partly && !x.fine && getF d.ftl.heatCfg F.ftlHeat_promote ≤ heat
  let grant := hot && 2 ^ 28 ≤ d.fineFree
  let d := if hot && !grant then d.setFld R.ftlEvt F.ftlEvt_promoteFull 1 else d
  let d := if grant then d.count R.ftlPromoteCnt R.ftlEvt F.ftlEvt_promoteOvf else d
  let others := if x.fine || grant || d.isPacked (16 * u) then [] else bs.filter (fun b => !dirty.contains b && (Tab.find d.ftl.flash b).isSome)
  let d := dirty.foldl (fun d b => match Tab.find d.ftl.slots b with
    | some s => d.storeBlk b s.ver s.trim
    | none => d) d
  let d := others.foldl (fun d b => match Tab.find d.ftl.flash b with
    | some v => d.storeBlk b v.ver false
    | none => d) d
  d.setUnit u ⟨x.fine || grant, heat, []⟩

/-- Room for one more admission: a data slot, or a slot that the block already has. -/
def slotFree (d : Dev) (b : Nat) : Bool := (Tab.find d.ftl.slots b).isSome || d.ftl.slots.length < wbSlots
/-- Some victim would yield space. -/
def victimYields (d : Dev) : Bool :=
  d.ftl.sbs.any (fun p => p.2.use = .closed && (d.ftl.flash.filter (fun v => v.2.sb = p.1)).length < sbBlocks p.2.slc)
/-- Read-only retirement is entered at a user write with no room anywhere (R415). -/
def tryRetire (d : Dev) (b : Nat) : Dev :=
  if d.sbG < d.sbNeed && !d.slotFree b && d.sbF ≤ d.gcCrit && !d.victimYields then d.setFtl (fun f => { f with retired := true }) else d
/-- The admission law (R402, R404, R408): open, a slot free, and above LOW or with credit. -/
def canAdmit (d : Dev) (b : Nat) : Bool :=
  d.ftl.admOpen && !d.ftl.retired && d.slotFree b && (d.gcLow ≤ d.sbF || (d.gcCrit < d.sbF && 4096 ≤ d.ftl.credit))

/-- Admits a version as the newest of its block (R402); in write-through mode it goes to flash at once (R405). -/
def admitVer (d : Dev) (b : Nat) (v : LVer) (trim : Bool) : Dev :=
  let d := if d.gcLow ≤ d.sbF then d else d.setFtl (fun f => { f with credit := f.credit - 4096 })
  let was := (d.newest b).poisoned
  let d := d.setFtl (fun f => { f with slots := Tab.put f.slots b ⟨v, d.now, trim⟩, restored := f.restored.filter (· ≠ b), lastWrite := d.now, gcIdle := false })
  let x := d.unit (b / 16)
  let d := if x.written.contains b then d else d.setUnit (b / 16) { x with written := b :: x.written }
  let d := d.addPair R.ftlUserwLo 4096 R.ftlEvt F.ftlEvt_wrap
  let d := if v.poisoned && !was then d.countPoison else d
  if d.flag R.ftlHoldup F.ftlHoldup_wt then d.flushUnit (b / 16) else d

/-- The version that a write of part of a block makes of the newest one (R401, R402). -/
def mergeVer (old : LVer) (w : AdmWait) : LVer :=
  if w.trim then LVer.zero
  else if w.poison then { old with poisoned := true }
  else
    let whole := w.mask = [(0, 4096)]
    let base := if whole then [] else w.mask.foldl (fun c m => Memory.wipe c m.1 m.2) old.data
    ⟨w.data.foldl (fun m c => Memory.set m c.1 c.2) base, w.side.getD old.side, old.poisoned && !whole⟩

/-- Performs the admission of one waiting write. -/
def admitOne (d : Dev) (w : AdmWait) : Dev := d.admitVer w.blk (mergeVer (d.newest w.blk) w) w.trim

/-- Asks for an admission: at once where it may be and nothing waits before it, else it waits (R402, R408). -/
def askAdmit (d : Dev) (w : AdmWait) : Dev :=
  let d := d.tryRetire w.blk
  if d.ftl.waits.isEmpty && d.canAdmit w.blk then d.admitOne w
  else
    let thr := d.sbF < d.gcLow
    let d := if thr then (d.count R.wbcThrCnt R.wbcEvt F.wbcEvt_thrOvf).setFld R.wbcEvt F.wbcEvt_throttle 1 else d
    d.setFtl (fun f => { f with waits := f.waits ++ [w] })

/-- Admits the oldest waiting write if it may be admitted. -/
def admitHead (d : Dev) : Option (Asker × Dev) :=
  match d.ftl.waits with
  | [] => none
  | w :: r =>
    if d.canAdmit w.blk then some (w.who, (d.setFtl (fun f => { f with waits := r })).admitOne w) else none

/-- Deallocates a block (R401): admitted as a write of zeros (R443). -/
def trimBlk (d : Dev) (b : Nat) : Dev := d.admitVer b LVer.zero true

/-- Bytes of tier 3: the newest version of each block; the flag tells that a poisoned block was met (R72, R401). -/
def t3read (d : Dev) (off n : Nat) : List Byte × Bool :=
  let bs := upFrom (off / 4096) ((off + n + 4095) / 4096 - off / 4096)
  ((List.range n).map (fun i => Memory.get (d.newest ((off + i) / 4096)).data ((off + i) % 4096)),
   n ≠ 0 && bs.any (fun b => (d.newest b).poisoned))
/-- The pieces of a byte range by logical block: block, offset within it, offset within the range, bytes. -/
def t3pieces (off n : Nat) : List (Nat × Nat × Nat × Nat) :=
  let b0 := off / 4096
  (upFrom b0 ((off + n + 4095) / 4096 - b0)).map (fun b =>
    let lo := max off (b * 4096)
    (b, lo - b * 4096, lo - off, min (off + n) ((b + 1) * 4096) - lo))
/-- Every block of a range may be admitted now. -/
def t3canWrite (d : Dev) (off n : Nat) : Bool := (t3pieces off n).all (fun p => d.canAdmit p.1)
/-- Stores bytes to tier 3, block by block (R72, R402). -/
def t3write (d : Dev) (off : Nat) (l : List Byte) : Dev :=
  (t3pieces off l.length).foldl (fun d p =>
    d.admitOne ⟨p.1, Memory.write [] p.2.1 ((l.drop p.2.2.1).take p.2.2.2), [(p.2.1, p.2.2.2)], none, false, false, .none⟩) d

/-- Superblocks that hold data, by valid blocks. -/
def validOf (d : Dev) (i : Nat) : Nat := (d.ftl.flash.filter (fun v => v.2.sb = i)).length
/-- The victim of collection (R407): failed members and failed dies first, then the least valid data, then lower wear, then
lower index. -/
def gcVictim (d : Dev) : Option Nat :=
  let l := d.ftl.sbs.filter (fun p => p.2.use = .closed || (p.2.use = .open' && p.2.failed))
  let l := if l.any (·.2.failed) then l.filter (·.2.failed) else l
  (l.foldl (fun acc p => match acc with
    | none => some p
    | some q =>
      let a := d.validOf p.1
      let b := d.validOf q.1
      if a < b || (a = b && p.2.wear < q.2.wear) then some p else some q) (none : Option (Nat × Sb))).map (·.1)

/-- Moves the valid blocks of a superblock (R399 item 5, R407 item 1): a fine unit that has cooled goes back to coarse. -/
def gcCopy (d : Dev) (v : Nat) : Dev :=
  (d.ftl.flash.filter (fun p => p.2.sb = v)).foldl (fun d p =>
    match d.programBlk with
    | none => d
    | some (i, d) =>
      let d := d.setFtl (fun f => { f with flash := Tab.put f.flash p.1 { p.2 with sb := i } })
      let x := d.unit (p.1 / 16)
      let d := if x.fine && x.heat = 0 && (upFrom (p.1 / 16 * 16) 16).all (fun b => (Tab.find d.ftl.flash b).isSome)
        then d.setUnit (p.1 / 16) { x with fine := false } else d
      d.jot .gcCommit p.1) d

/-- Starts the reclaim of a victim: copies, commits, records the intent to erase (R407 items 1 to 4); the limits as they are written now
take effect. -/
def gcReclaim (d : Dev) : Dev :=
  let fg := decide (d.sbF < d.gcLow)
  let bg := decide (d.sbF < d.gcHigh) && d.ftl.gcIdle
  let due := fg || bg || d.ftl.sbs.any (fun p => p.2.failed && p.2.use = .closed)
  if d.ftl.victim.isSome || !d.ftl.ready || !due then d else
  match d.gcVictim with
  | none => d
  | some v =>
    let n := d.validOf v
    let d := (d.gcCopy v).jot .eraseIntent v
    d.setFtl (fun f => { f with victim := some (v, fg, n), lim0 := d.reg R.ftlGcLim0, lim1 := d.reg R.ftlGcLim1, heatCfg := d.reg R.ftlHeat, intents := v :: f.intents, sbs := Tab.store f.sbs v { Tab.getD f.sbs v Sb.fresh with use := .reclaiming } Sb.fresh })

/-- Retires a superblock (R395). -/
def retireSb (d : Dev) (i : Nat) : Dev :=
  let d := (d.setSb i { d.sb i with use := .retired }).jot .retire i
  if d.sbG < d.sbNeed then d.setFld R.ftlEvt F.ftlEvt_retired 1 else d

/-- The group of a superblock index (R393). -/
def sbGroup (i : Nat) : Nat := i / 2541
/-- A superblock's group holds a failed die. -/
def groupFailed (d : Dev) (i : Nat) : Bool :=
  d.ftl.failedDies.any (fun x => x % 12 * 4 + x / 12 / 32 == sbGroup i)
/-- The superblock that a plane-block is a member of (R393): none for block 0. -/
def memberSb (k : Nat) : Option Nat :=
  let die := k / 2542 / 4
  if k % 2542 = 0 then none else some ((4 * (die % 12) + die / 12 / 32) * 2541 + (k % 2542 - 1))
/-- A donor for a failed member: a good plane-block of the same die and plane, of a retired superblock of the group (R395). -/
def donorFor (d : Dev) (k : Nat) : Option Nat :=
  let g := (memberSb k).map sbGroup
  ((d.ftl.sbs.filter (fun p => p.2.use = .retired && some (sbGroup p.1) == g)).map (fun p => k / 2542 * 2542 + p.1 % 2541 + 1)).find? (fun c =>
    !d.ftl.badMembers.contains c && !(Tab.find d.flash.grown c).isSome && !(Tab.find d.flash.factory c).isSome &&
    !(d.ftl.donated.any (fun q => q.2 == c)) && !d.ftl.failedDies.contains (k / 2542 / 4))
/-- The failed members of an erased superblock are replaced; one that cannot be completed is retired (R395). Its wear is that of its most
worn member (R397). -/
def repairSb (d : Dev) (i : Nat) : Dev :=
  let ks := d.ftl.badMembers.filter (fun k => memberSb k == some i)
  let d := ks.foldl (fun d k => match d.donorFor k with
    | none => d
    | some c =>
      let w := match memberSb c with | some j => (d.sb j).wear | none => 0
      (d.setFtl (fun f => { f with badMembers := f.badMembers.filter (· ≠ k), donated := f.donated ++ [(k, c)] })).setSb i { d.sb i with wear := max (d.sb i).wear w }) d
  if d.ftl.badMembers.any (fun k => memberSb k == some i) then d.retireSb i else d.setSb i { d.sb i with failed := false }
/-- A plane-block of a superblock has failed (R395): an erased superblock is completed from a donor or retired, the data of another is
moved before its next erase. -/
def memberFailed (d : Dev) (k : Nat) : Dev :=
  match memberSb k with
  | none => d
  | some i =>
    let d := d.setFtl (fun f => { f with badMembers := if f.badMembers.contains k then f.badMembers else f.badMembers ++ [k] })
    match (d.sb i).use with
    | .retired => d
    | .free => d.repairSb i
    | _ => d.setSb i { d.sb i with failed := true }

/-- The end of a reclaim (R407 item 5, R408): the erase is done, its count rises, the superblock returns to the pool or is
retired, a foreground reclaim adds credit. -/
def gcComplete (d : Dev) : Dev :=
  match d.ftl.victim with
  | none => d
  | some (v, fg, n) =>
    let x := d.sb v
    let d := d.jot .eraseDone v
    let d := d.setFtl (fun f => { f with victim := none, intents := f.intents.filter (· ≠ v) })
    let d := d.setSb v { x with use := .free, used := 0, wear := min 65535 (x.wear + 1), slc := false }
    let d := if d.groupFailed v then d.retireSb v else if x.failed then d.repairSb v else d.setSb v { d.sb v with failed := false }
    let d := d.count R.ftlGcCnt R.ftlEvt F.ftlEvt_gcOvf
    let cap := 4096 * sbBlocks x.slc
    let freed := cap - 4096 * n
    let f := d.sbF
    let add := if d.gcLow ≤ f then 0 else freed * (f - d.gcCrit) / (d.gcLow - d.gcCrit)
    d.setFtl (fun s => { s with credit := if d.gcLow ≤ f then 0 else if fg then s.credit + add else s.credit })

/-- A die has failed (R396): free superblocks of its group are retired, the others become victims ahead of all. -/
def ftlDieFailed (d : Dev) (ch t : Nat) : Dev :=
  let die := dieNo ch t
  if d.ftl.failedDies.contains die then d else
  let g := 4 * t + ch / 32
  let d := d.setFtl (fun f => { f with failedDies := die :: f.failedDies })
  let d := d.setFld R.ftlEvt F.ftlEvt_rebuild 1
  let d := (upFrom (g * 2541) 2541).foldl (fun d i => if (d.sb i).use = .free then d.retireSb i else d) d
  (upFrom (g * 2541) 2541).foldl (fun d i =>
    let x := d.sb i
    match x.use with
    | .free | .retired => d
    | .open' | .closed | .reclaiming => d.setSb i { x with failed := true }
    -- a superblock of a region is emptied into another, and retired
    | _ => match d.allocSb with
      | none => d.setSb i { x with failed := true }
      | some j => ((d.setSb j { d.sb j with use := x.use, slc := x.slc, used := x.used }).jot .openSb j).retireSb i) d

/-- Data of a failed die has not yet moved. -/
def rebuilding (d : Dev) : Bool := d.ftl.failedDies ≠ [] && d.ftl.flash.any (fun p => d.groupFailed p.2.sb)

/-- The flush of Table 15-5: slot directory, journal tail, dirty slots and the closing record go to the flush region. -/
def holdupFlush (d : Dev) (power : Bool) : Dev :=
  let (t, d) := d.choose 601
  let d := d.setFtl (fun f => { f with flushRec := some ⟨f.slots, f.tail, true, power, t⟩, admOpen := false })
  let d := d.count R.ftlFlushCnt R.ftlEvt F.ftlEvt_flushOvf
  d.setFlds R.wbcLastFlush [(F.wbcLastFlush_time, t), (F.wbcLastFlush_complete, 1), (F.wbcLastFlush_power, b2n power)]

/-- No flush runs: the next start finds no closing record (R413, R477). -/
def flushLost (d : Dev) (power : Bool) : Dev :=
  let d := d.setFtl (fun f => { f with flushRec := some ⟨f.slots, f.tail, false, power, 0⟩, admOpen := false })
  d.setFlds R.wbcLastFlush [(F.wbcLastFlush_time, 0), (F.wbcLastFlush_complete, 0), (F.wbcLastFlush_power, b2n power)]

/-- Poisons a block whose data in flash is lost (R401, R413); a newer version in a slot is not lost. -/
def poisonBlk (d : Dev) (b : Nat) : Dev :=
  if (Tab.find d.ftl.slots b).isSome then d else
  let v := d.newest b
  let d := if v.poisoned then d else d.countPoison
  let s := match Tab.find d.ftl.flash b with | some f => f.sb | none => 0
  (d.setFtl (fun f => { f with flash := Tab.put f.flash b ⟨{ v with poisoned := true }, s⟩, slots := Tab.del f.slots b })).jot .poison b

/-- Recovery at start-up (R413, R414, Table 15-6): the flush region is restored or its loss made known, pending erases are
finished, open superblocks are closed, admission opens. -/
def ftlRecover (d : Dev) (ms : Nat) : Dev :=
  let flushed := d.ftl.flushRec.any (·.closed)
  let d : Dev := match d.ftl.flushRec with
    | none => d
    | some r =>
      if r.closed then d.setFtl (fun f => { f with slots := r.slots, restored := Tab.keys r.slots, tail := r.tail })
      else
        let d := d.setFtl (fun f => { f with slots := [], flushLoss := true })
        let d := d.setFld R.ftlEvt F.ftlEvt_flushLoss 1
        let recs : List JRec := r.tail.filter (fun j => j.kind = JKind.map && d.ftl.regionSeq < j.seq)
        let units : List Nat := (recs.map (fun j => j.arg / 16)).eraseDups
        let blks := (Tab.keys r.slots ++ units.flatMap (fun u => upFrom (16 * u) 16)).eraseDups
        blks.foldl (fun d b => d.poisonBlk b) d
  let d := d.ftl.intents.foldl (fun d v =>
    let x := d.sb v
    (d.setSb v { x with use := .free, used := 0, wear := min 65535 (x.wear + 1) }).jot .eraseDone v) d
  let d := d.setFtl (fun f => { f with intents := [], victim := none, flushRec := none, ready := true, admOpen := true })
  let d := d.setFtl (fun f => { f with sbs := f.sbs.map (fun p => if p.2.use = .open' then (p.1, { p.2 with use := .closed }) else p), g0 := if f.g0 = 0 then sbTotal else f.g0 })
  -- a new flush region is taken from the free pool where the old one was used (Table 15-6 steps 6 and 7)
  let olds := (d.ftl.sbs.filter (fun p => p.2.use = .flush && !d.ftl.oldFlush.contains p.1)).map (·.1)
  let d := if !flushed then d else
    (olds.foldl (fun d _ => match d.allocSb with
      | none => d
      | some j => (d.setSb j { d.sb j with use := .flush, slc := true, used := 0 }).jot .openSb j) d).setFtl (fun f => { f with oldFlush := f.oldFlush ++ olds })
  d.dropFlush.setReg R.ftlRecovMs (BitVec.ofNat 32 ms)

/-- The journal tail is written to the journal region (R410). -/
def writeTail (d : Dev) : Dev := d.setFtl (fun f => { f with regionSeq := f.seq, tail := [] })

/-- What FTL_* and WBC_STATUS read as, where they are counted rather than stored (Tables 15-7b to 15-7d, 15-8); the fields
read 0 until recovery is complete. -/
def ftlReg (d : Dev) (a : Nat) : Option W32 :=
  let r := fun (n : Nat) => some (if d.ftl.ready then BitVec.ofNat 32 n else 0#32)
  if a = R.ftlState then r (1 + b2n d.ftl.retired * 2 + b2n (d.flag R.ftlHoldup F.ftlHoldup_wt) * 4 +
      b2n (d.ftl.victim.any (·.2.1)) * 8 + b2n (d.ftl.victim.any (!·.2.1)) * 16 + b2n d.rebuilding * 32)
  else if a = R.ftlSbFree then r d.sbF
  else if a = R.ftlSbGood then r d.sbG
  else if a = R.ftlSbNeed then r d.sbNeed
  else if a = R.ftlErase then
    let ws := (d.ftl.sbs.filter (fun p => p.2.use ≠ .retired)).map (·.2.wear)
    r (ws.foldl max 0 + ws.foldl (· + ·) 0 / max 1 d.sbG * 65536)
  else if a = R.ftlFineFree then r (min 0xFFFFFFFF d.fineFree)
  else if !d.ftl.ready && [R.ftlHoldup, R.ftlUserwLo, R.ftlUserwLo + 4, R.ftlMediawLo, R.ftlMediawLo + 4, R.ftlRecovMs, R.ftlEvt, R.ftlGcCnt, R.ftlPoisonCnt,
    R.ftlPromoteCnt, R.ftlFlushCnt].contains a then some 0#32
  else if a = R.wbcStatus then
    some (BitVec.ofNat 32 (b2n d.ftl.admOpen + b2n (wbSlots * d.fld R.wbcCtrl F.wbcCtrl_hiwat < 256 * d.ftl.slots.length) * 2 +
      d.ftl.slots.length * 4096 / 2 ^ 20 * 65536))
  else none

/-- SMART Available Spare (R416). -/
def availSpare (d : Dev) : Nat :=
  let g0 := if d.ftl.g0 = 0 then sbTotal else d.ftl.g0
  if d.sbG < d.sbNeed || g0 ≤ d.sbNeed then 0 else 100 * (d.sbG - d.sbNeed) / (g0 - d.sbNeed)

/-- A measurement of the hold-up energy (R405). -/
def holdupMeasure (d : Dev) (mj : Nat) : Dev :=
  let wt := decide (mj < 6000)
  let was := d.flag R.ftlHoldup F.ftlHoldup_wt
  let d := d.setFlds R.ftlHoldup [(F.ftlHoldup_mj, mj), (F.ftlHoldup_wt, b2n wt)]
  if wt && !was then ((Tab.keys d.ftl.slots).map (· / 16)).eraseDups.foldl (fun d u => d.flushUnit u) (d.setFld R.ftlEvt F.ftlEvt_wt 1) else d

/-- Writes every dirty slot to QLC (R404, R418). -/
def drain (d : Dev) : Dev :=
  (((Tab.keys d.ftl.slots).map (· / 16)).eraseDups.foldl (fun d u => d.flushUnit u) d).writeTail

end Dev

end Sys2Proof.Machine
end

