-- ==== Sys2Proof/Machine/Aon.lean ====
section
/-! DEFINITION. The standby rail's records: the persistent log, images, settings, keys, power cap, life cycle (chapters 18
and 19). -/
namespace Sys2Proof.Machine

/-- The decimal digits of a number below 256. -/
def digits (v : Nat) : List Byte :=
  let c := fun (x : Nat) => BitVec.ofNat 8 (48 + x % 10)
  if v < 10 then [c v] else if v < 100 then [c (v / 10), c v] else [c (v / 100), c (v / 10), c v]
/-- The firmware revision: major, minor and patch of an image (R2, Table 18-9). -/
def fwRev (i : Option Img) : List Byte :=
  match i with
  | none => List.replicate 8 0x20#8
  | some i =>
    let b := Memory.read i.bytes 6 3
    (digits (b.getD 0 0#8).toNat ++ [0x2E#8] ++ digits (b.getD 1 0#8).toNat ++ [0x2E#8] ++ digits (b.getD 2 0#8).toNat ++ List.replicate 8 0x20#8).take 8

namespace State

def onDev (s : State) (f : Dev → Dev) : State := { s with dev := f s.dev }
def onAon (s : State) (f : AonSt → AonSt) : State := { s with aon := f s.aon }

/-- Appends an entry to the persistent log (R492): the newest 64,000 are kept. -/
def logPut (s : State) (e : LogEnt) : State :=
  let full := 64000 ≤ s.aon.log.length
  let s := s.onAon (fun a => { a with log := (e :: a.log).take 64000, uncommitted := min 64000 (a.uncommitted + 1) })
  if full then s.onDev (fun d => d.setFld R.tahrEvt F.tahrEvt_logWrap 1) else s

/-- The TS field of a management event (R494). -/
def logTs (s : State) : W64 := if s.aon.mainGood then BitVec.ofNat 64 s.dev.now else BitVec.ofNat 64 (s.aon.ns % 2 ^ 63 + 2 ^ 63)

/-- Writes a management event (R493): class, cause, code, argument, address. The sequence word is not stated (log 5). -/
def event (s : State) (cls cause code arg : Nat) (addr : W64) : State :=
  let (q, d) := s.dev.draw
  let s := { s with dev := d }
  s.logPut ⟨s.logTs, addr, BitVec.ofNat 64 (0x4000 + 0x4000 * 2 ^ 16 + cls * 2 ^ 32 + 2 * 2 ^ 34 + 9 * 2 ^ 40 + cause * 2 ^ 44 + 2 * 2 ^ 50),
    BitVec.ofNat 64 (q.toNat % 2 ^ 32 + (code + arg % 65536 * 65536) * 2 ^ 32)⟩

/-- An event of cause SECURITY and class 0. -/
def secEvent (s : State) (code arg : Nat) : State := s.event 0 0x13 code arg 0#64

/-- A failed authentication (R493, R516): counted, flagged, logged with class 1. -/
def authFailed (s : State) (what : Nat) : State :=
  (s.onDev (fun d => (d.count R.secAuthCnt R.secEvt F.secEvt_authOvf).setFld R.secEvt F.secEvt_auth 1)).event 1 0x13 0x000B what 0#64

end State

/-- Fields of an image header (Table 18-9). -/
def Img.num (i : Img) (at' n : Nat) : Nat := leVal (Memory.read i.bytes at' n)
def Img.svn (i : Img) : Nat := i.num 9 1
def Img.setFmt (i : Img) : Nat := i.num 10 2
def Img.setMin (i : Img) : Nat := i.num 12 2
/-- The bytes that the signature covers, SIG taken as zeros, with the signature before them (R508). -/
def Img.signed (i : Img) : List Byte :=
  1#8 :: Memory.read i.bytes 128 96 ++ Cells.bytes (Memory.wipe i.bytes 128 96) i.size

/-- The largest image: 96 MiB. -/
def imgMax : Nat := 100663296

/-- The checks of R509: the status of the first that fails. -/
def imgCheck (a : AonSt) (i : Img) : Option Nat :=
  let zero := fun (lo n : Nat) => (Memory.read i.bytes lo n).all (· == 0#8)
  if !(Memory.read i.bytes 0 4 == [0x4A#8, 0x56#8, 0x46#8, 0x57#8] && i.num 4 2 == 1 && i.num 16 4 == i.size && 256 ≤ i.size && i.size ≤ imgMax &&
      i.setMin ≤ i.setFmt && zero 14 2 && zero 121 7 && zero 224 32) then some 0x6A
  else if !(i.num 20 4 < 4 && Config.sigValid i.signed) then some 0x68
  else if i.svn < a.svn || 64 < i.svn then some 0x69
  else none

/-- The image in a slot, if the slot holds one. -/
def AonSt.img (a : AonSt) (slot : Nat) : Option Img := if slot = 1 then a.img1 else a.img2
/-- Sets the content of a slot. -/
def AonSt.setImg (a : AonSt) (slot : Nat) (i : Option Img) : AonSt := if slot = 1 then { a with img1 := i } else { a with img2 := i }
/-- The slot that is not active. -/
def AonSt.other (a : AonSt) : Nat := 3 - a.active
/-- A slot holds an image that passes R509. -/
def AonSt.slotValid (a : AonSt) (slot : Nat) : Bool := (a.img slot).any (fun i => (imgCheck a i).isNone)

/-- A piece of an update (R510, R514): the first erases the inactive slot; a gap or an overlap is refused. -/
def AonSt.piece (a : AonSt) (p : UpdPath) (off : Nat) (bs : List Byte) : Option AonSt :=
  let u := a.update.getD ⟨p, [], 0⟩
  if u.path ≠ p || off ≠ u.next || imgMax < off + bs.length then none
  else some { (a.setImg a.other none) with update := some { u with bytes := Memory.write u.bytes off bs, next := off + bs.length } }

/-- The end of an update: the bytes received are checked by R509 and, if accepted, stored in the inactive slot. -/
def State.storeImage (s : State) : Option Nat × State :=
  match s.aon.update with
  | none => (some 0x6A, s.secEvent 0x0004 0x6A)
  | some u =>
    let i : Img := ⟨u.bytes, u.next⟩
    match imgCheck s.aon i with
    | some st =>
      let s := s.onAon (fun a => { a with update := none })
      let s := if st = 0x68 then s.authFailed 1 else s
      (some st, s.secEvent 0x0004 st)
    | none =>
      let n := s.aon.other
      (none, (s.onAon (fun a => { (a.setImg n (some i)) with update := none })).secEvent 0x0003 n)

/-- Offsets under which the settings that are no register keep their place among a copy's values (R495). -/
def setPrefNode : Nat := 0x1000000
def setEnumStart : Nat := 0x1000001
def setRetire : Nat := 0x1000002

/-- The registers whose values are settings (R495). -/
def settingRegs : List Nat :=
  (List.range 64).map R.partKuduOwn ++ (List.range 32).map R.partChamOwn ++
  (List.range 16).flatMap (fun p => [R.partCfg p, R.partOryx p, R.partHerd p]) ++ [R.partCost] ++
  (List.range 4).map R.tierCtrl ++ [R.tierWait] ++ (List.range 16).flatMap (fun p => (List.range 4).map (fun u => R.tierQuota p u)) ++
  [R.hostPortcfg] ++ (List.range 4).map R.hostRights ++ [R.dirCfg] ++
  (List.range 8).map R.hbmcScrub ++ (List.range 16).map R.lpcScrub ++ (List.range 64).map R.kuduGap ++
  [R.ftlGcLim0, R.ftlGcLim1, R.ftlHeat, R.wbcCtrl, R.tahrTempLim, R.pwrCap]

/-- The RW bits of a register: what of it is a setting. -/
def rwMask (a : Nat) : W32 :=
  match regAt a with
  | none => 0#32
  | some x => BitVec.ofNat 32 (((x.spec.fields.filter (fun f => f.acc = .rw)).map (fun f => (2 ^ f.f.w - 1) * 2 ^ f.f.lo)).foldl (· + ·) 0)
/-- A register with its RW bits as they stand and every other bit at its reset value. -/
def Dev.setting (d : Dev) (a : Nat) : W32 := (d.reg a &&& rwMask a) ||| (regReset a &&& ~~~rwMask a)
/-- The present values of the settings, as a SAVE writes them: those that differ from the register's reset value. -/
def Dev.settingVals (d : Dev) (old : Tab W32) : Tab W32 :=
  let keep : Tab W32 := old.filter (fun p => 0x1000000 ≤ p.1)
  settingRegs.foldl (fun t a => if d.setting a = regReset a then t else Tab.put t a (d.setting a)) keep

/-- The factory settings (R222, R252): the run-time's four Chamois cores, every other core to partition 0, partition 0
enabled, tiers 1 and 2 in pool mode with the reset marks, all of tiers 3 and 5 given to partition 0. -/
def factoryVals : Tab W32 :=
  let kudu := (List.range 64).map (fun k => (R.partKuduOwn k, 0#32))
  let cham := (List.range 32).map (fun n => (R.partChamOwn n, if n = 0 || n = 1 || n = 16 || n = 17 then 0x10#32 else 0#32))
  (kudu ++ cham ++ [(R.partCfg 0, setF (regReset (R.partCfg 0)) F.partCfg_enable 1)] ++
    (List.range 4).map (fun u => (R.tierCtrl u, if u < 2 then setF (setF (setF (regReset (R.tierCtrl u)) F.tierCtrl_mode 1) F.tierCtrl_low 64) F.tierCtrl_high 128 else regReset (R.tierCtrl u))) ++
    [(R.tierQuota 0 2, 0x12309CE6#32), (R.tierQuota 0 3, 0x1000000#32)]).foldl (fun t p => Tab.put t p.1 p.2) []

/-- The settings that a start chooses (R497): the valid copy of highest sequence in a format the image takes. -/
def AonSt.chooseSettings (a : AonSt) (i : Img) : Option SetCopy :=
  let ok := (a.copyA.toList ++ a.copyB.toList).filter (fun c => i.setMin ≤ c.fmt && c.fmt ≤ i.setFmt)
  ok.foldl (fun acc c => match acc with | none => some c | some b => if b.seq < c.seq then some c else some b) (none : Option SetCopy)

/-- Writes a settings copy with the next sequence into the copy of lower sequence (R496). -/
def AonSt.writeCopy (a : AonSt) (fmt : Nat) (vals : Tab W32) : AonSt :=
  let sa := (a.copyA.map (·.seq)).getD 0
  let sb := (a.copyB.map (·.seq)).getD 0
  let c : SetCopy := ⟨fmt, max sa sb + 1, vals⟩
  if sa ≤ sb then { a with copyA := some c } else { a with copyB := some c }

/-- The settings that the firmware chooses at its boot (R497); the values stay in aon until step 7 loads them. -/
def State.loadSettings (s : State) (i : Img) : State × Tab W32 :=
  match s.aon.chooseSettings i with
  | some c =>
    let s := s.onDev (fun d => d.setFlds R.tahrStatus [(F.tahrStatus_ready, 1), (F.tahrStatus_defaulted, 0), (F.tahrStatus_setFmt, i.setFmt)])
    if c.fmt < i.setFmt then ((s.onAon (fun a => a.writeCopy i.setFmt c.vals)).secEvent 0x0002 c.fmt, c.vals) else (s, c.vals)
  | none =>
    let newest := (s.aon.copyA.toList ++ s.aon.copyB.toList).foldl (fun m c => if m.1 ≤ c.seq then (c.seq, c.fmt) else m) (0, 0xFFFF)
    let s := s.onDev (fun d => d.setFlds R.tahrStatus [(F.tahrStatus_ready, 1), (F.tahrStatus_defaulted, 1), (F.tahrStatus_setFmt, i.setFmt)])
    (s.secEvent 0x0001 newest.2, factoryVals)

/-- A SAVE (R496). -/
def State.saveSettings (s : State) : State :=
  let fmt := ((s.aon.running.bind s.aon.img).map Img.setFmt).getD (s.dev.fld R.tahrStatus F.tahrStatus_setFmt)
  let old := ((s.aon.copyA.toList ++ s.aon.copyB.toList).foldl (fun m c => if m.1 ≤ c.seq then (c.seq, c.vals) else m) ((0 : Nat), ([] : Tab W32))).2
  s.onAon (fun a => a.writeCopy fmt (s.dev.settingVals old))

/-- The logical blocks that a key slot keys (R499): tier 3 outside namespaces, a namespace's global range, or a locking range. -/
def State.keyedBlk (s : State) (slot b : Nat) : Bool :=
  let inExt := fun (n : Ns) => n.extents.any (fun e => e.1 ≤ b && b < e.1 + e.2)
  let lbaOf := fun (n : Ns) => (n.extents.foldl (fun acc e =>
    (acc.1 + e.2, if e.1 ≤ b && b < e.1 + e.2 then acc.1 + (b - e.1) else acc.2)) (0, 0)).2
  let inRange := fun (nsid : Nat) (n : Ns) (r : LockRange) => r.nsid == nsid && inExt n && r.start ≤ lbaOf n && lbaOf n < r.start + r.len
  if slot = 0 then !s.dev.host.nss.any (fun p => inExt p.2)
  else if slot ≤ 128 then
    s.dev.host.nss.any (fun p => p.1 == slot && inExt p.2 && !s.aon.opal.ranges.any (fun r => inRange p.1 p.2 r.2))
  else s.dev.host.nss.any (fun p => (Tab.find s.aon.opal.ranges (slot - 129)).any (fun r => inRange p.1 p.2 r))

/-- The key slot of a logical block (R499). -/
def State.keySlotOf (s : State) (b : Nat) : Nat :=
  ((upFrom 1 144).find? (fun k => s.keyedBlk k b)).getD 0

/-- A cryptographic erase of key slots (R500): each key is destroyed and made anew, its blocks are trimmed. -/
def State.cryptErase (s : State) (slots : List Nat) (all : Bool) : State :=
  let s := s.onAon (fun a => { a with keyGen := a.keyGen + slots.length, keys := slots.zipIdx.foldl (fun t p => Tab.put t p.1 (a.keyGen + p.2 + 1)) a.keys })
  let blks := (Tab.keys s.dev.ftl.flash ++ Tab.keys s.dev.ftl.slots).eraseDups
  let gone := blks.filter (fun b => slots.contains (s.keySlotOf b))
  let s := s.onDev (fun d => gone.foldl (fun d b => (d.setFtl (fun f => { f with flash := Tab.del f.flash b, slots := Tab.del f.slots b })).jot .trim b) d)
  let s := if slots.contains 0 then s.onDev (fun d => { d with tier := { d.tier with objs := d.tier.objs.filter (fun o => o.2.tier ≠ 3) }, search := { d.search with colls := d.search.colls.filter (fun c => c.2.home ≠ 3) } }) else s
  let s := s.onDev (fun d => d.setFld R.secEvt F.secEvt_key 1)
  if all then s.secEvent 0x000A 0xFFFF else slots.foldl (fun s k => s.secEvent 0x000A k) s

/-- Maximum power of a power state (Table 16-11). -/
def psWatts (ps : Nat) : Nat := [450, 350, 250, 60, 18].getD ps 18
/-- The device's power state: the lowest-numbered of its controllers' states (R447). -/
def Dev.devPs (d : Dev) : Nat :=
  (List.range ([1, 2, 4].getD (d.fld R.hostPortcfg F.hostPortcfg_mode) 1)).foldl (fun m p => min m (Tab.getD d.host.ctrls p Ctrl.reset).ps) 4

/-- The cap in force and what sets it (R522). -/
def State.updateCap (s : State) : State :=
  let w := s.dev.fld R.pwrCap F.pwrCap_w
  let p := psWatts s.dev.devPs
  let t := s.aon.thermCap
  let m := min w (min p t)
  s.onDev (fun d => d.setFlds R.pwrStatus [(F.pwrStatus_inForce, m), (F.pwrStatus_limit, if m = w then 0 else if m = p then 1 else 2)])

/-- A value written to PWR_CAP.W (R522): to a multiple of 25 and within 250 to 450; each change counts a clamp. -/
def capClamp (v : Nat) : Nat × Nat :=
  let r := alignDown v 25
  let c := clampTo 250 450 r
  (c, b2n (r != v) + b2n (c != r))

/-- Writes PWR_CAP. -/
def State.writeCap (s : State) (v : Nat) : State :=
  let (w, n) := capClamp (v % 512)
  (s.onDev (fun d => (d.setFld R.pwrCap F.pwrCap_w w).countN R.pwrClampCnt R.pwrEvt F.pwrEvt_clampOvf n)).updateCap

/-- The fault pair as the sequencer drives it (Table 17-12): both low without standby power or within 5 ms of it. -/
def State.drivePins (s : State) : State :=
  if !s.aon.standby || s.aon.ns < s.aon.standbyAt + 5000000 then s.onAon (fun a => { a with fltP := false, fltN := false })
  else s.onAon (fun a => { a with fltP := !s.dev.devFatal, fltN := s.dev.devFatal })

/-- Sensor readings in units of 0.125 °C as integers (Table 18-13b). -/
def Dev.temp (d : Dev) (i : Nat) : Int := signedOf 12 (d.fld (R.tahrTemp i) F.tahrTemp_temp)

/-- The composite temperature in kelvin (R491): the highest of sensors 0 to 39, rounded to the nearest integer. -/
def Dev.compositeK (d : Dev) : Nat :=
  let m := (List.range 40).foldl (fun m i => max m (d.temp i)) (-2048)
  ((m + 4) / 8 + 273).toNat

/-- Transitions of Table 18-6. -/
def lcAllowed (from' dest : Nat) : Bool :=
  (from', dest) ∈ [(0, 1), (1, 2), (1, 4), (2, 3), (2, 4), (3, 1), (3, 4)]

/-- The erasures of Table 18-7 on entry to a state. -/
def State.lcErase (s : State) (from' dest : Nat) : State :=
  match dest with
  | 1 => if from' = 0 then (s.onAon (fun a => { a with testKeys := false, idKey := true })).cryptErase (List.range 145) true else s
  | 3 =>
    let s := s.cryptErase (List.range 145) true
    s.onAon (fun a => { a with ownerKey := none, opal := ⟨false, [], []⟩, copyA := none, copyB := none })
  | 4 =>
    let s := s.cryptErase (List.range 145) true
    s.onAon (fun a => { a with keys := [], ownerKey := none, idKey := false, copyA := none, copyB := none, retired := [], bootCnt := 0, log := [], uncommitted := 0, img1 := none, img2 := none, opal := ⟨false, [], []⟩, lcFuse := true })
  | _ => s

/-- SEC registers that mirror the security block (Table 18-13a). -/
def State.secReg (s : State) (a : Nat) : Option W32 :=
  let n := fun (v : Nat) => some (BitVec.ofNat 32 v)
  if a = R.secLc then n (s.aon.lc + b2n s.aon.ownerKey.isSome * 8 + b2n (s.aon.lc == 0) * 16)
  else if a = R.secSvn then n (s.aon.svn + ((s.aon.running.bind s.aon.img).map Img.svn).getD 0 * 256 + b2n (s.aon.active == 2) * 65536)
  else if a = R.secSerialLo then n Config.serial.toNat
  else if a = R.secSerialHi then n (Config.serial.toNat / 2 ^ 32)
  else if a = R.secKeys then n (s.aon.keys.length + b2n s.aon.opal.enabled * 256)
  else if a = R.tahrLogCnt then n s.aon.log.length
  else none

end Sys2Proof.Machine
end

