-- ==== Sys2Proof/Machine/CoreReg.lean ====
section
/-! DEFINITION. What the status registers of a Kudu core and of a Chamois core read as while the unit is not fenced
(Tables 06-5b, 08-8a, 08-8i, 09-6a); a fence keeps the values of its moment (R80). -/
namespace Sys2Proof.Machine

/-- The transfer moves bytes between memory and scratch; else it sends tokens or replies from scratch (Table 08-1). -/
def Xfer.streams (t : Xfer) : Bool := t.kind != .send && t.kind != .reply
/-- The transfer reads scratch: a store, or tokens. -/
def Xfer.isStore (t : Xfer) : Bool := t.kind != .ld && t.kind != .pf
/-- The tensor outside scratch; of tokens, the headers. -/
def Xfer.far (t : Xfer) : Tensor := if t.isStore then t.dst else t.src
/-- The tensor in scratch; of tokens, the activations. -/
def Xfer.near (t : Xfer) : Tensor := if t.isStore then t.src else t.dst

namespace Dev

/-- The oldest transfer of an engine with bytes still to request (R204). -/
def candidate (x : Ctx) (e : Nat) : Option Xfer := x.xfers.find? (fun t => t.eng == e && t.granted < t.total)
/-- A transfer's deadline; none is infinite (R204). -/
def deadline (t : Xfer) (t0 : Nat) : Option Nat := if t.rate = 0 then none else some (t0 + t.g * 1024 / t.rate)
/-- Engines that compete on a core in the present step: candidate and deadline, with t0 set at the first such step (R204). -/
def seLive (d : Dev) (k : Nat) (x : Ctx) (e : Nat) : Option Xfer :=
  if d.flag (R.seCtrl k e) F.seCtrl_pause then none else candidate x e

/-- The context placed on a core, with its number. -/
def curCtx (d : Dev) (k : Nat) : Option (Nat × Ctx) := (d.core k).cur.bind (fun c => (d.ctx? c).map (fun x => (c, x)))
/-- KUDU_STATUS: STOPPED and FENCED as they stand; BUSY, the placed context and the owner as they are now. -/
def kuduStatusNow (d : Dev) (k : Nat) : W32 :=
  let busy := (List.range 4).any (fun m => (Tab.getD (d.core k).arrs m Arr.reset).density != 0 || d.flag (R.kuduMaStatus k m) F.kuduMaStatus_active)
  let cur := (d.core k).cur
  [(F.kuduStatus_busy, b2n busy), (F.kuduStatus_ctxValid, b2n cur.isSome), (F.kuduStatus_ctxId, cur.getD 0),
   (F.kuduStatus_part, if d.kuduOwner k < 16 then d.kuduOwner k else 0)].foldl (fun w p => setF w p.1 p.2) (d.reg (R.kuduStatus k))
/-- SE_STATUS of an engine of a core. -/
def seStatusNow (d : Dev) (k e : Nat) : W32 :=
  let y := d.core k
  let n := match d.curCtx k with | some p => (p.2.xfers.filter (·.eng == e)).length | none => 0
  let act := y.inflight.any (·.eng == e)
  let behind := match d.curCtx k with
    | some p => (d.seLive k p.2 e).any (fun t => match deadline t (t.t0.getD y.step) with | some dl => decide (dl < y.step) | none => false)
    | none => false
  BitVec.ofNat 32 (min n 7 + b2n act * 8 + b2n (d.flag (R.seCtrl k e) F.seCtrl_pause && !act) * 16 + b2n behind * 32)
/-- SCR_VALID word w of a core: a page is valid unless it lies in an allotment there whose context holds it invalid (R212). -/
def scrValidNow (d : Dev) (k w : Nat) : W32 :=
  let bad := (d.core k).resident.flatMap (fun c => match d.ctx? c with | some x => x.invalid.map (x.base / 4096 + ·) | none => [])
  if bad.isEmpty then 0xFFFFFFFF#32 else
  BitVec.ofNat 32 (((List.range 32).map (fun b => if bad.contains (32 * w + b) then 0 else 2 ^ b)).foldl (· + ·) 0)
/-- CHAM_STATUS: RUN, the owner and whether it is the run-time, as they are now. -/
def chamStatusNow (d : Dev) (n : Nat) : W32 :=
  let run := !d.flag (R.chamCtrl n) F.chamCtrl_halt && !d.flag (R.partChamOwn n) F.partChamOwn_pending
  [(F.chamStatus_run, b2n run), (F.chamStatus_runtime, b2n (d.chamOwner n == 16)), (F.chamStatus_owner, d.chamOwner n)].foldl (fun w p => setF w p.1 p.2) (d.reg (R.chamStatus n))

/-- Keeps the values of a Kudu core's computed registers as they stand (R80). -/
def keepKudu (d : Dev) (k : Nat) : Dev :=
  let e : Dev := (List.range 4).foldl (fun e i => e.setReg (R.seStatus k i) (d.seStatusNow k i)) (d.setReg (R.kuduStatus k) (d.kuduStatusNow k))
  (List.range 128).foldl (fun e w => e.setReg (R.scrValid k w) (d.scrValidNow k w)) e

end Dev

end Sys2Proof.Machine
end

