-- ==== Sys2Proof/Machine/Fault.lean ====
section
/-! DEFINITION. The fault logic (chapter 17): capture, counting, escalation, the log ring, fencing, the device stop. -/
namespace Sys2Proof.Machine

/-- KIND and instance of a unit ID (Table 17-8). -/
def unitKind (u : Nat) : Nat := u / 1024
def unitInst (u : Nat) : Nat := u % 1024

/-- The die on which a unit stands, and with it the FLT block that its checker reports to. -/
def unitDie (u : Nat) : Nat :=
  let i := unitInst u
  match unitKind u with
  | 1 => if i < 32 then 0 else 1
  | 2 => if i < 16 then 0 else 1
  | 3 => if i < 4 then 0 else 1
  | 4 => if i < 8 then 0 else 1
  | 5 => if i < 18 then 0 else 1
  | 6 => [0, 1, 0, 2, 1, 2].getD i 2
  | 7 | 8 | 9 | 0x13 => i
  | _ => 2

/-- The scope of a unit as master (Table 17-8): 0 core, 1 die, 2 device. -/
def unitScope (u : Nat) : Nat :=
  match unitKind u with
  | 1 | 2 | 0x0A | 0x0C => 0
  | 3 | 4 | 5 | 7 | 8 | 9 => 1
  | 6 => if unitInst u = 3 || unitInst u = 5 then 2 else 1
  | 0x13 => if unitInst u = 2 then 2 else 1
  | _ => 2

/-- Causes whose faults are exempt (R468). -/
def exemptCause (c : Nat) : Bool := [0x02, 0x07, 0x0F, 0x10, 0x14, 0x15].contains c

/-- A correction inside a stack, or of an LPDDR5X link transfer: a report of the controller with ACCESS 9 internal or 6 link, which counts at
0x010 and not as a controller correction (R485; DEDUCED, log 58). -/
def FaultReq.inMemory (f : FaultReq) : Bool := f.access = 9 || f.access = 6
/-- The scope a fault carries in its entry. -/
def FaultReq.scopeOf (f : FaultReq) : Nat := f.scope.getD (unitScope f.master)

/-- Word 2 of a log entry (Table 17-7). -/
def FaultReq.word2 (f : FaultReq) (cls die : Nat) (esc : Bool) : W64 :=
  BitVec.ofNat 64 (f.master + f.source * 2 ^ 16 + cls * 2 ^ 32 + f.scopeOf * 2 ^ 34 + b2n esc * 2 ^ 36 + b2n f.selftest * 2 ^ 37 +
    b2n f.inj * 2 ^ 38 + b2n (exemptCause f.cause) * 2 ^ 39 + f.access * 2 ^ 40 + f.cause * 2 ^ 44 + die * 2 ^ 50)

namespace Dev

/-- Writes an entry at the head of a block's ring (R471): where 256 are unconsumed the oldest is overwritten. -/
def ringPut (d : Dev) (b : Nat) (e : LogEnt) : Dev :=
  let h := d.fld (R.fltRingHead b) F.fltRingHead_head
  let ut := Tab.getD d.flt.unTail b 0
  let uh := Tab.getD d.flt.unTahr b 0
  let full := ut = 256 ∨ uh = 256
  let d := if full then d.count (R.fltRingOvfCnt b) (R.fltEvt b) F.fltEvt_ringOvf else d
  let d := if ut = 256 then d.setFld (R.fltRingTail b) F.fltRingTail_tail (h + 1) else d
  let d := if uh = 256 then d.setFld (R.fltRingTahr b) F.fltRingTahr_tahr (h + 1) else d
  let d := d.setFld (R.fltRingHead b) F.fltRingHead_head (h + 1)
  { d with flt := { d.flt with ring := Tab.put d.flt.ring (b * 256 + h) e, unTail := Tab.put d.flt.unTail b (min 256 (ut + 1)), unTahr := Tab.put d.flt.unTahr b (min 256 (uh + 1)), seq := Tab.put d.flt.seq b (Tab.getD d.flt.seq b 0 + 1) } }

/-- Captures a fault in a class's slot, writes its log entry and raises the run-time's interrupt (R466). -/
def capture (d : Dev) (b cls : Nat) (esc : Bool) (f : FaultReq) : Dev :=
  let d := d.setFlds (R.fltCapInfo b cls) [(F.fltCapInfo_valid, 1), (F.fltCapInfo_esc, b2n esc), (F.fltCapInfo_scope, f.scopeOf),
    (F.fltCapInfo_access, f.access), (F.fltCapInfo_cause, f.cause), (F.fltCapInfo_master, f.master)]
  let d := (d.setPair (R.fltCapAddrLo b cls) f.addr.toNat).setPair (R.fltCapTsLo b cls) d.now
  let d := (d.setFld (R.fltCapSrc b cls) F.fltCapSrc_source f.source).setReg (R.fltCapDetail b cls) (BitVec.ofNat 32 f.detail)
  let d := if cls = 1 then { d with flt := { d.flt with exempt := Tab.store d.flt.exempt b (exemptCause f.cause) false } } else d
  let d := d.ringPut b ⟨BitVec.ofNat 64 d.now, f.addr, f.word2 cls b esc, BitVec.ofNat 64 (Tab.getD d.flt.seq b 0 % 2 ^ 32 + f.detail % 2 ^ 32 * 2 ^ 32)⟩
  if d.flag (R.fltCtrl b) F.fltCtrl_irqEn then
    (List.range 32).foldl (fun d n => if d.chamOwner n = 16 then d.setFld (R.chamIrq n) F.chamIrq_fault 1 else d) d
  else d

/-- Counts a fault in its final class (R466). -/
def countClass (d : Dev) (b cls : Nat) : Dev :=
  match cls with
  | 0 => (d.count (R.fltCntCorr b) (R.fltEvt b) F.fltEvt_corrOvf).setFld (R.fltEvt b) F.fltEvt_corr 1
  | 1 => (d.count (R.fltCntCont b) (R.fltEvt b) F.fltEvt_contOvf).setFld (R.fltEvt b) F.fltEvt_cont 1
  | _ => (d.count (R.fltCntFatal b) (R.fltEvt b) F.fltEvt_fatalOvf).setFld (R.fltEvt b) F.fltEvt_fatal 1

/-- Records a fault (R466 to R468): captured, or counted and escalated; answers its final class. -/
def record (d : Dev) (f : FaultReq) : Nat × Dev :=
  let b := unitDie f.source
  let ex := exemptCause f.cause
  let raw := if ex then 1 else min f.cls 2
  let busy := d.flag (R.fltCapInfo b raw) F.fltCapInfo_valid
  if !busy then (raw, (d.countClass b raw).capture b raw false f)
  else if ex || (raw = 1 && Tab.getD d.flt.exempt b false) then (raw, d.countClass b raw)
  else
    let fin := min (raw + 1) 2
    let d := (d.count (R.fltEscCnt b) (R.fltEvt b) F.fltEvt_escOvf).setFld (R.fltEvt b) F.fltEvt_esc 1
    let d := d.countClass b fin
    (fin, if d.flag (R.fltCapInfo b fin) F.fltCapInfo_valid then d else d.capture b fin true f)

/-- Marks a unit fenced. -/
def addFence (d : Dev) (u : Nat) : Dev := { d with flt := { d.flt with fenced := u :: d.flt.fenced } }

/-- The requests of some contexts are answered to nobody (R211, R473). -/
def dropReplies (d : Dev) (cs : List Nat) : Dev :=
  { d with herd := { d.herd with fetched := d.herd.fetched.filter (fun f => !cs.contains (f.ctx.getD 4096)), outs := d.herd.outs.map (fun p =>
      match p.2.kind with
      | .fetch (some c) _ => if cs.contains c then (p.1, { p.2 with kind := .cancelled c }) else p
      | .load c _ _ _ | .store c _ | .amo c _ _ | .tdld c _ _ _ _ | .poll c _ _ | .bar c _ | .beat c _ _ _ _ | .beatSt c _ | .putNotify c _ | .receipts c _ =>
        if cs.contains c then (p.1, { p.2 with kind := .cancelled c }) else p
      | _ => p) } }

/-- Fences a Kudu core (Table 17-10): its contexts wait for the run-time to restart them (R237). The bytes in service of tier 0
(CAP_TIER_AVAIL) stay as they are: whether the core's 16 MiB of scratch leave them is open (R38, R109; DESIGN CHOICE, log 71). -/
def fenceKudu (d : Dev) (k : Nat) : Dev :=
  if d.isFenced (unitId 1 k) then d else
  let d := ((d.keepKudu k).addFence (unitId 1 k)).setFld (R.kuduStatus k) F.kuduStatus_fenced 1
  let d := d.setFld R.capKudu F.capKudu_inService (d.fld R.capKudu F.capKudu_inService - 1)
  let res := (d.core k).resident
  let d := res.foldl (fun d c => d.modCtx c (fun x => { x with fenced := true })) d
  (d.dropReplies res).modCore k (fun c => { c with inflight := [], cur := none })

/-- The run-time's Chamois cores in service. -/
def runtimeCores (d : Dev) : List Nat := (List.range 32).filter (fun n => d.chamOwner n = 16 && !d.isFenced (unitId 2 n))

/-- Fences a Chamois core (R476). -/
def fenceCham (d : Dev) (n : Nat) : Dev :=
  if d.isFenced (unitId 2 n) then d else
  let d := ((d.setReg (R.chamStatus n) (d.chamStatusNow n)).addFence (unitId 2 n)).setFld (R.chamStatus n) F.chamStatus_fenced 1
  (d.setFld R.capCham F.capCham_inService (d.fld R.capCham F.capCham_inService - 1)).setFld (R.chamStatus n) F.chamStatus_run 0

/-- Fences a Press core (R476). -/
def fencePress (d : Dev) (n : Nat) : Dev :=
  if d.isFenced (unitId 0x0C n) then d else
  (d.addFence (unitId 0x0C n)).setFlds (R.pressStatus n) [(F.pressStatus_fenced, 1), (F.pressStatus_run, 0)]

/-- The pass of an engine is discarded: its share goes to the arrays (R326, R331). -/
def dropPass (d : Dev) (ch : Nat) : Dev :=
  match Tab.find d.search.passes ch with
  | none => d
  | some p => { d with search := { d.search with passes := Tab.del d.search.passes ch, jobs := Tab.modify d.search.jobs p.job (fun j => { j with handed := ch :: j.handed }) } }

/-- Takes an Oryx engine out of service (R331, R476): the pass in progress is discarded. -/
def fenceOryx (d : Dev) (ch : Nat) : Dev :=
  if d.isFenced (unitId 0x0A ch) then d else
  let d := (d.addFence (unitId 0x0A ch)).setFlds (R.oryxStatus ch) [(F.oryxStatus_inService, 0), (F.oryxStatus_active, 0)]
  (d.setFld R.capSearch F.capSearch_oryx (d.fld R.capSearch F.capSearch_oryx - 1)).dropPass ch

/-- A die-scope fatal (R464): every core of the die is fenced. -/
def fenceDie (d : Dev) (die : Nat) : Dev :=
  let d := d.setFld (R.fltStatus die) F.fltStatus_dieFenced 1
  let d := (upFrom (32 * die) 32).foldl (fun d k => d.fenceKudu k) d
  (upFrom (16 * die) 16).foldl (fun d n => d.fenceCham n) d

/-- A device-scope fatal (Table 17-11). -/
def devStop (d : Dev) (source : Nat) : Dev :=
  if d.devFatal then d else
  let d := (List.range 3).foldl (fun d b => d.setFld (R.fltStatus b) F.fltStatus_devFatal 1) d
  let d := (List.range 64).foldl (fun d k => d.fenceKudu k) d
  let d := (List.range 32).foldl (fun d n => d.fenceCham n) d
  let d := { d with host := { d.host with ctrls := (List.range 4).foldl (fun t p => Tab.put t p { Tab.getD t p Ctrl.reset with cfs := true }) d.host.ctrls } }
  if !d.ftl.ready then d
  else if [0x0D, 0x0F, 0x0C].contains (unitKind source) then d.flushLost false
  else d.holdupFlush false

/-- What a fatal fault does by its scope (R464, R476): the last run-time core or Press core lost stops the device. -/
def fatalAct (d : Dev) (f : FaultReq) (scope : Nat) : Dev :=
  if scope = 0 then
    let i := unitInst f.master
    let had := !d.runtimeCores.isEmpty
    match unitKind f.master with
    | 1 => d.fenceKudu i
    | 2 =>
      let d := d.fenceCham i
      if had && d.runtimeCores.isEmpty then d.devStop f.source else d
    | 0x0C =>
      let d := d.fencePress i
      if (List.range 8).all (fun n => d.isFenced (unitId 0x0C n)) then d.devStop f.source else d
    | 0x0A => d.fenceOryx i
    | _ => d
  else if scope = 1 && unitDie f.master < 2 then
    let had := !d.runtimeCores.isEmpty
    let d := d.fenceDie (unitDie f.master)
    if had && d.runtimeCores.isEmpty then d.devStop f.source else d
  else d.devStop f.source

/-- What a fault does to the data it struck, before it is recorded: poison, controller counters, a lost line (R457, R474). -/
def faultData (d : Dev) (f : FaultReq) : Dev :=
  let t := addrTier f.addr
  let off := addrOff f.addr
  let mc := ctrlOf t off
  let b := mcBase mc.1 mc.2
  let hb := t = 1 ∨ t = 2
  match f.cause with
  | 0 =>
    if !hb then d
    else if f.inMemory then (d.count (b + 0x10) (b + 4) F.hbmcEvt_ondieOvf).setFld (b + 4) F.hbmcEvt_corr 1
    else (d.count (b + 8) (b + 4) F.hbmcEvt_corrOvf).setFld (b + 4) F.hbmcEvt_corr 1
  | 1 =>
    let d := if t ≤ 2 then d.poisonRange (memKey t off) 1 else d
    if hb then (d.count (b + 0xC) (b + 4) F.hbmcEvt_uncOvf).setFld (b + 4) F.hbmcEvt_unc 1 else d
  | 0x15 => if t ≤ 2 then d.poisonRange (memKey t (alignDown off 128)) 128 else d
  | _ => d

/-- Takes one fault: data, record, and the effect of a fault that ends fatal. Self-test failures are only recorded: their
actions are those of Table 17-4. -/
def takeFault (d : Dev) (f : FaultReq) : Dev :=
  let d := d.faultData f
  let (fin, d) := d.record f
  if fin = 2 && !f.selftest then d.fatalAct f (if f.cls = 2 then f.scopeOf else unitScope f.master) else d

/-- Inserts a report in ascending order of master (R469). -/
def insFault (f : FaultReq) : List FaultReq → List FaultReq
  | [] => [f]
  | g :: r => if f.master < g.master then f :: g :: r else g :: insFault f r

/-- Takes the reports of the present command one at a time, in ascending order of master unit ID (R469). -/
def settle (d : Dev) : Dev :=
  let l := d.flt.raised.foldl (fun acc f => insFault f acc) []
  let d := { d with flt := { d.flt with raised := [] } }
  l.foldl (fun d f => d.takeFault f) d

end Dev

/-- Ends a command that may report faults: the reports are taken and the fault pair follows DEV_FATAL (R478). -/
def State.settled (s : State) : State :=
  if s.dev.flt.raised.isEmpty then s else (s.onDev Dev.settle).drivePins

end Sys2Proof.Machine
end

