-- ==== Sys2Proof/Machine/Guard.lean ====
section
/-! DEFINITION. An access of a requester to one register, as the register bus checks it before the register acts (R79, R80). -/
namespace Sys2Proof.Machine

/-- How the bus answers an access to an offset: done, not done as its unit is fenced (R80), or a hole (R79). -/
inductive BusAns where
  | ok | frozen | hole
  deriving DecidableEq, Repr

/-- The answer to an access of a requester to an offset. -/
def Dev.busAns (d : Dev) (r : Req) (a : Nat) (wr : Bool) : BusAns :=
  match regAt a with
  | none => .hole
  | some x =>
    if !mayAccess d r x.row.blk x.inst (a - x.row.base - x.inst * x.row.stride) wr then .hole
    else if wr && (blkUnit x.row.blk x.inst).any (fun u => d.isFenced u) then .frozen
    else .ok

/-- An access to a hole: reads 0, writes nothing, counts one address clamp (R79); the answer carries CLAMPED (R75). -/
def Dev.holeAccess (d : Dev) (r : Req) (a : Nat) : Dev :=
  { d.addrClamp r 3 (d.regAddr a) with rdata := 0#64, rflags := 1 }

/-- Makes a register write whose effect is f, where the bus lets it. -/
def Dev.regDo (d : Dev) (r : Req) (a : Nat) (f : Dev → Dev) : Dev :=
  match d.busAns r a true with
  | .ok => f d
  | .frozen => d
  | .hole => d.holeAccess r a

/-- Makes a register write whose effect reaches beyond the main rails, where the bus lets it. -/
def State.regDo (s : State) (r : Req) (a : Nat) (f : State → State) : State :=
  match s.dev.busAns r a true with
  | .ok => f s
  | .frozen => s
  | .hole => s.onDev (fun d => d.holeAccess r a)

end Sys2Proof.Machine
end

