-- ==== Sys2Proof/Machine/Rind.lean ====
section
/-! DEFINITION. The Rind codec (R258 to R264): blocks of 4,096 bytes, index entries and payloads, to the bit. -/
namespace Sys2Proof.Machine

/-- MODE of an index entry (Table 10-5): 0 RAW, 1 ZERO, 2 EXPPLANE, 3 ZRUN. -/
def rindMode (e : W64) : Nat := bits64 e 0 2
/-- LEN of an index entry. -/
def rindLen (e : W64) : Nat := bits64 e 2 13
/-- NR of an index entry. -/
def rindNr (e : W64) : Nat := bits64 e 16 3
/-- The exponent field value of a rank. -/
def rindX (e : W64) (i : Nat) : Nat := bits64 e (32 + 8 * i) 8

/-- Element bits and exponent bits of the float class of Table 10-6; none for the integer class. -/
def rindFloat : Nat → Option (Nat × Nat)
  | 0 => some (32, 8) | 1 => some (16, 8) | 2 => some (16, 5) | 3 => some (8, 4) | 4 => some (8, 5) | _ => none
/-- The zero-run unit in bytes (Table 10-6). -/
def rindUnit : Nat → Nat
  | 10 => 4 | 11 => 8 | _ => 1

/-- Bits of a number, least significant first. -/
def bitList (w v : Nat) : List Bool := (List.range w).map (fun i => v.testBit i)
/-- A number from bits, least significant first. -/
def ofBits : List Bool → Nat
  | [] => 0
  | b :: r => b2n b + 2 * ofBits r
/-- Bits packed into bytes, padded with 0 to a whole byte (R260); fuel is the number of bytes. -/
def packBits : Nat → List Bool → List Byte
  | 0, _ => []
  | n + 1, bs => BitVec.ofNat 8 (ofBits (bs.take 8)) :: packBits n (bs.drop 8)
/-- The bits of bytes in stream order. -/
def unpackBits (bs : List Byte) : List Bool := bs.flatMap (fun b => bitList 8 b.toNat)

/-- The elements of a block as numbers of t bits. -/
def rindElems (t : Nat) : Nat → List Byte → List Nat
  | 0, _ => []
  | n + 1, bs => leVal (bs.take (t / 8)) :: rindElems t n (bs.drop (t / 8))

/-- How often a value occurs. -/
def countOf (v : Nat) (l : List Nat) : Nat := (l.filter (· == v)).length

/-- The value with the greatest count among candidates, a tie to the lower (the first met). -/
def bestRank (l : List Nat) : List Nat → Option Nat
  | [] => none
  | c :: cs => match bestRank l cs with
    | none => if countOf c l = 0 then none else some c
    | some d => if countOf c l ≥ countOf d l then some c else some d

/-- The first n exponent values by descending count (R262). -/
def topRanks (l : List Nat) : Nat → List Nat → List Nat
  | 0, _ => []
  | n + 1, cand => match bestRank l cand with
    | none => []
    | some v => v :: topRanks l n (cand.filter (· != v))

/-- Place of a value in the ranks. -/
def rankOf (v : Nat) : List Nat → Option Nat
  | [] => none
  | r :: rs => if r = v then some 0 else (rankOf v rs).map (· + 1)

/-- Plane 2 code of an exponent (R260). -/
def expCode (ex e : Nat) (ranks : List Nat) : List Bool :=
  match rankOf ex ranks with
  | some i => List.replicate i true ++ [false]
  | none => List.replicate ranks.length true ++ bitList e ex

/-- Plane 2 bits of a block's exponents under some ranks. -/
def plane2Bits (e : Nat) (ranks : List Nat) (exs : List Nat) : List Bool := exs.flatMap (fun x => expCode x e ranks)

/-- The NR from 0 to n that gives the fewest plane 2 bits, a tie to the lower (R262). -/
def bestNr (e : Nat) (ranks : List Nat) (exs : List Nat) : Nat → Nat
  | 0 => 0
  | n + 1 =>
    let b := bestNr e ranks exs n
    if n + 1 ≤ ranks.length ∧
       (plane2Bits e (ranks.take (n + 1)) exs).length < (plane2Bits e (ranks.take b) exs).length then n + 1 else b

/-- An index entry from its fields. -/
def rindEntry (mode len nr : Nat) (xs : List Nat) : W64 :=
  BitVec.ofNat 64 (mode + len * 4 + nr * 2 ^ 16 + (xs.getD 0 0) * 2 ^ 32 + (xs.getD 1 0) * 2 ^ 40
    + (xs.getD 2 0) * 2 ^ 48 + (xs.getD 3 0) * 2 ^ 56)

/-- Units of a block that are all zero, in order. -/
def zeroUnits (u : Nat) : Nat → List Byte → List Bool
  | 0, _ => []
  | n + 1, bs => (bs.take u).all (· == 0#8) :: zeroUnits u n (bs.drop u)

/-- Length of the leading run of one value. -/
def leadRun (b : Bool) : List Bool → Nat
  | [] => 0
  | x :: r => if x = b then leadRun b r + 1 else 0

/-- The literal run at the head: units up to the next zero run of at least minRun. -/
def literalRun (minRun : Nat) : Nat → List Bool → Nat
  | 0, _ => 0
  | _ + 1, [] => 0
  | f + 1, false :: r => literalRun minRun f r + 1
  | f + 1, true :: r =>
    let z := leadRun true (true :: r)
    if z ≥ minRun then 0 else literalRun minRun f ((true :: r).drop z) + z

/-- Tokens of a literal run, cut at 128 units from its start (R262). -/
def litTokens (u : Nat) : Nat → Nat → List Byte → List Byte
  | 0, _, _ => []
  | f + 1, n, bs => if n = 0 then [] else
    let k := min n 128
    BitVec.ofNat 8 (k - 1) :: (bs.take (k * u) ++ litTokens u f (n - k) (bs.drop (k * u)))
/-- Tokens of a zero run. -/
def zeroTokens : Nat → Nat → List Byte
  | 0, _ => []
  | f + 1, n => if n = 0 then [] else
    let k := min n 128
    BitVec.ofNat 8 (128 + k - 1) :: zeroTokens f (n - k)

/-- The ZRUN payload of a block (R261, R262). -/
def zrunEnc (u minRun : Nat) : Nat → List Bool → List Byte → List Byte
  | 0, _, _ => []
  | f + 1, zs, bs =>
    match zs with
    | [] => []
    | _ =>
      let z := leadRun true zs
      if z ≥ minRun then zeroTokens 33 z ++ zrunEnc u minRun f (zs.drop z) (bs.drop (z * u))
      else
        let l := literalRun minRun 4097 zs
        litTokens u 33 l bs ++ zrunEnc u minRun f (zs.drop l) (bs.drop (l * u))

/-- The device's code of a block of 4,096 bytes (R262): index entry and payload. -/
def rindEncode (fmt : Nat) (blk : List Byte) : W64 × List Byte :=
  if blk.all (· == 0#8) then (rindEntry 1 0 0 [], [])
  else match rindFloat fmt with
    | some (t, e) =>
      let n := 32768 / t
      let els := rindElems t n blk
      let fr := t - e - 1
      let exs := els.map (fun x => bitsOf x fr e)
      let ranks := topRanks exs 4 (List.range (2 ^ e))
      let nr := bestNr e ranks exs 4
      let p1 := els.flatMap (fun x => bitList fr x ++ [x.testBit (t - 1)])
      let p2 := plane2Bits e (ranks.take nr) exs
      let b1 := ceilDiv p1.length 8
      let b2 := ceilDiv p2.length 8
      if b1 + b2 < 4096 then (rindEntry 2 (b1 + b2) nr (ranks.take nr), packBits b1 p1 ++ packBits b2 p2)
      else (rindEntry 0 4096 0 [], blk)
    | none =>
      let u := rindUnit fmt
      let zs := zeroUnits u (4096 / u) blk
      let p := zrunEnc u (if u = 1 then 2 else 1) 4097 zs blk
      if p.length < 4096 then (rindEntry 3 p.length 0 [], p) else (rindEntry 0 4096 0 [], blk)

/-- Reads one exponent code: the exponent, or none where the bits run out. -/
def expDecode (e nr : Nat) (x : Nat → Nat) : Nat → Nat → List Bool → Option (Nat × List Bool)
  | 0, _, _ => none
  | f + 1, i, bs =>
    if i = nr then (if bs.length < e then none else some (ofBits (bs.take e), bs.drop e))
    else match bs with
      | [] => none
      | false :: r => some (x i, r)
      | true :: r => expDecode e nr x f (i + 1) r

/-- Reads n elements from the two planes. -/
def planesDecode (t e nr : Nat) (x : Nat → Nat) : Nat → List Bool → List Bool → Option (List Nat × List Bool)
  | 0, _, p2 => some ([], p2)
  | n + 1, p1, p2 =>
    let fr := t - e - 1
    match expDecode e nr x 6 0 p2 with
    | none => none
    | some (ex, p2') =>
      let v := ofBits (p1.take fr) + (ex % 2 ^ e) * 2 ^ fr + b2n (p1.getD fr false) * 2 ^ (t - 1)
      match planesDecode t e nr x n (p1.drop (fr + 1)) p2' with
      | none => none
      | some (vs, rest) => some (v :: vs, rest)

/-- Expands ZRUN tokens; none where a token is cut short. -/
def zrunDecode (u : Nat) : Nat → List Byte → Option (List Byte)
  | 0, bs => if bs = [] then some [] else none
  | _ + 1, [] => some []
  | f + 1, c :: r =>
    let k := (c.toNat % 128 + 1) * u
    if c.toNat ≥ 128 then (zrunDecode u f r).map (List.replicate k 0#8 ++ ·)
    else if r.length < k then none else (zrunDecode u f (r.drop k)).map (r.take k ++ ·)

/-- Expands a block; none for a malformed one (R263). -/
def rindDecode (fmt : Nat) (e : W64) (p : List Byte) : Option (List Byte) :=
  let len := rindLen e
  if len > 4096 ∨ p.length ≠ len then none else
  match rindMode e with
  | 0 => if len = 4096 then some p else none
  | 1 => if len = 0 then some (List.replicate 4096 0#8) else none
  | 2 =>
    match rindFloat fmt with
    | none => none
    | some (t, eb) =>
      if rindNr e > 4 then none else
      let n := 32768 / t
      let b1 := ceilDiv (n * (t - eb)) 8
      if p.length < b1 then none else
      match planesDecode t eb (rindNr e) (rindX e) n (unpackBits (p.take b1)) (unpackBits (p.drop b1)) with
      | none => none
      | some (vs, rest) => if rest.length < 8 then some (vs.flatMap (leBytes (t / 8))) else none
  | _ =>
    match rindFloat fmt with
    | some _ => none
    | none =>
      match zrunDecode (rindUnit fmt) 4097 p with
      | none => none
      | some bs => if bs.length = 4096 then some bs else none

/-- Bytes of flash a block is charged in tier 3 (R253). -/
def rindCharge (e : W64) : Nat := if rindMode e = 1 then 0 else ceilDiv (rindLen e) 512 * 512

end Sys2Proof.Machine
end

