-- ==== Sys2Proof/Machine/Home.lean ====
section
/-! DEFINITION. Accesses performed at this device as their home: forwards (R249), Rind blocks (R258), the directory's part in
a local access (R291 to R294), and the sending of messages and requests (R280, R281). -/
namespace Sys2Proof.Machine

/-- A range cut at 4 KiB boundaries: offset, place in the range, length of each piece. -/
def pieces (off n : Nat) : List (Nat × Nat × Nat) :=
  if n = 0 then [] else
  (List.range ((off % 4096 + n + 4095) / 4096)).map (fun i =>
    let lo := max off (alignDown off 4096 + 4096 * i)
    (lo, lo - off, min (off + n) (alignDown off 4096 + 4096 * (i + 1)) - lo))

/-- The lines of 128 bytes that a range touches, by key. -/
def linesOf (tier off n : Nat) : List Nat :=
  if n = 0 then [] else
  (List.range ((off % 128 + n + 127) / 128)).map (fun i => memKey tier (alignDown off 128 + 128 * i))

namespace Dev

/-- The object of a tier that holds an offset. -/
def objAt (d : Dev) (tier off : Nat) : Option (Nat × Obj) :=
  d.tier.objs.find? (fun o => o.2.tier == tier && o.2.base ≤ off && off < o.2.base + o.2.size)
/-- The forward whose old range holds an offset. -/
def fwdAt (d : Dev) (tier off : Nat) : Option (Nat × Forward) :=
  d.tier.forwards.find? (fun f => f.2.tier == tier && f.2.base ≤ off && off < f.2.base + f.2.size)
/-- Where an access is performed: an access to a forward, at the same offset from the object's new base (R249). -/
def resolve (d : Dev) (tier off : Nat) : Nat × Nat :=
  match d.fwdAt tier off with
  | none => (tier, off)
  | some f => match Tab.find d.tier.objs f.2.obj with
    | some o => (o.tier, o.base + (off - f.2.base))
    | none => (tier, off)

/-- A block of an imported Rind object whose stored encoding is malformed (R263). -/
def rindBad (d : Dev) (tier off : Nat) : Bool :=
  match d.objAt tier off with
  | none => false
  | some (_, o) =>
    o.rind && tier != 1 &&
    (match Tab.find o.enc ((off - o.base) / 4096) with
     | some e => (rindDecode o.fmt e.entry e.payload).isNone
     | none => false)

/-- The expanded bytes of a block of a Rind object, a last partial block padded with zeros (R258). -/
def rindBlock (d : Dev) (o : Obj) (b : Nat) : List Byte :=
  let n := min 4096 (o.size - 4096 * b)
  ((if o.tier = 3 then (d.t3read (o.base + 4096 * b) n).1 else d.mread o.tier (o.base + 4096 * b) n) ++ List.replicate (4096 - n) 0#8)
/-- The index entry and payload of a block: as they were imported or written, else the device's own code (R258, R262). -/
def rindStored (d : Dev) (o : Obj) (b : Nat) : W64 × List Byte :=
  match Tab.find o.enc b with
  | some e => (e.entry, e.payload)
  | none => rindEncode o.fmt (d.rindBlock o b)
/-- The Rind object whose index an offset of a tier lies in: its number, itself, the index. -/
def indexAt (d : Dev) (tier off : Nat) : Option (Nat × Obj × Obj) :=
  match d.objAt tier off with
  | none => none
  | some (j, x) => if x.kind = .index then (d.tier.objs.find? (fun o => o.2.idx == some j)).map (fun o => (o.1, o.2, x)) else none
/-- Bytes of an index: one 8-byte entry a block, then zeros (R258). -/
def indexBytesAt (d : Dev) (o x : Obj) (off n : Nat) : List Byte :=
  (List.range n).map (fun k =>
    let q := off + k - x.base
    if q / 8 < ceilDiv o.size 4096 then (leBytes 8 (d.rindStored o (q / 8)).1.toNat).getD (q % 8) 0#8 else 0#8)

/-- The memory controller of an offset that FLT_INJ arms for its next code word (R483): its unit ID and KIND. -/
def armed (d : Dev) (tier off : Nat) : Option (Nat × Nat) :=
  let c := ctrlOf tier off
  let u := unitId c.1 c.2
  let b := unitDie u
  if (tier = 1 || tier = 2) && d.flag (R.fltInj b) F.fltInj_arm && d.fld (R.fltInj b) F.fltInj_unit = u then some (u, d.fld (R.fltInj b) F.fltInj_kind) else none
/-- The injected error reaches the consumer (R483): a double one, or a single one that escalates to contained, as its data is then
marked poisoned (R467, Table 17-6). -/
def injBad (d : Dev) (tier off : Nat) : Bool :=
  match d.armed tier off with
  | some (u, k) => k = 2 || (k = 1 && d.flag (R.fltCapInfo (unitDie u) 0) F.fltCapInfo_valid)
  | none => false

/-- Reads one piece: bytes, and whether the read is uncorrectable. -/
def lreadPiece (d : Dev) (tier off n : Nat) : List Byte × Bool :=
  let p := d.resolve tier off
  match d.indexAt p.1 p.2 with
  | some (_, o, x) => (d.indexBytesAt o x p.2 n, false)
  | none =>
  if p.1 = 3 then
    let r := d.t3read p.2 n
    (r.1, r.2 || d.rindBad 3 p.2)
  else (d.mread p.1 p.2 n, d.poisoned (memKey p.1 p.2) n || d.retiredAddr p.1 p.2 || d.rindBad p.1 p.2 || d.injBad p.1 p.2)
/-- Reads a range: bytes, and whether any of them is uncorrectable. -/
def lread (d : Dev) (tier off n : Nat) : List Byte × Bool :=
  let l := (pieces off n).map (fun p => d.lreadPiece tier p.1 p.2.2)
  (l.flatMap (·.1), l.any (·.2))
/-- The little-endian word of n bytes at a place. -/
def lword (d : Dev) (tier off n : Nat) : Nat := leVal (d.lread tier off n).1

/-- A malformed block that is met counts once (R263). -/
def countRind (d : Dev) (tier off : Nat) : Dev :=
  match d.objAt tier off with
  | none => d
  | some (i, o) =>
    let b := (off - o.base) / 4096
    match Tab.find o.enc b with
    | none => d
    | some e =>
      if e.seen then d else
      let d := (d.count R.tierRindErrCnt R.tierEvt F.tierEvt_rindOvf).setFld R.tierEvt F.tierEvt_rindErr 1
      { d with tier := { d.tier with objs := Tab.modify d.tier.objs i (fun o => { o with enc := Tab.put o.enc b { e with seen := true } }) } }

/-- What an access leaves behind besides its data: the object's Touch (R243), hits of retired addresses (R481), slots that
served it (R403), malformed blocks met (R263). -/
def ltouchPiece (d : Dev) (wr : Bool) (tier off : Nat) : Dev :=
  let p := d.resolve tier off
  let d : Dev := match d.objAt p.1 p.2 with
    | some (i, _) => { d with tier := { d.tier with objs := Tab.modify d.tier.objs i (fun o => { o with touch := d.now / 1000000 }) } }
    | none => d
  if wr then d else
  let d := if d.retiredAddr p.1 p.2 then d.countHit p.1 p.2 else d
  let d := if p.1 = 3 then (d.sampleBlk (p.2 / 4096)).2 else d
  if d.rindBad p.1 p.2 then d.countRind p.1 p.2 else d
/-- An access that is no cache fill, as the caches of this device meet it (R293): a write takes the line from them, a read leaves one
that they owned shared. They are kept written through (log 79), so that memory holds the line's value. -/
def ownCaches (d : Dev) (wr : Bool) (tier off n : Nat) : Dev :=
  if d.herd.dir.isEmpty then d else
  ((pieces off n).flatMap (fun p => let q := d.resolve tier p.1; if q.1 = 1 || q.1 = 2 then linesOf q.1 q.2 p.2.2 else [])).foldl (fun d k =>
    match Tab.find d.herd.dir k with
    | none => d
    | some e =>
      if e.loc = 0 then d
      else if wr && !e.busy && e.nodes.isEmpty && e.groups.isEmpty then { d with herd := { d.herd with dir := Tab.del d.herd.dir k } }
      else { d with herd := { d.herd with dir := Tab.put d.herd.dir k (if wr then { e with loc := 0 } else if e.st = 2 then { e with st := 1 } else e) } }) d
/-- The same for a range. -/
def ltouch (d : Dev) (wr : Bool) (tier off n : Nat) : Dev :=
  (pieces off n).foldl (fun d p => d.ltouchPiece wr tier p.1) (d.ownCaches wr tier off n)

/-- A malformed block that no reader has met yet (R263). -/
def rindNew (d : Dev) (tier off : Nat) : Bool :=
  d.rindBad tier off && (match d.objAt tier off with
    | some (_, o) => !((Tab.find o.enc ((off - o.base) / 4096)).any (·.seen))
    | none => false)
/-- What a reader's piece makes the checkers report: a malformed block, once (R263, R468); an armed injection of the memory controller,
which is then taken (R483); and poison that is read, an exempt fault of the reader (R468, R481), where a context's is recorded with the
abort of its task. -/
def meetPiece (d : Dev) (by' tier off n : Nat) : Dev :=
  let p := d.resolve tier off
  let d := if d.rindNew p.1 p.2 then d.raise ⟨1, 0x14, by', unitId 9 (dieOf p.1 p.2), 0, mkAddr d.nodeId p.1 p.2, 0, false, false, none⟩ else d
  if p.1 ≠ 1 && p.1 ≠ 2 then d else
  let c := ctrlOf p.1 p.2
  let u := unitId c.1 c.2
  let a := mkAddr d.nodeId p.1 p.2
  let old := d.poisoned (memKey p.1 p.2) n || d.retiredAddr p.1 p.2
  let d := match d.armed p.1 p.2 with
    | none => d
    | some (_, k) =>
      let d := d.setFld (R.fltInj (unitDie u)) F.fltInj_arm 0
      if k = 0 then d else d.raise ⟨k - 1, k - 1, by', u, 0, a, 0, false, true, none⟩
  if old && unitKind by' ≠ 1 then d.raise ⟨1, 0x02, by', u, 0, a, 0, false, false, none⟩ else d
/-- A unit reads a range: what the checkers report, then what the read leaves behind. -/
def lmeet (d : Dev) (by' tier off n : Nat) : Dev :=
  ((pieces off n).foldl (fun d p => d.meetPiece by' tier p.1 p.2.2) d).ltouch false tier off n

/-- A write of a Rind block codes it again (R258); a partial write leaves a malformed block as it is. -/
def recode (d : Dev) (tier off n : Nat) : Dev :=
  match d.objAt tier off with
  | none => d
  | some (i, o) =>
    if o.enc.isEmpty || (d.rindBad tier off && n < 4096) then d
    else { d with tier := { d.tier with objs := Tab.modify d.tier.objs i (fun o => { o with enc := Tab.del o.enc ((off - o.base) / 4096) }) } }

/-- Writes bytes of a tier as they are. -/
def rawWrite (d : Dev) (tier off : Nat) (l : List Byte) : Dev := if tier = 3 then d.t3write off l else d.mwrite tier off l
/-- An index entry changes (R258): the block is then what the entry makes of the payload that its slot holds. -/
def putEntry (d : Dev) (i : Nat) (o : Obj) (b : Nat) (e : W64) : Dev :=
  let pl := (((d.rindStored o b).2) ++ List.replicate 4096 0#8).take (min 4096 (rindLen e))
  match rindDecode o.fmt e pl with
  | some l =>
    let d := d.rawWrite o.tier (o.base + 4096 * b) (l.take (min 4096 (o.size - 4096 * b)))
    { d with tier := { d.tier with objs := Tab.modify d.tier.objs i (fun o => { o with enc := if rindEncode o.fmt l = (e, pl) then Tab.del o.enc b else Tab.put o.enc b ⟨e, pl, false⟩ }) } }
  | none => { d with tier := { d.tier with objs := Tab.modify d.tier.objs i (fun o => { o with enc := Tab.put o.enc b ⟨e, pl, false⟩ }) } }
/-- A write to the index of an object: each entry that it touches changes. -/
def indexWrite (d : Dev) (i : Nat) (x : Obj) (off : Nat) (l : List Byte) : Dev :=
  let q := off - x.base
  (upFrom (q / 8) (ceilDiv (q + l.length) 8 - q / 8)).foldl (fun d b =>
    match Tab.find d.tier.objs i with
    | none => d
    | some o =>
      if ceilDiv o.size 4096 ≤ b then d else
      let old := leBytes 8 (d.rindStored o b).1.toNat
      d.putEntry i o b (BitVec.ofNat 64 (leVal ((List.range 8).map (fun k => if q ≤ 8 * b + k && 8 * b + k < q + l.length then l.getD (8 * b + k - q) 0#8 else old.getD k 0#8))))) d

/-- Writes one piece. -/
def lwritePiece (d : Dev) (tier off : Nat) (l : List Byte) : Dev :=
  let p := d.resolve tier off
  match d.indexAt p.1 p.2 with
  | some (i, _, x) => d.indexWrite i x p.2 l
  | none =>
  let d := d.recode p.1 p.2 l.length
  if p.1 = 3 then d.t3write p.2 l else d.mwrite p.1 p.2 l

/-- A write to a line breaks every load-reserved reservation on it (R106). -/
def breakResv (d : Dev) (tier off n : Nat) : Dev :=
  if d.resv.isEmpty then d else
  let keys := (pieces off n).flatMap (fun p => let q := d.resolve tier p.1; linesOf q.1 q.2 p.2.2)
  { d with resv := d.resv.filter (fun p => !keys.contains p.2.2) }

/-- A write of another observer to scratch reaches the pages of the context whose allotment lies there: an invalid page is valid
again (R212), and its bytes are no longer those that the save area holds. -/
def openPages (d : Dev) (off n : Nat) : Dev :=
  if n = 0 then d else
  let k := off / 2 ^ 24
  (d.core k).resident.foldl (fun d c => d.modCtx c (fun x =>
    let lo := k * 2 ^ 24 + x.base
    if off < lo + x.allot && lo < off + n then
      let a := (off - lo) / 4096
      let ps := upFrom a ((min (off + n - lo) x.allot + 4095) / 4096 - a)
      { x with invalid := x.invalid.filter (fun p => !ps.contains p), ckptPages := x.ckptPages.filter (fun p => !ps.contains p), live := ps.foldl (fun l p => if l.contains p then l else p :: l) x.live }
    else x)) d

/-- Writes a range. -/
def lwrite (d : Dev) (tier off : Nat) (l : List Byte) : Dev :=
  let d := if tier = 0 then d.openPages off l.length else d
  let d := (pieces off l.length).foldl (fun d p => d.lwritePiece tier p.1 ((l.drop p.2.1).take p.2.2)) d
  (d.ltouch true tier off l.length).breakResv tier off l.length

/-- A write of a range can be taken now: what of it lands in tier 3 finds room in the write buffer (R402). -/
def lcanWrite (d : Dev) (tier off n : Nat) : Bool :=
  (pieces off n).all (fun p => let q := d.resolve tier p.1; q.1 != 3 || d.t3canWrite q.2 p.2.2)

/-- A user write of a range is about to be made: what of it lands in tier 3 may put the device into read-only retirement (R415). -/
def roStore (d : Dev) (tier off n : Nat) : Dev :=
  (pieces off n).foldl (fun d p => let q := d.resolve tier p.1; if q.1 = 3 then (t3pieces q.2 p.2.2).foldl (fun d b => d.tryRetire b.1) d else d) d

/-! ## Routes and sending -/

/-- A Herd link. -/
def link (d : Dev) (h : Nat) : Link := Tab.getD d.herd.links h Link.reset
/-- Changes a Herd link. -/
def modLink (d : Dev) (h : Nat) (f : Link → Link) : Dev :=
  { d with herd := { d.herd with links := Tab.store d.herd.links h (f (d.link h)) Link.reset } }
/-- The state of a link (Table 11-3). -/
def linkSt (d : Dev) (h : Nat) : Nat := d.fld (R.hlState h) F.hlState_state
/-- The ACTIVE links of a node's route entry (R281). -/
def routeLinks (d : Dev) (n : Nat) : List Nat :=
  ((Tab.getD d.herd.routes n ⟨[], 0⟩).links).filter (fun h => d.linkSt h == 3)
/-- The virtual channel of an opcode (Table 11-5); none for one that is not listed. -/
def vcOf (opc : Nat) : Option Nat :=
  if 1 ≤ opc ∧ opc ≤ 0x0C then some 0 else if 0x20 ≤ opc ∧ opc ≤ 0x28 then some 1 else if 0x30 ≤ opc ∧ opc ≤ 0x32 then some 2
  else if 0x40 ≤ opc ∧ opc ≤ 0x42 then some 3 else if 0x50 ≤ opc ∧ opc ≤ 0x55 then some 4 else none
/-- The route link of a message: a hash of bits [48:7] of its address, for TOK messages of TOKEN_ID XOR EXPERT_ID (R281; the
hash is the sum of its two halves, log 30). -/
def pickLink (d : Dev) (m : Msg) : Option Nat :=
  let ls := d.routeLinks m.dst
  let h := if vcOf m.opc = some 3 then (bits64 m.addr 0 32) ^^^ (bits64 m.addr 32 16) else bits64 m.addr 7 42
  if ls.isEmpty then none else ls[(h % 2 ^ 21 + h / 2 ^ 21) % ls.length]?
/-- Puts a message in the queue of a link. -/
def pushTx (d : Dev) (h : Nat) (part : Option Nat) (m : Msg) : Dev := d.modLink h (fun l => { l with tx := l.tx ++ [(part, m)] })
/-- Sends a message towards its node: false where its route entry holds no link. -/
def send (d : Dev) (part : Option Nat) (m : Msg) : Bool × Dev :=
  match d.pickLink m with
  | some h => (true, d.pushTx h part m)
  | none => (false, d)

/-- The first TAG of a die, from a number on, that names no outstanding request and is not guarded (R280). -/
def findTag (d : Dev) : Nat → Nat → Option Nat
  | 0, _ => none
  | n + 1, t =>
    if (Tab.find d.herd.outs t).isSome || d.herd.guarded.contains t || d.herd.snps.any (fun s => s.tag == t) || d.herd.raced.any (fun r => r.2 == t) then findTag d n (t + 1) else some t
/-- A free TAG of a die. -/
def freeTag (d : Dev) (die : Nat) : Option Nat := d.findTag 32768 (die * 32768)

/-- How the issue of a request ended. -/
inductive Sent where
  | no (d : Dev)
  | wait
  | sent (tag : Nat) (d : Dev)

/-- The lines of another node that caches may hold (R290). -/
def farCached (a : W64) : Bool := addrTier a == 1 || addrTier a == 2
/-- The key of a cached line of another node. -/
def farLine (a : W64) : Nat := a.toNat / 128
/-- Drops a cached line of another node; a reservation on it breaks. -/
def dropFar (d : Dev) (k : Nat) : Dev :=
  { d with herd := { d.herd with cache := Tab.del d.herd.cache k }, resv := d.resv.filter (fun p => p.2.2 != 2 ^ 60 + k) }
/-- A line of another node is being fetched. -/
def fetching (d : Dev) (a : W64) : Bool :=
  farCached a && d.herd.outs.any (fun o => match o.2.kind with | .poll _ _ _ | .chamLine _ _ => farLine o.2.addr == farLine a | _ => false)
/-- A write of this device to another node's line drops its own shared copy: the home does not invalidate it (R294), and no read
that follows may find the older value there (R102). -/
def dropShared (d : Dev) (a : W64) : Dev :=
  match Tab.find d.herd.cache (farLine a) with
  | some l => if l.st = 1 then d.dropFar (farLine a) else d
  | none => d
/-- The opcodes of a write or an atomic. -/
def writesFar (opc : Nat) : Bool := opc == 5 || opc == 6 || opc == 8

/-- The lender of a tier 5 offset can be reached no longer (R257). -/
def segGone (d : Dev) (off : Nat) : Bool := ((Tab.find d.tier.segs (off / 2 ^ 30)).map (·.gone)).getD false
/-- The lender of a tier 5 offset. -/
def segNode (d : Dev) (off : Nat) : Nat := ((Tab.find d.tier.segs (off / 2 ^ 30)).map (·.node)).getD 0
/-- An address that is not served here: another node's, or one of a segment whose lender is gone. -/
def away (d : Dev) (a : W64) : Bool := if addrTier a = 5 then d.segGone (addrOff a) else addrNode a != d.nodeId

/-- Issues a request to another node: refused with NODE_UNASSIGNED where this device or the node has no route (R69, R281),
not taken while no TAG is free, nor a write while its line is being fetched, else sent under a TAG. One to a segment of the
neighbour window whose lender is gone never has a reply (R257). -/
def request (d : Dev) (die : Nat) (part : Option Nat) (opc : Nat) (addr : W64) (data : List Byte) (k : OutKind) : Sent :=
  if !d.assigned && addrTier addr != 5 then .no d else
  if writesFar opc && d.fetching addr then .wait else
  let d := if writesFar opc then d.dropShared addr else d
  match d.freeTag die with
  | none => .wait
  | some t =>
    if addrTier addr = 5 then .sent t { d with herd := { d.herd with outs := Tab.put d.herd.outs t ⟨d.segNode (addrOff addr), addr, k⟩ } } else
    match d.send part ⟨opc, addrNode addr, d.nodeId, t, false, false, addr, data⟩ with
    | (false, d) => .no d
    | (true, d) => .sent t { d with herd := { d.herd with outs := Tab.put d.herd.outs t ⟨addrNode addr, addr, k⟩ } }

/-- Writes bytes at another node as whole and partial writes of 16-byte units: none of them while a TAG is missing. -/
def sendUnits (d : Dev) (die : Nat) (part : Option Nat) (node tier off : Nat) (l : List Byte) (k : OutKind) : Sent :=
  let u0 := off / 16
  (List.range ((off + l.length + 15) / 16 - u0)).foldl (fun s i =>
    match s with
    | .sent _ d =>
      let lo := 16 * (u0 + i)
      let hit := fun (j : Nat) => off ≤ lo + j && lo + j < off + l.length
      let dat := (List.range 16).map (fun j => if hit j then l.getD (lo + j - off) 0#8 else 0#8)
      let mask := ((List.range 16).map (fun j => if hit j then 2 ^ j else 0)).foldl (· + ·) 0
      if mask = 65535 then d.request die part 5 (mkAddr node tier lo) dat k else d.request die part 6 (mkAddr node tier lo) (leBytes 16 mask ++ dat) k
    | s => s) (.sent 0 d)

/-! ## Inputs on other nodes (log 43) -/

/-- Keeps a fetched line. -/
def putFetched (d : Dev) (f : Fetched) : Dev := { d with herd := { d.herd with fetched := d.herd.fetched ++ [f] } }
/-- Keeps bytes that nothing fixes in a line's place: of a node that is not assigned, or that does not answer. -/
def putFree (d : Dev) (c : Option Nat) (use : Nat) (a : W64) : Dev :=
  { d.putFetched ⟨c, use, a, (List.range 16).flatMap (fun i => leBytes 8 (Config.freeWord (d.draws + i)).toNat)⟩ with draws := d.draws + 16 }
/-- Forgets what was fetched for a use, where there was anything to fetch. -/
def doneFetch (d : Dev) (far : Bool) (c : Option Nat) (use : Nat) : Dev :=
  if far then { d with herd := { d.herd with fetched := d.herd.fetched.filter (fun f => f.ctx != c || f.use != use) } } else d
/-- The lines of a range of another node. -/
def fetchLines (a : W64) (n : Nat) : List W64 :=
  let l0 := addrOff a / 128
  (List.range ((addrOff a + n + 127) / 128 - l0)).map (fun i => mkAddr (addrNode a) (addrTier a) (128 * (l0 + i)))
/-- A fetched line. -/
def fetchedLine (d : Dev) (c : Option Nat) (use : Nat) (a : W64) : Option Fetched := d.herd.fetched.find? (fun f => f.ctx == c && f.use == use && f.addr == a)
/-- Every line of a range has been fetched. -/
def hasFetched (d : Dev) (c : Option Nat) (use : Nat) (a : W64) (n : Nat) : Bool := (fetchLines a n).all (fun l => (d.fetchedLine c use l).isSome)
/-- The bytes of a range that has been fetched. -/
def fetchedBytes (d : Dev) (c : Option Nat) (use : Nat) (a : W64) (n : Nat) : List Byte :=
  (((fetchLines a n).flatMap (fun l => ((d.fetchedLine c use l).map (·.data)).getD [])).drop (addrOff a % 128)).take n
/-- Asks for the lines of a range that are neither there nor on their way, as far as there are TAGs. -/
def askFetch (d : Dev) (die : Nat) (part : Option Nat) (c : Option Nat) (use : Nat) (a : W64) (n : Nat) : Dev :=
  (fetchLines a n).foldl (fun d l =>
    if (d.fetchedLine c use l).isSome || d.herd.outs.any (fun o => o.2.kind == .fetch c use && o.2.addr == l + 7#64) then d else
    match d.request die part 1 (l + 7#64) [] (.fetch c use) with
    | .sent _ d => d
    | .no d => d.putFree c use l
    | .wait => d) d

/-! ## Words that one store writes more than once -/

/-- Where a place at or beyond the end of z bytes comes to lie (R74). -/
def lastLine (z o : Nat) : Nat := if o < z then o else z - 128 + o % 128
/-- One store that runs beyond the end of a tier writes words of the last line more than once; which of them a word keeps is not
stated (R74), so that for each such word the one that is written last is a free choice (log 5): the writes in the order in which they
are made. -/
def lastOrder {α : Type} (d : Dev) (z : Nat) (at' : α → Nat) (ws : List α) : List α × Dev :=
  if ws.all (fun w => at' w < z) then (ws, d) else
  (List.range 16).foldl (fun acc i =>
    let mine := fun w => lastLine z (at' w) / 8 == z / 8 - 16 + i
    let from' := ((acc.1.filter mine).map (fun w => at' w / 8)).eraseDups
    if from'.length < 2 then acc else
    let r := acc.2.choose from'.length
    let last := fun w => mine w && at' w / 8 == from'.getD r.1 0
    (acc.1.filter (fun w => !last w) ++ acc.1.filter last, r.2)) (ws, d)

/-! ## The directory -/

/-- The DIR block of a line. -/
def dirDie (key : Nat) : Nat := dieOf (key / 2 ^ 49) (key % 2 ^ 49)
/-- The address of a line homed here. -/
def lineAddr (d : Dev) (key : Nat) : W64 := mkAddr d.nodeId (key / 2 ^ 49) (key % 2 ^ 49)
/-- The line of a request, forwards resolved. -/
def lineKey (d : Dev) (a : W64) : Nat :=
  let q := d.resolve (addrTier a) (alignDown (addrOff a) 128)
  memKey q.1 q.2
/-- An entry of the directory. -/
def dirEnt (d : Dev) (key : Nat) : Option DirEnt := Tab.find d.herd.dir key
/-- The nodes that an invalidation goes to (R293, R294): the sharers, or every assigned node of every set group that is not cut
off (R296). -/
def sharers (d : Dev) (e : DirEnt) : List Nat :=
  if e.coarse then (Tab.keys d.herd.routes).filter (fun n => n ≠ d.nodeId && e.groups.contains (n / 64) && !d.herd.cut.contains n) else e.nodes
/-- The entry of another line behind which the first request for a line waits for room in the set (R291). What comes after it for the
same line waits there too: the home serves a line in the order of arrival (R292). -/
def roomHolder (d : Dev) (key : Nat) : Option Nat :=
  (d.herd.dir.find? (fun e => e.1 != key && (e.2.serving.toList ++ e.2.queue).any (fun w =>
    (w.msg.opc == 2 || w.msg.opc == 3 || w.msg.opc == 4) && d.lineKey w.msg.addr == key))).map (·.1)
/-- Sends one SNP message about a line and remembers it until it is answered (R296). -/
def sendSnp (d : Dev) (key node opc : Nat) : Dev :=
  let die := dirDie key
  let tag := (d.freeTag die).getD (die * 32768)
  let d := (d.send none ⟨opc, node, d.nodeId, tag, false, false, d.lineAddr key, []⟩).2
  let d := d.count (R.dirInvCnt die) (R.dirEvt die) F.dirEvt_invOvf
  { d with herd := { d.herd with snps := d.herd.snps ++ [⟨tag, node, key, opc, false⟩] } }
/-- Sets a directory entry. -/
def putDir (d : Dev) (key : Nat) (e : DirEnt) : Dev := { d with herd := { d.herd with dir := Tab.put d.herd.dir key e } }
/-- Removes a directory entry: the line is uncached. -/
def delDir (d : Dev) (key : Nat) : Dev := { d with herd := { d.herd with dir := Tab.del d.herd.dir key } }
/-- Makes an entry BUSY and sends an SNP message to each of some nodes; with none to ask, the line is uncached. -/
def snoop (d : Dev) (key : Nat) (e : DirEnt) (nodes : List Nat) (opc : Nat) : Dev :=
  if nodes.isEmpty then d.delDir key
  else nodes.foldl (fun d n => d.sendSnp key n opc) (d.putDir key { e with busy := true, await := nodes })

/-- The lines of a range have been set to 0 (R244): what caches of other nodes hold of them goes, and what an owner still sends back
is older. Until then the lines stay BUSY, so that no access meets the older bytes. -/
def purge (d : Dev) (t off n : Nat) : Dev :=
  (d.herd.dir.filter (fun e => memKey t off ≤ e.1 && e.1 < memKey t off + n)).foldl (fun d k =>
    let e := k.2
    if e.busy then
      let more := (d.sharers e).filter (fun n => !e.await.contains n)
      more.foldl (fun d n => d.sendSnp k.1 n 0x30) (d.putDir k.1 { e with drop := true, await := e.await ++ more })
    else d.snoop k.1 { e with serving := none, drop := true } (d.sharers e) (if e.st = 2 then 0x32 else 0x30)) d

/-- Lines that keep a local access waiting (R292, R293): BUSY ones, lines that other nodes own, for a write those that they share, and
lines for which an earlier request waits for room. -/
def dirHolds (d : Dev) (tier off n : Nat) (wr : Bool) : List Nat :=
  if d.herd.dir.isEmpty || (tier != 1 && tier != 2) then [] else
  (linesOf tier off n).filter (fun k => match d.dirEnt k with
    | some e => e.busy || ((wr || e.st == 2) && !(d.sharers e).isEmpty)
    | none => (d.roomHolder k).isSome)
/-- Starts what the home must do before a local access: FWD_S or FWD_I to an owner, INV to sharers (Table 11-9). -/
def dirAsk (d : Dev) (wr : Bool) (keys : List Nat) : Dev :=
  keys.foldl (fun d k => match Tab.find d.herd.dir k with
    | some e => if e.busy then d else d.snoop k { e with serving := none } (d.sharers e) (if e.st = 2 then (if wr then 0x32 else 0x31) else 0x30)
    | none => d) d

/-- Lines that keep an access to a range waiting, forwards resolved. -/
def lholds (d : Dev) (tier off n : Nat) (wr : Bool) : List Nat :=
  if d.herd.dir.isEmpty then [] else
  (pieces off n).flatMap (fun p => let q := d.resolve tier p.1; d.dirHolds q.1 q.2 p.2.2 wr)
/-- A local access can be performed now: no line of it waits at the directory, and what of it lands in tier 3 finds room. -/
def lready (d : Dev) (tier off n : Nat) (wr : Bool) : Bool :=
  (d.lholds tier off n wr).isEmpty && (!wr || d.lcanWrite tier off n)

end Dev

end Sys2Proof.Machine
end

