-- ==== Sys2Proof/Machine/ExecFlash.lean ====
section
/-! DEFINITION. The flash channel controllers at work (chapter 14): rings, operands, completions, and the commands. -/
namespace Sys2Proof.Machine

abbrev Out := Host.Outcome State Fault Refusal

/-- Accesses of a controller to tiers 1 and 2, or to the write buffer, which never waits: address, bytes, whether it writes; a reader's use
names what it fetches from another node. -/
structure FchAcc where
  addr : W64
  len : Nat
  wr : Bool
  use : Nat
  deriving DecidableEq, Repr

/-- What a read has gathered over its code words: failed mask, bits, level, step, erased, failures. -/
structure ReadAcc where
  dev : Dev
  fail : Nat
  bits : Nat
  level : Nat
  step : Nat
  erased : Bool
  deriving DecidableEq, Repr

namespace Dev

/-- An access can be made now: here its lines wait for nothing; on another node its bytes have come, or there are TAGs for its requests. -/
def fchOpenOne (d : Dev) (a : FchAcc) : Bool :=
  if d.away a.addr then (if a.wr then decide (d.herd.outs.length + d.herd.guarded.length < 28000) else d.hasFetched none a.use a.addr a.len)
  else d.lready (addrTier a.addr) (addrOff a.addr) a.len a.wr
/-- Every access of a command can be made now. -/
def fchOpen (d : Dev) (l : List FchAcc) : Bool := l.all d.fchOpenOne
/-- Starts what accesses wait for. -/
def fchAsk (d : Dev) (l : List FchAcc) : Dev :=
  l.foldl (fun d a =>
    if d.away a.addr then (if a.wr then d else d.askFetch 0 none none a.use a.addr a.len)
    else d.dirAsk a.wr (d.lholds (addrTier a.addr) (addrOff a.addr) a.len a.wr)) d
/-- Makes accesses, or waits (R293): what must come first has been started, and the command is not taken yet. -/
def fchWhen (d : Dev) (l : List FchAcc) (f : Dev → Dev) : Dev := if d.fchOpen l then f d else d.fchAsk l
/-- The use under which a queue's inputs are fetched. -/
def fchUse (ch q : Nat) : Nat := 2 ^ 100 + 8 * ch + q
/-- Reads bytes in tier 1 or 2. -/
def fchGet (d : Dev) (ch q : Nat) (a : W64) (n : Nat) : List Byte :=
  if d.away a then d.fetchedBytes none (fchUse ch q) a n else (d.lread (addrTier a) (addrOff a) n).1
/-- Writes bytes in tier 1 or 2. -/
def fchPut (d : Dev) (a : W64) (l : List Byte) : Dev :=
  if d.away a then (match d.sendUnits 0 none (addrNode a) (addrTier a) (addrOff a) l .other with | .sent _ d | .no d => d | .wait => d)
  else d.lwrite (addrTier a) (addrOff a) l
/-- The base of a queue's submission ring, and of its completion ring. -/
def fchSq (d : Dev) (ch q : Nat) : W64 := BitVec.ofNat 64 (d.pair (R.fchQSqbLo ch q))
def fchCq (d : Dev) (ch q : Nat) : W64 := BitVec.ofNat 64 (d.pair (R.fchQCqbLo ch q))
/-- The next completion entry of a queue, and its whole completion ring. -/
def fchEntry (d : Dev) (ch q : Nat) : FchAcc := ⟨d.fchCq ch q + BitVec.ofNat 64 (16 * d.fld (R.fchQCqt ch q) F.fchQCqt_tail), 16, true, 0⟩
def fchCqRing (d : Dev) (ch q : Nat) : FchAcc := ⟨d.fchCq ch q, 16 * d.fchDepth ch q, true, 0⟩

/-- Fetches the descriptors up to the tail: 64 bytes each from the submission ring (R361). -/
def fchFetch (d : Dev) (ch q : Nat) : Nat → Dev
  | 0 => d
  | n + 1 =>
    let h := d.fld (R.fchQSqh ch q) F.fchQSqh_head
    if h = d.fld (R.fchQSqt ch q) F.fchQSqt_tail then d else
    let bs := d.fchGet ch q (d.fchSq ch q + BitVec.ofNat 64 (64 * h)) 64
    let ws := (List.range 8).map (fun i => BitVec.ofNat 64 (leVal ((bs.drop (8 * i)).take 8)))
    let (ws, c) := fdescClamp ws
    let f := d.fch ch
    let d := (d.setFch ch { f with waiting := Tab.store f.waiting q (Tab.getD f.waiting q [] ++ [⟨q, ws, c ≠ 0⟩]) [] }).fchClamp ch c
    (d.setFld (R.fchQSqh ch q) F.fchQSqh_head ((h + 1) % d.fchDepth ch q)).fchFetch ch q n
/-- A write of FCH_Q_SQT submits; bits above DEPTH are ignored (Table 14-9f). -/
def fchSubmit (d : Dev) (ch q tail : Nat) : Dev :=
  let t := tail % d.fchDepth ch q
  d.fchWhen (if t = d.fld (R.fchQSqh ch q) F.fchQSqh_head then [] else [⟨d.fchSq ch q, 64 * d.fchDepth ch q, false, fchUse ch q⟩]) (fun d =>
    ((d.setFld (R.fchQSqt ch q) F.fchQSqt_tail t).fchFetch ch q 1024).doneFetch (d.away (d.fchSq ch q)) none (fchUse ch q))
/-- Writes a completion entry (Table 14-5) and advances the tail. -/
def fchComplete (d : Dev) (ch q tag status flags w0hi : Nat) : Dev :=
  let n := d.fchDepth ch q
  let t := d.fld (R.fchQCqt ch q) F.fchQCqt_tail
  let ph := Tab.getD (d.fch ch).phase q true
  let w0 := tag + status * 2 ^ 16 + flags * 2 ^ 24 + w0hi * 2 ^ 32 + b2n ph * 2 ^ 63
  let d := d.fchPut (d.fchEntry ch q).addr (leBytes 8 w0 ++ leBytes 8 d.now)
  let f := d.fch ch
  let d := if t + 1 = n then d.setFch ch { f with phase := Tab.store f.phase q (!ph) true } else d
  d.setFld (R.fchQCqt ch q) F.fchQCqt_tail ((t + 1) % n)
/-- A descriptor of a queue has started and is not over. -/
def fchRuns (d : Dev) (ch q : Nat) : Bool := (d.fch ch).dies.any (fun t => (t.2.op.toList ++ t.2.erase.toList).any (fun o => o.desc.q == q))
/-- Fetched descriptors that have not started complete with CANCELLED (R388). -/
def fchCancel (d : Dev) (ch q : Nat) : Dev :=
  let d := (Tab.getD (d.fch ch).waiting q []).foldl (fun d x => d.fchComplete ch q x.tag 0x57 (b2n x.clamped) 0) d
  d.setFch ch { d.fch ch with waiting := Tab.del (d.fch ch).waiting q }
/-- A queue reset ends once every descriptor that had started is over (R388): heads and tails go to 0, PHASE to 1. -/
def fchResetEnd (d : Dev) (ch q : Nat) : Dev :=
  if !d.flag (R.fchQCtrl ch q) F.fchQCtrl_reset || d.fchRuns ch q then d else
  let d := d.setFch ch { d.fch ch with phase := Tab.del (d.fch ch).phase q }
  let d := (((d.setReg (R.fchQSqt ch q) 0#32).setReg (R.fchQSqh ch q) 0#32).setReg (R.fchQCqh ch q) 0#32).setReg (R.fchQCqt ch q) 0#32
  (d.setReserved ch q 0).setFld (R.fchQCtrl ch q) F.fchQCtrl_reset 0
/-- A queue reset (R388): nothing of the queue starts any more. -/
def fchReset (d : Dev) (ch q : Nat) : Dev :=
  d.fchWhen (if (Tab.getD (d.fch ch).waiting q []).isEmpty then [] else [d.fchCqRing ch q]) (fun d =>
    ((d.fchCancel ch q).setFld (R.fchQCtrl ch q) F.fchQCtrl_reset 1).fchResetEnd ch q)
/-- A started descriptor is over: its completion, then the end of a reset of its queue that waited for it. -/
def fchOver (d : Dev) (ch q tag status flags w0hi : Nat) : Dev := (d.fchComplete ch q tag status flags w0hi).fchResetEnd ch q

/-- Completes a descriptor that a check refuses (R367). -/
def fchRefuse (d : Dev) (ch : Nat) (x : FDesc) (st : Nat) : Dev :=
  (d.count (R.fchRefuseCnt ch) (R.fchEvt ch) F.fchEvt_refuseOvf).fchComplete ch x.q x.tag st (b2n x.clamped) 0
/-- Bytes at an operand of a descriptor, by its KIND. -/
def fchSrc (d : Dev) (ch q kind : Nat) (a : W64) (off n : Nat) : List Byte :=
  if kind = 1 then Memory.read d.flash.wbuf (bits64 a 0 34 + off) n else d.fchGet ch q (a + BitVec.ofNat 64 off) n
/-- Writes bytes at an operand of a descriptor, by its KIND; data for an Oryx engine goes to it with its pass tag (R36). -/
def fchDst (d : Dev) (kind : Nat) (a : W64) (off : Nat) (l : List Byte) : Dev :=
  match kind with
  | 0 => d.fchPut (a + BitVec.ofNat 64 off) l
  | 1 => { d with flash := { d.flash with wbuf := Memory.write d.flash.wbuf (bits64 a 0 34 + off) l,
                                           wbPoison := d.flash.wbPoison.filter (fun x => x ≠ (bits64 a 0 34 + off) / 4096) } }
  | _ => { d with flash := { d.flash with oryxIn := d.flash.oryxIn ++ [(a, some l)] } }
/-- Marks the destination of a failed code word (R376). -/
def fchFail (d : Dev) (kind : Nat) (a : W64) (off : Nat) : Dev :=
  match kind with
  | 0 => if d.away a then d else let p := d.resolve (addrTier a) (addrOff a + off); d.poisonRange (memKey p.1 p.2) 4096
  | 1 => { d with flash := { d.flash with wbPoison := ((bits64 a 0 34 + off) / 4096) :: d.flash.wbPoison } }
  | _ => { d with flash := { d.flash with oryxIn := d.flash.oryxIn ++ [(a, none)] } }
/-- Programs the code words of a descriptor (R369): the n-th takes the n-th 4,096 data and 96 side bytes. -/
def fchProgram (d : Dev) (a : AonSt) (ch : Nat) (x : FDesc) : Dev :=
  let tgt := (x.planes.flatMap (fun p => (List.range x.count).map (fun i => (p, x.cw + i)))).zipIdx
  let d := tgt.foldl (fun d pr =>
    let n := pr.2
    let side := if x.side = 0#64 then [] else d.fchSrc ch x.q x.kind x.side (96 * n) 96
    let w : CodeWord := ⟨Cells.of (d.fchSrc ch x.q x.kind x.data (4096 * n) 4096), Cells.of side,
      if x.crypt then some (x.keyslot, Tab.getD a.keys x.keyslot 0, x.tweak + n) else none, false⟩
    { d with flash := { d.flash with words := Tab.put d.flash.words (cwKey (dieNo ch x.target) pr.1.1 x.block pr.1.2) w } }) d
  (descBlks ch x).foldl (fun d k => d.setPblk k { d.pblk k with wp := x.cw + x.count }) d
/-- One code word of a read: erased (R372), failed (R376), or decoded and delivered (R373). -/
def fchReadCw (a : AonSt) (ch : Nat) (x : FDesc) (res : List CwRes) (s : ReadAcc) (pr : (Nat × Nat) × Nat) : ReadAcc :=
  let n := pr.2
  match Tab.find s.dev.flash.words (cwKey (dieNo ch x.target) pr.1.1 x.block (4 * x.page + pr.1.2)) with
  | none =>
    let d := s.dev.fchDst x.kind x.data (4096 * n) (List.replicate 4096 0xFF#8)
    { s with dev := if x.side = 0#64 || x.kind = 2 then d else d.fchDst x.kind x.side (96 * n) (List.replicate 96 0xFF#8), erased := true }
  | some w =>
    let r := res.getD n ⟨0, 0, 0⟩
    let lvl := if x.ladderOff then 0 else min r.level.val 2
    let bad := w.lost || r.level.val = 3 || (x.ladderOff && r.level.val ≠ 0)
    let s := { s with level := max s.level lvl }
    if bad then { s with dev := s.dev.fchFail x.kind x.data (4096 * n), fail := s.fail + 2 ^ n }
    else
      let d := s.dev.fchDst x.kind x.data (4096 * n) (cwBytes a x n w)
      let d := if x.side = 0#64 || x.kind = 2 then d else d.fchDst x.kind x.side (96 * n) (Cells.bytes w.side 96)
      { s with dev := d, bits := max s.bits r.bits.val, step := if lvl = 1 then r.step.val else s.step }
/-- Completes a read (R368, R371 to R373). -/
def fchReadDone (d : Dev) (a : AonSt) (ch t : Nat) (o : DieOp) (res : List CwRes) : Dev :=
  let x := o.desc
  let tgt := (x.planes.flatMap (fun p => x.cwm.map (fun w => (p, w)))).zipIdx
  let s := tgt.foldl (fchReadCw a ch x res) ⟨d, 0, 0, 0, 0, false⟩
  let y := s.dev.die ch t
  let d := s.dev.setDie ch t { y with op := none, lastGood := if s.step ≠ 0 then s.step else y.lastGood }
  let d := if s.level ≥ 1 then d.count (R.fchRetryCnt ch) (R.fchEvt ch) F.fchEvt_retryOvf else d
  let d := if s.level ≥ 2 then d.count (R.fchSoftCnt ch) (R.fchEvt ch) F.fchEvt_softOvf else d
  let nf := ((List.range 16).filter (fun i => s.fail.testBit i)).length
  let d := if nf = 0 then d else (d.countN (R.fchUncCnt ch) (R.fchEvt ch) F.fchEvt_uncOvf nf).setFld (R.fchEvt ch) F.fchEvt_unc 1
  d.fchOver ch x.q x.tag (if nf = 0 then 0 else 9)
    (b2n x.clamped + b2n s.erased * 8 + b2n (s.level ≥ 1) * 16 + b2n (s.level ≥ 2) * 32 + b2n o.suspended * 64)
    (s.fail + min s.bits 255 * 2 ^ 16 + s.level * 2 ^ 24 + s.step * 2 ^ 26)
/-- Marks the plane-blocks of a descriptor bad after a failed program, or a failed erase, which also sets their pointers to full
(R370, R378); the grown-defect map takes the failure (R382), and their superblocks lose members (R395). -/
def fchMarkBad (d : Dev) (ch : Nat) (x : FDesc) (full : Bool) : Dev :=
  let d := (descBlks ch x).foldl (fun d k =>
    let d := d.setPblk k { d.pblk k with bad := true, wp := if full then wpFull else (d.pblk k).wp }
    { d with flash := { d.flash with grown := Tab.put d.flash.grown k (if full then 2 else 1) } }) d
  let d := (descBlks ch x).foldl (fun d k => d.memberFailed k) d
  (d.count (R.fchPfailCnt ch) (R.fchEvt ch) F.fchEvt_pfailOvf).setFld (R.fchEvt ch) F.fchEvt_pfail 1
/-- The accesses of a descriptor to its data and side bytes, by its KIND. -/
def fchAccs (ch : Nat) (x : FDesc) : List FchAcc :=
  if x.kind ≠ 0 then [] else
  let n := x.planes.length * (if x.op = 1 then x.cwm.length else x.count)
  if x.op = 5 then [⟨x.data, 8 * x.planes.length, true, 0⟩]
  else ⟨x.data, 4096 * n, x.op == 1, fchUse ch x.q⟩ :: (if x.side = 0#64 then [] else [⟨x.side, 96 * n, x.op == 1, fchUse ch x.q⟩])
/-- The accesses that the end of a die's operation makes. -/
def fchEndAccs (d : Dev) (ch t : Nat) : List FchAcc :=
  let y := d.die ch t
  match y.op with
  | some o => (if o.kind = 1 then fchAccs ch o.desc else []) ++ [d.fchEntry ch o.desc.q]
  | none => match y.erase with | some o => if y.susp then [] else [d.fchEntry ch o.desc.q] | none => []
/-- The end of a die's operation: a read or program, or the erase where none runs on it (R368, R370, R378). -/
def fchDieDone (d : Dev) (a : AonSt) (ch t : Nat) (good : Bool) (res : List CwRes) : Dev :=
  let y := d.die ch t
  match y.op with
  | some o =>
    if o.kind = 1 then d.fchReadDone a ch t o res
    else
      let d := d.setDie ch t { y with op := none }
      let d := if good then d else d.fchMarkBad ch o.desc false
      d.fchOver ch o.desc.q o.desc.tag (if good then 0 else 0x51) (b2n o.desc.clamped) 0
  | none =>
    match y.erase with
    | none => d
    | some o =>
      if y.susp then d else
      let d := d.setDie ch t { y with erase := none, suspReq := false, suspCnt := 0 }
      let d := if good then d.fchErase ch o.desc else d.fchMarkBad ch o.desc true
      d.fchOver ch o.desc.q o.desc.tag (if good then 0 else 0x52) (b2n o.desc.clamped) 0
/-- Starts a descriptor that passed its checks: what each operation does at its start. -/
def fchRun (d : Dev) (a : AonSt) (ch : Nat) (x : FDesc) : Dev :=
  let y := d.die ch x.target
  match x.op with
  | 1 => d.setDie ch x.target { y with op := some ⟨x, 1, y.susp⟩ }
  | 2 => ((d.fchProgram a ch x).doneFetch (x.kind == 0 && (d.away x.data || d.away x.side)) none (fchUse ch x.q)).setDie ch x.target { y with op := some ⟨x, 2, false⟩ }
  | 3 => d.setDie ch x.target { y with erase := some ⟨x, 3, false⟩, susp := false, suspReq := false, at' := d.now, ran := 0, suspCnt := 0, suspCfg := d.reg (R.fchSusp ch) }
  | 4 =>
    let (d, n) := (descBlks ch x).foldl (fun s k => let (d, m) := s.1.fchSetBlock ch x k; (d, s.2 + m)) (d, 0)
    d.fchComplete ch x.q x.tag 0 (b2n (x.clamped || n ≠ 0)) 0
  | 5 =>
    let d := x.planes.zipIdx.foldl (fun d p => d.fchDst x.kind x.data (8 * p.2) (leBytes 8 (d.fchGetWord ch x p.1))) d
    d.fchComplete ch x.q x.tag 0 (b2n x.clamped) 0
  | _ => d.fchComplete ch x.q x.tag 0 (b2n x.clamped) 0
/-- The accesses that the start of a descriptor makes: its completion where it is refused or touches no die, a program's operands. -/
def fchStartAccs (d : Dev) (ch : Nat) (x : FDesc) : List FchAcc :=
  if (d.fchCheck ch x).isSome then [d.fchEntry ch x.q]
  else match x.op with
    | 1 | 3 => []
    | 2 => fchAccs ch x
    | 5 => fchAccs ch x ++ [d.fchEntry ch x.q]
    | _ => [d.fchEntry ch x.q]
/-- Starts the i-th waiting descriptor of a queue if it is eligible, has the operation named, and is the one the controller
serves next; a READ for a die that erases asks for a suspend instead where it may (R363, R379). -/
def fchStart (d : Dev) (a : AonSt) (op ch q i : Nat) : Dev :=
  match (Tab.getD (d.fch ch).waiting q [])[i]? with
  | none => d
  | some x =>
    if x.op ≠ op then d
    else if d.fchEligible ch q i && d.fchTurn ch (d.fchEligQueues ch) == some q then
      let e := d.fchTake ch q i
      d.fchWhen (e.fchStartAccs ch x) (fun _ =>
        let d := e
        match d.fchCheck ch x with
        | some st => d.fchRefuse ch x st
        | none => d.fchRun a ch x)
    else if op = 1 && (d.fchReady ch q i).isSome && d.mayReqSusp ch (d.die ch x.target) then
      let y := d.die ch x.target
      d.setDie ch x.target { y with suspReq := true }
    else d
/-- A die that overran is reset and marked failed; its operations complete with DIE_FAILED (R384). -/
def fchDieTimeout (d : Dev) (ch t : Nat) : Dev :=
  let y := d.die ch t
  let ops := y.op.toList ++ y.erase.toList
  if ops.isEmpty then d else
  let d := d.setDie ch t { y with op := none, erase := none, susp := false, suspReq := false, failed := true }
  let d := ops.foldl (fun d o => d.fchOver ch o.desc.q o.desc.tag 0x56 (b2n o.desc.clamped) 0) d
  let d := (d.setFld (R.fchStatus ch) ⟨8 + t, 1⟩ 1).setFld (R.fchEvt ch) F.fchEvt_diefail 1
  d.raise ⟨1, 0x0A, unitId 0x0B ch, unitId 0x0B ch, 9, 0#64, 0, false, false, none⟩

end Dev

/-! ## The commands -/

/-- FCH_SUBMIT (R361): a write of FCH_Q_SQT submits. -/
def execFchSubmit (r : Req) (ch : Fin 128) (q : Fin 8) (v : W32) (s : State) : Out :=
  .next (s.onDev (fun d => d.regDo r (R.fchQSqt ch q) (fun d => d.fchSubmit ch q v.toNat)))

/-- FCH_CQ_HEAD_WRITE (R361): a write of FCH_Q_CQH frees completion entries. -/
def execFchCqHeadWrite (r : Req) (ch : Fin 128) (q : Fin 8) (v : W32) (s : State) : Out :=
  .next (s.onDev (fun d => d.regDo r (R.fchQCqh ch q) (fun d => d.fchFree ch q v.toNat)))

/-- FCH_QUEUE_RESET (R388). -/
def execFchQueueReset (r : Req) (ch : Fin 128) (q : Fin 8) (s : State) : Out :=
  .next (s.onDev (fun d => d.regDo r (R.fchQCtrl ch q) (fun d => d.fchReset ch q)))

/-- FLASH_NOP (R366). -/
def execFlashNop (ch : Fin 128) (q : Fin 8) (i : BitVec 10) (s : State) : Out :=
  .next (s.onDev (fun d => d.fchStart s.aon 0 ch q i.toNat))

/-- FLASH_READ (R373, R379): starts the read, or asks for the suspend of the erase that keeps the die. -/
def execFlashRead (ch : Fin 128) (q : Fin 8) (i : BitVec 10) (s : State) : Out :=
  .next (s.onDev (fun d => d.fchStart s.aon 1 ch q i.toNat))

/-- FLASH_PROGRAM (R369). -/
def execFlashProgram (ch : Fin 128) (q : Fin 8) (i : BitVec 10) (s : State) : Out :=
  .next (s.onDev (fun d => d.fchStart s.aon 2 ch q i.toNat))

/-- FLASH_ERASE (R378). -/
def execFlashErase (ch : Fin 128) (q : Fin 8) (i : BitVec 10) (s : State) : Out :=
  .next (s.onDev (fun d => d.fchStart s.aon 3 ch q i.toNat))

/-- FLASH_SET_BLOCK (R369). -/
def execFlashSetBlock (ch : Fin 128) (q : Fin 8) (i : BitVec 10) (s : State) : Out :=
  .next (s.onDev (fun d => d.fchStart s.aon 4 ch q i.toNat))

/-- FLASH_GET_BLOCK (R366). -/
def execFlashGetBlock (ch : Fin 128) (q : Fin 8) (i : BitVec 10) (s : State) : Out :=
  .next (s.onDev (fun d => d.fchStart s.aon 5 ch q i.toNat))

/-- FLASH_DIE_OP_COMPLETE (R368, R370, R373, R378). -/
def execFlashDieOpComplete (ch : Fin 128) (t : Fin 12) (good : Bool) (e : List CwRes) (s : State) : Out :=
  .next (s.onDev (fun d => d.fchWhen (d.fchEndAccs ch t) (fun d => d.fchDieDone s.aon ch t good e)))

/-- ERASE_SUSPENDED (R379). -/
def execEraseSuspended (ch : Fin 128) (t : Fin 12) (s : State) : Out := .next (s.onDev (fun d => d.fchSuspended ch t))

/-- ERASE_RESUME (R379): no read runs on the die or waits for it. -/
def execEraseResume (ch : Fin 128) (t : Fin 12) (s : State) : Out :=
  .next (s.onDev (fun d => if (d.die ch t).susp && (d.die ch t).op.isNone && !d.readWaits ch t then d.fchResume ch t else d))

/-- ERASE_HOLD_EXPIRE (R379): the suspension has lasted FCH_SUSP.HOLD. -/
def execEraseHoldExpire (ch : Fin 128) (t : Fin 12) (s : State) : Out :=
  .next (s.onDev (fun d =>
    let y := d.die ch t
    if y.susp && decide (getF y.suspCfg F.fchSusp_hold * 10000 ≤ d.now - y.at') then d.fchResume ch t else d))

/-- ERASE_MIN_RUN_MET (R379). -/
def execEraseMinRunMet (ch : Fin 128) (t : Fin 12) (s : State) : Out :=
  .next (s.onDev (fun d =>
    let y := d.die ch t
    if d.mayReqSusp ch y && d.readWaits ch t then d.setDie ch t { y with suspReq := true } else d))

/-- DIE_TIMEOUT (R384, R396). -/
def execDieTimeout (ch : Fin 128) (t : Fin 12) (s : State) : Out :=
  let y := s.dev.die ch t
  .next (if y.op.isNone && y.erase.isNone then s else (s.onDev (fun d =>
    d.fchWhen ((y.op.toList ++ y.erase.toList).map (fun o => d.fchCqRing ch o.desc.q)) (fun d => (d.fchDieTimeout ch t).ftlDieFailed ch t))).settled)

/-- The 4,096 bytes that a rebuild of a code word gives: the word's own data, which its stripe holds a second time
(R394), or the newest version of its logical block where the layer placed it (R398). -/
def rebuilt (d : Dev) (die pl b cw n : Nat) : List Byte :=
  match Tab.find d.flash.words (cwKey die pl b cw) with
  | some w => Cells.bytes w.data 4096
  | none => Cells.bytes (d.newest n).data 4096

/-- PARITY_REBUILD (R374, R401): the rebuilt data goes to the original destination; a rebuild that fails loses the
logical block. -/
def execParityRebuild (ch : Fin 128) (t : Fin 12) (pl : Fin 4) (b : BitVec 12) (cw : BitVec 13) (n : BitVec 37) (a : W64) (good : Bool)
    (s : State) : Out :=
  let u := unitId 0x0B ch
  .next (s.onDev (fun d =>
    if good then
      let mem := addrTier a = 1 || addrTier a = 2
      d.fchWhen (if mem then [⟨a, 4096, true, 0⟩] else []) (fun d =>
        let d := if mem then d.fchPut a (rebuilt d (dieNo ch t) pl b.toNat cw.toNat n.toNat) else d
        d.raise ⟨0, 0x08, u, u, 0, a, 0, false, false, none⟩)
    else
      let d := if n.toNat < userBlocks then d.poisonBlk n.toNat else d
      d.raise ⟨1, 0x09, u, u, 0, a, 0, false, false, none⟩)).settled

end Sys2Proof.Machine
end

