-- ==== Sys2Proof/Machine/Gap.lean ====
section
/-! DEFINITION. The matrix arrays of a core (R149, R151, R154, R163 to R167, R170): gaps and ramps, the passes of an MM.MAC, the counts of
both. How many steps an interval of time holds depends on the clock of the moment, which is no state of the spec: the steps of a gap are
free values; those of passes that nothing disturbs are exact (R150, R156; log 35). -/
namespace Sys2Proof.Machine

/-- The passes that an array still makes for a multiplication. -/
def MmJob.left (m : MmJob) (a : Nat) : Nat := m.kt * ((m.tiles.drop m.done).filter (fun t => t.1 == a)).length

namespace Dev

/-- Adds to an account of a context (R228). -/
def charge' (d : Dev) (c a n : Nat) : Dev :=
  d.modCtx c (fun x =>
    let v := Tab.getD x.acc a 0 + n
    { x with acc := Tab.store x.acc a (v % 2 ^ 64) 0, wraps := if v < 2 ^ 64 then x.wraps else x.wraps ||| 2 ^ a })
/-- An array of a core. -/
def arr (d : Dev) (k m : Nat) : Arr := Tab.getD (d.core k).arrs m Arr.reset
/-- Sets an array and shows its density and ramp in KUDU_MA_STATUS. -/
def setArr (d : Dev) (k m : Nat) (a : Arr) : Dev :=
  (d.modCore k (fun y => { y with arrs := Tab.store y.arrs m a Arr.reset })).setFlds (R.kuduMaStatus k m) [(F.kuduMaStatus_density, a.density), (F.kuduMaStatus_ramping, b2n (a.ramp != 0))]
/-- An array has passes to make for the context on its core: one without a tile has none, and a core that has stopped makes none. -/
def busyArr (d : Dev) (k m : Nat) : Bool :=
  !d.flag (R.kuduStatus k) F.kuduStatus_stopped && (match (d.core k).cur with
    | some c => (match (d.ctx? c).bind (·.mm) with | some j => j.left m != 0 | none => false)
    | none => false)
/-- Counts dummy steps of an array and charges them to the gap's owner, where it still exists (R165). -/
def dummies (d : Dev) (k m : Nat) : Dev :=
  let (n, d) := d.draw
  let d := d.addPair (R.kuduMaDummyLo k m) n.toNat (R.kuduMaCntStat k m) F.kuduMaCntStat_dummyWrap
  match (d.arr k m).owner with
  | some c => d.charge' c 0 n.toNat
  | none => d
/-- No array's gap is a context's any more: its number is to name another context (R165). -/
def disown (d : Dev) (c : Nat) : Dev :=
  d.cores.foldl (fun d y => (y.2.arrs.filter (fun a => a.2.owner == some c)).foldl (fun d a => d.modCore y.1 (fun z => { z with
    arrs := Tab.store z.arrs a.1 { a.2 with owner := none } Arr.reset })) d) d
/-- KUDU_PWR_EVT.IDLE once all four arrays stand at density 0. -/
def idleEvt (d : Dev) (k : Nat) : Dev :=
  if (List.range 4).all (fun m => (d.arr k m).density == 0) then d.setFld (R.kuduPwrEvt k) F.kuduPwrEvt_idle 1 else d

/-- A gap begins on an array (R163, R166); its owner stays the context that issued the last real vector (R165). -/
def gapBegin (d : Dev) (k m : Nat) : Dev :=
  let a := d.arr k m
  if a.gap || d.busyArr k m || d.isFenced (unitId 1 k) then d else
  let en := d.flag (R.kuduCtrl k) F.kuduCtrl_dummyEn
  let a := { a with gap := true, thresh := d.fld (R.kuduGap k) F.kuduGap_thresh, rampUs := d.fld (R.kuduGap k) F.kuduGap_ramp + 1, dummyEn := en }
  let d := d.setFld (R.kuduMaStatus k m) F.kuduMaStatus_active 0
  if en then d.setArr k m a else (d.setArr k m { a with density := 0, ramp := 0 }).idleEvt k
/-- THRESH has elapsed with the gap open: the first interval of the ramp-down (R164). -/
def rampDown (d : Dev) (k m : Nat) : Dev :=
  let a := d.arr k m
  if !a.gap || a.ramp = 1 || a.density = 0 || !a.dummyEn then d else
  let d := if a.thresh = 0 then d else d.dummies k m
  (d.setArr k m { a with ramp := if a.density = 1 then 0 else 1, density := a.density - 1 }).idleEvt k
/-- One interval of a ramp has passed (R164). A ramp-up whose real vectors are in flight takes no dummy step that counts (R165). -/
def rampInterval (d : Dev) (k m : Nat) : Dev :=
  let a := d.arr k m
  match a.ramp with
  | 1 => ((d.dummies k m).setArr k m { a with density := a.density - 1, ramp := if a.density ≤ 1 then 0 else 1 }).idleEvt k
  | 2 => (if d.flag (R.kuduMaStatus k m) F.kuduMaStatus_active then d else d.dummies k m).setArr k m { a with density := min 64 (a.density + 1), ramp := if 63 ≤ a.density then 0 else 2 }
  | _ => d
/-- Real work reaches an array whose density is below 1 (R164, R166). -/
def rampUp (d : Dev) (k m : Nat) : Dev :=
  let a := d.arr k m
  if !a.gap || a.density = 64 || !d.busyArr k m || d.isFenced (unitId 1 k) then d else
  let d := d.setFld (R.kuduMaStatus k m) F.kuduMaStatus_active 1
  if !a.dummyEn then d.setArr k m { a with gap := false, density := 64, ramp := 0, owner := (d.core k).cur }
  else
    let d := if a.density = 0 then (d.count (R.kuduWakeCnt k) (R.kuduPwrEvt k) F.kuduPwrEvt_wakeOvf).setFld (R.kuduPwrEvt k) F.kuduPwrEvt_wake 1 else d
    d.setArr k m { a with gap := false, density := a.density + 1, ramp := if a.density = 63 then 0 else 2, owner := (d.core k).cur }
/-- Real vectors reach an array at full density: its gap ends (R163). One below it ramps up by its own commands (R164). -/
def mmStart (d : Dev) (c k mode m : Nat) : Dev :=
  let d := d.setFld (R.kuduMaStatus k m) F.kuduMaStatus_mode mode
  let a := d.arr k m
  if a.gap && a.density != 64 then d else
  let d := d.setFld (R.kuduMaStatus k m) F.kuduMaStatus_active 1
  let d := if a.gap && a.dummyEn && a.thresh != 0 then d.dummies k m else d
  d.setArr k m { a with gap := false, owner := some c }
/-- The arrays with tiles left of the multiplication of the context on a core take its passes, at its issue and when it resumes. -/
def mmGo (d : Dev) (k : Nat) : Dev :=
  match (d.core k).cur with
  | none => d
  | some c => match (d.ctx? c).bind (·.mm) with
    | none => d
    | some j => (List.range 4).foldl (fun d a => if d.busyArr k a then d.mmStart c k j.mode a else d) d
/-- An array's passes for a context are over: they and their steps are counted and charged, with the steps that it waited (R165). -/
def mmCount (d : Dev) (k c a passes steps wait : Nat) : Dev :=
  let d := d.countN (R.kuduMaPass k a) (R.kuduMaCntStat k a) F.kuduMaCntStat_passOvf passes
  let d := d.addPair (R.kuduMaStepsLo k a) steps (R.kuduMaCntStat k a) F.kuduMaCntStat_stepsWrap
  let d := d.addPair (R.kuduMaDummyLo k a) wait (R.kuduMaCntStat k a) F.kuduMaCntStat_dummyWrap
  (d.charge' c 0 (steps + wait)).setFld (R.kuduMaStatus k a) F.kuduMaStatus_active 0
/-- The bytes that the stream engines of a core have moved. -/
def seMoved (d : Dev) (k : Nat) : Nat := ((List.range 4).map (fun e => d.pair (R.seBytesLo k e))).foldl (· + ·) 0
/-- Nothing has disturbed a multiplication: no stop, no stream on the scratch ports, every array at full density (R156). -/
def mmCalm (d : Dev) (k : Nat) (m : MmJob) : Bool :=
  !m.again && d.seMoved k == m.seAt && (d.core k).inflight.isEmpty && (List.range 4).all (fun a => m.left a == 0 || (d.arr k a).density == 64)
/-- A multiplication is whole: each array has made the passes that it had left. The steps of one that was disturbed are free; the waiting
steps within it are dummies where DUMMY_EN fills them, all of them where THRESH is no shorter than its reset value (R151, R154, R163). -/
def mmWhole (d : Dev) (k c : Nat) (m : MmJob) : Dev :=
  let calm := d.mmCalm k m
  (List.range 4).foldl (fun d a =>
    if m.left a = 0 then d else
    let d := d.rampUp k a
    let w := m.work.getD a (0, 0)
    let (r, d) := if calm then (w.1, d) else d.choose (2 ^ 40)
    let (v, d) := if !d.flag (R.kuduCtrl k) F.kuduCtrl_dummyEn then (0, d)
      else if calm && (w.2 = 0 || 200 ≤ d.fld (R.kuduGap k) F.kuduGap_thresh) then (w.2, d) else d.choose (2 ^ 40)
    d.mmCount k c a (m.left a) r v) d
/-- A multiplication is cut short: of the passes that each array had left it has made those of the tiles completed since, and some of
the others (R165, R167); how many, and their steps, is as far as it had come (log 35). -/
def mmPart (d : Dev) (k c : Nat) (m m' : MmJob) : Dev :=
  (List.range 4).foldl (fun d a =>
    if m.left a = 0 then d else
    let (p, d) := d.choose (m'.left a + 1)
    let (r, d) := d.choose (2 ^ 40)
    let (v, d) := d.choose (2 ^ 40)
    d.mmCount k c a (m.left a - m'.left a + p) r v) d
/-- The multiplication of a context on a core that runs is abandoned: the passes that it has made count (R165). -/
def mmDrop (d : Dev) (c : Nat) : Dev :=
  match d.ctx? c with
  | none => d
  | some x => match x.mm with
    | none => d
    | some m =>
      if (d.core x.core).cur ≠ some c || d.isFenced (unitId 1 x.core) || d.flag (R.kuduStatus x.core) F.kuduStatus_stopped then d
      else d.mmPart x.core c m m

end Dev

end Sys2Proof.Machine
end

