-- ==== Sys2Proof/Machine/Ctx.lean ====
section
/-! DEFINITION. A context's architected state and what the device does with it: registers, clamps, events, scratch,
completion of asynchronous work, the end of a context, the abort of a task (chapters 04, 05, 08). -/
namespace Sys2Proof.Machine

/-! ## Registers -/

/-- A scalar register; S0 reads 0 (R86). -/
def Ctx.s (x : Ctx) (i : Nat) : W64 := if i = 0 then 0#64 else Tab.getD x.arch.sreg i 0#64
/-- Writes a scalar register; a write to S0 is discarded (R86). -/
def Ctx.setS (x : Ctx) (i : Nat) (v : W64) : Ctx :=
  if i = 0 then x else { x with arch := { x.arch with sreg := Tab.store x.arch.sreg i v 0#64 } }
/-- A predicate; P0 reads 1 (R86). -/
def Ctx.p (x : Ctx) (i : Nat) : Bool := if i = 0 then true else Tab.getD x.arch.pred i false
/-- Writes a predicate; a write to P0 is discarded (R86). -/
def Ctx.setP (x : Ctx) (i : Nat) (v : Bool) : Ctx :=
  if i = 0 then x else { x with arch := { x.arch with pred := Tab.store x.arch.pred i v false } }
/-- The eight words of a descriptor that nothing has written. -/
def tdZero : List W64 := List.replicate 8 0#64
/-- A descriptor's words. -/
def Ctx.td (x : Ctx) (i : Nat) : List W64 := Tab.getD x.arch.td i tdZero
/-- A word of a descriptor. -/
def Ctx.tdw (x : Ctx) (i w : Nat) : W64 := (x.td i).getD w 0#64
/-- The bits of a descriptor word that are not reserved (Table 04-2, R13). -/
def tdMask (w : Nat) : W64 := if w = 6 then 0x33FFF7F#64 else if w = 7 then 0#64 else 0xFFFFFFFFFFFFFFFF#64
/-- Writes a descriptor, its reserved bits as 0. -/
def Ctx.setTd (x : Ctx) (i : Nat) (l : List W64) : Ctx :=
  { x with arch := { x.arch with td := Tab.store x.arch.td i ((List.range 8).map (fun w => l.getD w 0#64 &&& tdMask w)) tdZero } }
/-- Writes a word of a descriptor. -/
def Ctx.setTdw (x : Ctx) (i w : Nat) (v : W64) : Ctx := x.setTd i ((x.td i).set w v)
/-- The count of an event entry. -/
def Ctx.evt (x : Ctx) (i : Nat) : Nat := Tab.getD x.arch.ev i 0
/-- Sets the count of an event entry. -/
def Ctx.setEvt (x : Ctx) (i v : Nat) : Ctx := { x with arch := { x.arch with ev := Tab.store x.arch.ev i v 0 } }
/-- Moves the program counter. -/
def Ctx.setPc (x : Ctx) (pc : W64) : Ctx := { x with arch := { x.arch with pc := pc } }
/-- Counts clamps of the instruction at an address (R111): the first counted one is held. -/
def Ctx.clampAt (x : Ctx) (pc : W64) (n : Nat) : Ctx :=
  if n = 0 then x else
  { x with clamps := min 0xFFFFFFFF (x.clamps + n), clampOvf := x.clampOvf || decide (0xFFFFFFFF < x.clamps + n), firstClamp := x.firstClamp.orElse (fun _ => some pc), flags := x.flags ||| 1 }
/-- Adds to an event entry, up to 65,535 (R90). -/
def Ctx.addEvt (x : Ctx) (i n : Nat) : Ctx :=
  let v := x.evt i + n
  let y := x.setEvt i (min 65535 v)
  if 65535 < v then { y with eventOvf := true } else y
/-- Register places that an outstanding asynchronous instruction will write (R125). -/
def Ctx.pendingRegs (x : Ctx) : List Nat :=
  x.xfers.flatMap (fun t => if t.hasSs then [t.ss] else []) ++
  x.asyncs.flatMap (fun a => (if a.hasSs then [a.ss] else []) ++ (if a.hasSd then [a.sd] else []))
/-- The context waits in one of the instructions of R225 and is so blocked. -/
def Ctx.blocks (x : Ctx) : Bool :=
  match x.wait with
  | .event e v => decide (x.evt e < v)
  | .word _ _ _ => true
  | .tokens _ _ _ => true
  | _ => false

/-- A status word (R125). -/
def statusWord (st flags count : Nat) : W64 := BitVec.ofNat 64 (st % 256 + flags % 256 * 256 + min count 0xFFFFFFFF * 65536)
/-- Statuses that end a context when they would be written to S0 (R126). -/
def endingStatus (st : Nat) : Bool := [3, 4, 6, 11].contains st

namespace Dev

/-- The context's allotment is held in a core's scratch. -/
def isRes (d : Dev) (c : Nat) (x : Ctx) : Bool := (d.core x.core).resident.contains c
/-- The key of a byte of a resident context's scratch. -/
def scrKey (x : Ctx) (o : Nat) : Nat := x.core * 2 ^ 24 + x.base + o
/-- An offset within the allotment: at or beyond it, the place with the same low 7 bits in its last line (R74, R122). -/
def scrClip (x : Ctx) (o : Nat) : Nat := if o < x.allot then o else x.allot - 128 + o % 128

/-- A byte of a context's scratch; bytes of an invalid page read 0 (R212). -/
def scrByte (d : Dev) (c : Nat) (x : Ctx) (o : Nat) : Byte :=
  let o := scrClip x o
  if x.invalid.contains (o / 4096) then 0#8
  else if d.isRes c x then Memory.get d.mem (scrKey x o) else Memory.get x.image o
/-- Some of a list of places lies in an invalid page. -/
def scrInvalid (x : Ctx) (os : List Nat) : Bool := !x.invalid.isEmpty && os.any (fun o => x.invalid.contains (scrClip x o / 4096))
/-- Some of a list of places is poisoned. -/
def scrBad (d : Dev) (c : Nat) (x : Ctx) (os : List Nat) : Bool :=
  if d.isRes c x then !d.flt.poison.isEmpty && os.any (fun o => d.poisoned (scrKey x (scrClip x o)) 1)
  else !x.bad.isEmpty && os.any (fun o => x.bad.contains (alignDown (scrClip x o) 8))

/-- Writes one byte of scratch under its mask. -/
def scrPut (d : Dev) (c : Nat) (w : SWrite) : Dev :=
  match d.ctx? c with
  | none => d
  | some x =>
    let o := scrClip x w.addr
    if d.isRes c x then { d with mem := Memory.set d.mem (scrKey x o) ((Memory.get d.mem (scrKey x o) &&& ~~~w.mask) ||| (w.val &&& w.mask)) }
    else d.modCtx c (fun x => { x with image := Memory.set x.image o ((Memory.get x.image o &&& ~~~w.mask) ||| (w.val &&& w.mask)) })
/-- Makes a page valid before its first write: every byte is 0 (R212); the page is then live and dirty. -/
def scrOpen (d : Dev) (c p : Nat) : Dev :=
  match d.ctx? c with
  | none => d
  | some x =>
    let d : Dev := if !x.invalid.contains p then d
      else if d.isRes c x then { d with mem := Memory.wipe d.mem (scrKey x (4096 * p)) 4096 }
      else d.modCtx c (fun x => { x with image := Memory.wipe x.image (4096 * p) 4096 })
    d.modCtx c (fun x => { x with invalid := x.invalid.filter (· ≠ p), ckptPages := x.ckptPages.filter (· ≠ p), live := if x.live.contains p then x.live else p :: x.live, dirty := if x.dirty.contains p then x.dirty else p :: x.dirty })
/-- Words of scratch that a list of writes covers whole lose their poison (R457). -/
def scrClean (d : Dev) (c : Nat) (ws : List SWrite) : Dev :=
  match d.ctx? c with
  | none => d
  | some x =>
    let full := fun (o : Nat) => (List.range 8).all (fun i => ws.any (fun w => scrClip x w.addr == o + i && w.mask == 0xFF#8))
    if d.isRes c x then
      if d.flt.poison.isEmpty then d else
      { d with flt := { d.flt with poison := d.flt.poison.filter (fun p => !(scrKey x 0 ≤ p.1 && p.1 < scrKey x x.allot && full (p.1 - scrKey x 0))) } }
    else if x.bad.isEmpty then d else d.modCtx c (fun x => { x with bad := x.bad.filter (fun o => !full o) })
/-- Writes bytes of a context's scratch (R207, R212): pages are opened, bytes written, poison covered whole is cleared, and
reservations on the lines are broken (R106). -/
def scrWrite (d : Dev) (c : Nat) (ws : List SWrite) : Dev :=
  match d.ctx? c with
  | none => d
  | some x =>
    let r := d.lastOrder x.allot SWrite.addr ws
    let ws := r.1
    let d := r.2
    let pages := (ws.map (fun w => scrClip x w.addr / 4096)).eraseDups
    let d := pages.foldl (fun d p => d.scrOpen c p) d
    let d := (ws.foldl (fun d w => d.scrPut c w) d).scrClean c ws
    if d.resv.isEmpty then d else ws.foldl (fun d w => d.breakResv 0 (scrKey x (scrClip x w.addr)) 1) d

/-- Counts one instruction, by its address, that read an invalid page (R212): a clamp of the context and an event of its core. -/
def noteInvalidAt (d : Dev) (c : Nat) (pc : W64) : Dev :=
  match d.ctx? c with
  | none => d
  | some x => (d.modCtx c (fun x => x.clampAt pc 1)).count (R.strInvalidCnt x.core) (R.strAbortInfo x.core) F.strAbortInfo_ovf
/-- The same for the instruction that executes. -/
def noteInvalid (d : Dev) (c : Nat) : Dev := d.noteInvalidAt c (((d.ctx? c).map (·.arch.pc)).getD 0#64)

/-! ## Clamps, waking, completion -/

/-- Field clamps of the running instruction (R111). -/
def clampC (d : Dev) (c n : Nat) : Dev := d.modCtx c (fun x => x.clampAt x.arch.pc n)
/-- An address clamp of the running instruction: the context's counter and the partition's slot (R74, R83, R111). -/
def clampA (d : Dev) (c kind : Nat) (a : W64) : Dev := (d.clampC c 1).addrClamp (.ctx c) kind a
/-- Raises flags of the context (R127). -/
def flagC (d : Dev) (c n : Nat) : Dev := d.modCtx c (fun x => { x with flags := x.flags ||| n })
/-- The state of a context that becomes able to execute (R226): the core's present context runs on. -/
def woken (d : Dev) (c : Nat) (x : Ctx) : CtxSt :=
  match x.st with
  | .residentBlocked => if (d.core x.core).cur = some c then .running else .residentRunnable
  | .savedBlocked => .savedRunnable
  | s => s
/-- Makes a blocked context runnable (R226); one in REPLY_WAIT will be once its slots are settled. -/
def wake (d : Dev) (c : Nat) : Dev :=
  match d.ctx? c with
  | none => d
  | some x => d.modCtx c (fun y => { y with st := d.woken c x, woke := y.woke || x.st == .replyWait })
/-- Wakes a context whose event wait holds. -/
def wakeEvt (d : Dev) (c : Nat) : Dev :=
  match d.ctx? c with
  | none => d
  | some x => match x.wait with
    | .event e v => if v ≤ x.evt e then d.wake c else d
    | _ => d
/-- Adds to an event entry of a context and wakes it where its wait then holds (R90, R226). -/
def addEvent (d : Dev) (c ev n : Nat) : Dev := (d.modCtx c (fun x => x.addEvt ev n)).wakeEvt c
/-- The context ends (R100) with a status, unless it has ended already; its record is written when its work is over. -/
def endCtx (d : Dev) (c st : Nat) : Dev :=
  d.modCtx c (fun x => if x.st = .ending then x else { x with st := .ending, endStatus := some st, wait := .none, blockedAt := d.now })
/-- The instruction that has just completed made the first clamp, with CLAMP_TRAP set: the context ends (R112). -/
def trapNow (d : Dev) (c : Nat) : Dev :=
  match d.ctx? c with
  | none => d
  | some x => if x.launch.clampTrap && x.clamps ≠ 0 then d.endCtx c 0x12 else d
/-- Writes a status word to a register as a completion does: named S0, a status of R126 ends the context. -/
def putStatus (d : Dev) (c ss : Nat) (st flags count : Nat) : Dev :=
  let d := d.modCtx c (fun x => x.setS ss (statusWord st flags count))
  if ss = 0 && endingStatus st then d.endCtx c st else d
/-- An asynchronous instruction completes (R124, R125): status and result registers, then its event. -/
def asyncDone (d : Dev) (c id st flags count : Nat) (sd : W64) : Dev :=
  match d.ctx? c with
  | none => d
  | some x => match x.asyncs.find? (·.id == id) with
    | none => d
    | some a =>
      let d := d.modCtx c (fun x => { x with asyncs := x.asyncs.filter (·.id != id), flags := x.flags ||| flags % 8 })
      let d := if a.hasSd then d.modCtx c (fun x => x.setS a.sd sd) else d
      let d := if a.hasSs then d.putStatus c a.ss st flags count else d
      if a.eve then d.addEvent c a.ev 1 else d

/-! ## Abort of a task (R210 to R215) -/

/-- The cause code of a task abort (Table 17-9) by STR_ABORT_INFO.CAUSE. -/
def abortCause (n : Nat) : Nat := [0x02, 0x0F, 0x10, 0x07].getD n 0x02
/-- The jobs of a context are cancelled (R332): their results go nowhere. -/
def cancelJobs (d : Dev) (c : Nat) : Dev :=
  { d with search := { d.search with
      jobs := d.search.jobs.map (fun j => match j.2.who with
        | .ctx c' _ => if c' = c then (j.1, { j.2 with cancelled := true }) else j
        | _ => j)
      colls := d.search.colls.map (fun p => (p.1, { p.2 with
        pend := p.2.pend.map (fun q => match q.who with | .ctx c' _ => (if c' = c then { q with who := .none } else q) | _ => q) })) } }
/-- The bytes of beats that a cancelled store has already sent to another node are counted as moved, and charged (R216, R217). -/
def sentBeats (d : Dev) (c : Nat) (x : Ctx) : Dev :=
  ((d.core x.core).inflight.filter (fun b => b.ctx == c)).foldl (fun d b =>
    match x.xfers.find? (·.id == b.xid) with
    | some t => if t.streams && t.isStore && d.away t.dst.base
      then (d.addPair (R.seBytesLo x.core b.eng) b.n (R.seEvt x.core b.eng) F.seEvt_bytesWrap).charge' c 2 b.n else d
    | none => d) d
/-- The room of a context's inbox that is still spoken for (R306): what came back, and the tokens still out. -/
def inboxRoom (d : Dev) (c : Nat) : Dev :=
  let out := (d.herd.tokOut.filter (fun t => t.ctx == c && t.st != 2)).map (fun t => 16 + t.bytes)
  { d with herd := { d.herd with inboxes := Tab.modify d.herd.inboxes c (fun (b : Inbox) => { b with used := (List.append (b.back.map (fun q => 16 + q.2.2.1)) out).foldl (· + ·) 0 }) } }
/-- Cancels what a context has outstanding: beats, transfers, jobs, matrix work, requests, unfinished token sends. An abort counts
each transfer that it cancels (R211). -/
def cancelWork (d : Dev) (c : Nat) (abort : Bool) : Dev :=
  match d.ctx? c with
  | none => d
  | some x =>
    let k := x.core
    let d := (d.mmDrop c).sentBeats c x
    let d := if d.isRes c x && !d.isFenced (unitId 1 k) then x.xfers.foldl (fun d t => (if abort then d.count (R.seCancelCnt k t.eng) (R.seEvt k t.eng) F.seEvt_cancelOvf else d).setFld (R.seEvt k t.eng) F.seEvt_cancel 1) d else d
    let d := d.modCore k (fun y => { y with inflight := y.inflight.filter (·.ctx != c) })
    let d := (d.dropReplies [c]).cancelJobs c
    let d := Dev.inboxRoom { d with herd := { d.herd with tokOut := d.herd.tokOut.filter (fun t => !(t.ctx == c && x.xfers.any (·.id == t.send))) } } c
    d.modCtx c (fun x => { x with xfers := [], asyncs := [], mm := none, slots := [], beats := [] })
/-- Scratch pages that jobs of a context may have written before they are cancelled (R332): which of them were is not stated (log
56); those are pages that its task has written. -/
def jobPages (d : Dev) (c : Nat) (x : Ctx) : Dev :=
  let ps := (d.search.jobs.filter (fun j => j.2.started && !j.2.cancelled && j.2.ctx == some c)).flatMap (fun j => match j.2.dst with
    | some a => if addrTier a = 0 then ((List.range (ceilDiv j.2.room 4096 + 1)).map (fun i => scrClip x (addrOff a + min (4096 * i) (j.2.room - 1)) / 4096)) else []
    | none => [])
  ps.eraseDups.foldl (fun d p =>
    let r := d.choose 2
    if r.1 = 0 then r.2 else r.2.scrOpen c p) d
/-- Pages that become invalid read 0 to every observer (R212). -/
def wipePages (d : Dev) (c : Nat) (ps : List Nat) : Dev :=
  match d.ctx? c with
  | none => d
  | some x => ps.foldl (fun d p =>
      if d.isRes c x then { d with mem := Memory.wipe d.mem (scrKey x (4096 * p)) 4096 }
      else d.modCtx c (fun x => { x with image := Memory.wipe x.image (4096 * p) 4096 })) d
/-- The task of a context is aborted (Table 08-5 steps 1 to 3): a cause, the engine that carried the fault, its address. -/
def abortTask (d : Dev) (c cause eng : Nat) (a : W64) : Dev :=
  match d.ctx? c with
  | none => d
  | some x =>
    if x.wait = .restart then d
    else if x.st = .ending then d.cancelWork c true
    else
      let k := x.core
      let d := (d.jobPages c x).cancelWork c true
      let d := d.count (R.strAbortCnt k) (R.strAbortInfo k) F.strAbortInfo_ovf
      let d := if d.flag (R.strAbortInfo k) F.strAbortInfo_valid then d else
        d.setFlds (R.strAbortInfo k) [(F.strAbortInfo_valid, 1), (F.strAbortInfo_cause, cause), (F.strAbortInfo_engine, eng), (F.strAbortInfo_ctxId, c)]
      let d := d.raise ⟨1, abortCause cause, unitId 1 k, unitId 1 k, 0, a, 0, false, false, none⟩
      let lost := ((d.ctx? c).map (·.dirty)).getD []
      let d := (d.wake c).wipePages c lost
      d.modCtx c (fun x => { x with wait := .restart, st := if x.st = .replyWait && !x.fenced then .savedRunnable else x.st, invalid := (lost ++ x.invalid).eraseDups, live := x.live.filter (fun p => !lost.contains p), dirty := [] })
/-- What a context has cancelled and still waits for (R211 step 4): requests, and jobs that have not ended. -/
def ctxCancelled (d : Dev) (c : Nat) : Bool :=
  d.herd.outs.any (fun o => o.2.kind = .cancelled c) || d.search.jobs.any (fun j => j.2.cancelled && j.2.ctx == some c)

end Dev

end Sys2Proof.Machine
end

