-- ==== Sys2Proof/Machine/Access.lean ====
section
/-! DEFINITION. The clamping of addresses (R74 to R76, R122) and the places that accesses reach. -/
namespace Sys2Proof.Machine

/-- An address after steps 1 and 2 of R74: its fields, and the kinds of the clamps made, in order. -/
structure Place where
  node : Nat
  tier : Nat
  off : Nat
  kinds : List Nat
  deriving DecidableEq, Repr

namespace Dev

/-- Tier 5 is open to a requester (R73): a partition whose bit in ADDR_PRIV is 1; the device's own requesters (log 31). -/
def admits5 (d : Dev) (r : Req) : Bool :=
  d.tierSize 5 != 0 && (match r.part d with | some p => (d.reg R.addrPriv).toNat.testBit p | none => true)
/-- A segment of the neighbour window is mapped (R255). -/
def segMapped (d : Dev) (off : Nat) : Bool := (Tab.find d.tier.segs (off / 2 ^ 30)).isSome

/-- The size against which an offset is clamped: for an ITNUM tier 0 address the allotment (R122). -/
def sizeFor (d : Dev) (r : Req) (itnum : Bool) (t : Nat) : Nat :=
  match r with
  | .ctx c => if itnum && t = 0 then ((d.ctx? c).map (·.allot)).getD 0 else d.tierSize t
  | _ => d.tierSize t

/-- Steps 1 and 2 of R74 for an access of n bytes: redirect names the tier that the operation puts in place of one it may not
use; whole is false for an operand whose words are clamped one by one. -/
def clampSteps (d : Dev) (r : Req) (itnum : Bool) (redirect : Nat → Nat) (a : W64) (n : Nat) : Place :=
  let t0 := addrTier a
  let own := t0 = 5 || (itnum && t0 = 0)
  let node := if own then d.nodeId else addrNode a
  let k1 := if node ≠ addrNode a then [5] else []
  let off := addrOff a
  let t1 := if 6 ≤ t0 then 1
    else if t0 = 5 && (!d.admits5 r || (off < d.tierSize 5 && !d.segMapped off)) then 1 else t0
  let k2 := if t1 ≠ t0 then [if 6 ≤ t0 then 0 else 1] else []
  let t2 := redirect t1
  let k3 := if t2 ≠ t1 then [6] else []
  let node := if t2 = 0 && itnum then d.nodeId else node
  let size := d.sizeFor r itnum t2
  if node = d.nodeId && size ≤ off then
    ⟨node, t2, size - 128 + min (off % 128) (128 - min n 128), k1 ++ k2 ++ k3 ++ [2]⟩
  else ⟨node, t2, off, k1 ++ k2 ++ k3⟩

/-- Counts the clamps of an address for its requester (R83), an ITNUM instruction's in its context too (R111). -/
def noteClamps (d : Dev) (r : Req) (ks : List Nat) (a : W64) : Dev :=
  ks.foldl (fun d k => match r with
    | .ctx c => d.clampA c k a
    | _ => d.addrClamp r k a) d

/-- The address of a place. -/
def placeAddr (p : Place) : W64 := mkAddr p.node p.tier p.off

/-- A place homed on this device: in the neighbour window too, as long as the segment's lender can be reached (R257). -/
def isHere (d : Dev) (p : Place) : Bool := if p.tier = 5 then !d.segGone p.off else p.node == d.nodeId
/-- A place on another node that cannot be reached: this device or that node is not assigned (R69). -/
def noNode (d : Dev) (p : Place) : Bool := !d.isHere p && p.tier != 5 && (!d.assigned || (d.routeLinks p.node).isEmpty)

/-- No redirect. -/
def stay (t : Nat) : Nat := t
/-- Scalar stores and other writes that tier 3 does not take (R72). -/
def noT3 (t : Nat) : Nat := if t = 3 then 1 else t
/-- Atomics (R106). -/
def noT34 (t : Nat) : Nat := if t = 3 || t = 4 then 1 else t
/-- Stream destinations (Table 05-11). -/
def noT4 (t : Nat) : Nat := if t = 4 then 1 else t
/-- Compute operands (R123). -/
def only0 (_ : Nat) : Nat := 0
/-- Code objects (R95). -/
def codeTier (t : Nat) : Nat := if t = 1 || t = 2 || t = 3 then t else 1

/-- The little-endian value of n bytes here, forwards followed; a tier 0 address of a context names its allotment. -/
def loadHere (d : Dev) (r : Req) (itnum : Bool) (p : Place) (n : Nat) : List Byte × Bool :=
  match r with
  | .ctx c =>
    if itnum && p.tier = 0 then
      match d.ctx? c with
      | some x => ((List.range n).map (fun i => d.scrByte c x (p.off + i)), d.scrBad c x (upFrom p.off n))
      | none => ([], false)
    else d.lread p.tier p.off n
  | _ => d.lread p.tier p.off n

/-- Writes bytes here; a tier 0 address of a context names its allotment. -/
def storeHere (d : Dev) (r : Req) (itnum : Bool) (p : Place) (l : List Byte) : Dev :=
  match r with
  | .ctx c =>
    if itnum && p.tier = 0 then d.scrWrite c ((List.range l.length).map (fun i => ⟨p.off + i, l.getD i 0#8, 0xFF#8⟩))
    else d.lwrite p.tier p.off l
  | _ => d.lwrite p.tier p.off l

end Dev

/-- The new value of an atomic of Table 05-12 (codes 0 to 8) on a word of n bytes. -/
def amoVal (f n : Nat) (old v : Nat) : Nat :=
  let w := 8 * n
  let o := old % 2 ^ w
  let x := v % 2 ^ w
  match f with
  | 0 => (o + x) % 2 ^ w
  | 1 => o &&& x
  | 2 => o ||| x
  | 3 => o ^^^ x
  | 4 => x
  | 5 => if signedOf w o < signedOf w x then x else o
  | 6 => if signedOf w x < signedOf w o then x else o
  | 7 => max o x
  | 8 => min o x
  | _ => o

end Sys2Proof.Machine
end

