-- ==== Sys2Proof/Machine/Tier.lean ====
section
/-! DEFINITION. Objects, capacity, moves and forwards (chapter 10), and the answers that commands receive (R245, R435). -/
namespace Sys2Proof.Machine

/-! ## Answers -/

namespace Dev

/-- The controller of a port. -/
def ctrl (d : Dev) (p : Nat) : Ctrl := Tab.getD d.host.ctrls p Ctrl.reset
/-- Changes the controller of a port. -/
def modCtrl (d : Dev) (p : Nat) (f : Ctrl → Ctrl) : Dev := { d with host := { d.host with ctrls := Tab.put d.host.ctrls p (f (d.ctrl p)) } }
/-- Posts a completion: HOST_CMD counts it (R452); one that is no success enters the Error Information log (R433). -/
def postCpl (d : Dev) (p : Nat) (c : Cpl) : Dev :=
  (d.modCtrl p (fun t =>
    let t := { t with cpls := t.cpls ++ [c], idleAt := d.now }
    if c.sct = 0 && c.sc = 0 then t
    else { t with errCnt := t.errCnt + 1, errLog := ((leBytes 8 (t.errCnt + 1) ++ leBytes 2 c.sq ++ leBytes 2 c.cid ++ leBytes 2 (c.sc * 2 + c.sct * 512) ++ List.replicate 50 0#8) :: t.errLog).take 64 })).addPair
      (R.hostCmdLo p) 1 (R.hostEvt p) F.hostEvt_cmdWrap
/-- Completes an outstanding NVMe command; one that has been aborted completes as its abort says (R444). -/
def nvmeDone (d : Dev) (p sq cid sct sc : Nat) (dw0 dw1 : W32) (data : List Byte) : Dev :=
  match (d.ctrl p).outst.find? (fun o => o.cmd.sq == sq && o.cmd.cid == cid) with
  | none => d
  | some o =>
    let st : Nat × Nat := if o.flags = 0 then (sct, sc) else (0, if o.flags = 1 then 7 else 8)
    (d.modCtrl p (fun c => { c with outst := c.outst.filter (fun o => !(o.cmd.sq == sq && o.cmd.cid == cid)) })).postCpl p ⟨sq, cid, st.1, st.2, dw0 ||| BitVec.ofNat 32 (o.marks * 256), dw1, data⟩
/-- Completes a computational or vendor command with a device status (R435). -/
def nvmeStatus (d : Dev) (p sq cid st flags hi : Nat) (dw1 : W32) (data : List Byte) : Dev :=
  d.nvmeDone p sq cid (if st = 0 then 0 else 7) st (BitVec.ofNat 32 (st + flags % 256 * 256 + hi % 65536 * 65536)) dw1 data
/-- The run-time's Chamois interrupt for a command that has written its result (Table 09-7); a command of the Tahr subsystem has none. -/
def irqDone (d : Dev) (k : Nat) : Dev := if k < 32 then d.setFld (R.chamIrq k) F.chamIrq_done 1 else d
/-- Writes words of a command block from a word on (R245, R313). -/
def blockPut (d : Dev) (a : W64) (w : Nat) (v : W64) : Dev :=
  let o := addrOff a + 8 * w
  if d.away a then
    let lo := o % 16
    match d.request 0 none 6 (mkAddr (addrNode a) (addrTier a) (alignDown o 16)) (leBytes 16 (0xFF * 2 ^ lo) ++ List.replicate lo 0#8 ++ leBytes 8 v.toNat ++ List.replicate (8 - lo) 0#8) .other with
    | .sent _ d => d
    | _ => d
  else d.lwrite (addrTier a) o (leBytes 8 v.toNat)
/-- Words that another node holds: not known here, so free (log 43). -/
def freeWords : Nat → Dev → List W64 × Dev
  | 0, d => ([], d)
  | n + 1, d => let (w, d) := d.draw; let (l, d) := freeWords n d; (w :: l, d)
/-- Word 6 of an object command block (Table 10-3). -/
def objWord6 (st flags idx tier pins : Nat) : W64 :=
  BitVec.ofNat 64 (st + flags % 256 * 2 ^ 8 + idx * 2 ^ 16 + tier * 2 ^ 34 + pins * 2 ^ 37 + 2 ^ 63)

/-- Answers an object command, or completes a STR.MOVE (R245, R251): its status, flags, the object's index, tier and pins, its
base, and the bytes that a move placed. -/
def answerObj (d : Dev) (who : Asker) (st flags idx tier pins : Nat) (base : W64) (bytes : Nat) : Dev :=
  let w6 := objWord6 st flags idx tier pins
  match who with
  | .none => d
  | .block k a => ((d.blockPut a 7 base).blockPut a 6 w6).irqDone k
  | .nvme p sq cid => d.nvmeStatus p sq cid st flags 0 0#32 (leBytes 8 w6.toNat ++ leBytes 8 base.toNat)
  | .ctx c id => d.asyncDone c id st flags bytes base

/-! ## Capacity (R252 to R254) -/

/-- Tier slot of a tier (R265): tiers 1, 2, 3 and 5. -/
def tierSlot (t : Nat) : Nat := if t = 5 then 3 else t - 1
/-- Allocation unit (Table 10-1). -/
def allocUnit (t : Nat) : Nat := if t = 3 then 4096 else 65536
/-- The tier is pooled. -/
def pooled (d : Dev) (t : Nat) : Bool := d.flag (R.tierCtrl (tierSlot t)) F.tierCtrl_mode
/-- The first offset of the IBEX1 half; a tier without halves has it at its end. -/
def tierHalf (d : Dev) (t : Nat) : Nat := if t = 1 then 0x6000000000 else if t = 2 then 0x8000000000 else d.tierSize t
/-- Bytes of the index of a Rind object (R258). -/
def indexBytes (t size : Nat) : Nat := ceilDiv (8 * ceilDiv size 4096) (allocUnit t) * allocUnit t
/-- Zeros of a range of tier 3: blocks that hold data are deallocated. -/
def t3zero (d : Dev) (off n : Nat) : Dev :=
  ((Tab.keys d.ftl.slots ++ Tab.keys d.ftl.flash).filter (fun b => off ≤ 4096 * b && 4096 * b < off + n)).eraseDups.foldl (fun d b => d.trimBlk b) d
/-- Sets a range of a tier to 0 (R244). -/
def zeroRange (d : Dev) (t off n : Nat) : Dev := if t = 3 then d.t3zero off n else d.mzero t off n

/-- Rounds a size up to the unit of a tier; a size of 0 becomes one unit (R243). -/
def roundSize (t n : Nat) : Nat := ceilDiv (max n 1) (allocUnit t) * allocUnit t
/-- Bytes of the index that goes with an object in a tier: none in tier 1 (R258). The index lies behind its object (log 51). -/
def indexRoom (rind : Bool) (t size : Nat) : Nat := if rind && t != 1 then indexBytes t (roundSize t size) else 0
/-- Bytes that a Rind object is charged in tier 3 (R253): its blocks as they are coded. -/
def rindCharged (d : Dev) (o : Obj) : Nat :=
  ((List.range (ceilDiv o.size 4096)).map (fun i => rindCharge (d.rindStored o i).1)).foldl (· + ·) 0
/-- What an object takes of a tier without its index (R253): in tier 3 a Rind object takes what its coded blocks take. -/
def objBytes (d : Dev) (o : Obj) (t : Nat) : Nat := if o.rind && t = 3 then d.rindCharged o else if o.tier = t then o.size else roundSize t o.size
/-- The charge of an object in a tier, its index with it (R253). -/
def objCharge (d : Dev) (o : Obj) (t : Nat) : Nat := d.objBytes o t + indexRoom o.rind t o.size
/-- What a partition's forwards charge it in a tier. -/
def heldOf (d : Dev) (p t : Nat) : Nat := ((d.tier.forwards.filter (fun f => f.2.part == p && f.2.tier == t)).map (·.2.cost)).foldl (· + ·) 0
/-- The charge of a partition in a tier (R253): objects with their indexes, forwards, destinations of moves. -/
def charge (d : Dev) (p t : Nat) : Nat :=
  ((d.tier.objs.filter (fun o => o.2.part == p && o.2.tier == t && o.2.kind != .lent && o.2.kind != .index)).map (fun o => d.objCharge o.2 t)).foldl (· + ·) 0 + d.heldOf p t +
  (d.tier.objs.map (fun o => match o.2.move with | some m => (if m.tier = t && o.2.part = p then d.objCharge o.2 t else 0) | none => 0)).foldl (· + ·) 0

/-- The translation reserve (R390): 32 GiB at the bottom of each half of tier 2, and the program reserve above the first (R439; log 33). -/
def reserves (t : Nat) : List (Nat × Nat) := if t = 2 then [(0, 0x800000000), (0x8000000000, 0x800000000), (0x800000000, 0x40000000)] else []
/-- The span of a withheld spare (R480). -/
def spareSpan (w : Retired) : Nat × Nat × Nat :=
  let k := unitKind w.ctrl
  let i := unitInst w.ctrl
  let n := if k = 3 then 4 else 8
  let half := if k = 3 then 0x6000000000 else 0x8000000000
  (if k = 3 then 1 else 2, (if i < n then 0 else half) + (w.spare * n + (if w.bank then 0 else i % n)) * 4096, if w.bank then bankGranules k * n * 4096 else 4096)
/-- Ranges of a tier that an allocation may not touch: objects, forwards, destinations, reserves, withheld spares, namespaces,
collections' segments. -/
def usedRanges (d : Dev) (t : Nat) : List (Nat × Nat) :=
  (d.tier.objs.filterMap (fun o => if o.2.tier = t then some (o.2.base, o.2.size) else none)) ++
  (d.tier.forwards.filterMap (fun f => if f.2.tier = t then some (f.2.base, f.2.size + f.2.ix) else none)) ++
  (d.tier.objs.filterMap (fun o => match o.2.move with | some m => (if m.tier = t then some (m.base, roundSize t o.2.size + indexRoom o.2.rind t o.2.size) else none) | none => none)) ++
  reserves t ++
  (d.flt.withheld.filterMap (fun w => let s := spareSpan w; if s.1 = t then some s.2 else none)) ++
  (if t = 3 then d.host.nss.flatMap (fun n => n.2.extents.map (fun e => (e.1 * 4096, e.2 * 4096))) else [])
/-- A range of the window takes in a segment that is not mapped, or that has to be given up (R255 to R257). -/
def unmapped (d : Dev) (t off n : Nat) : Bool :=
  t == 5 && (upFrom (off / 2 ^ 30) (ceilDiv (off % 2 ^ 30 + n) (2 ^ 30))).any (fun s => match Tab.find d.tier.segs s with | some g => g.leaving || g.gone | none => true)
/-- A die half of tier 1 or 2 that self-test withdrew (Table 17-4). -/
def halfGone (d : Dev) (t half : Nat) : Bool :=
  (t == 1 && d.flag (mcBase 3 (4 * half)) F.hbmcStatus_withdrawn) || (t == 2 && d.flag (mcBase 4 (8 * half)) F.hbmcStatus_withdrawn)
/-- A range may be taken: inside the tier, in one half, clear of what is used. -/
def rangeFree (d : Dev) (t off n : Nat) : Bool :=
  let h := d.tierHalf t
  decide (off + n ≤ d.tierSize t) && decide (off + n ≤ h ∨ h ≤ off) && !d.halfGone t (if off < h then 0 else 1) && !d.unmapped t off n &&
  (d.usedRanges t).all (fun r => r.1 + r.2 ≤ off || off + n ≤ r.1)
/-- Bytes of a half that are in no object and no forward. -/
def halfFree (d : Dev) (t half : Nat) : Nat :=
  let h := d.tierHalf t
  let lo := if half = 0 then 0 else h
  let n := if half = 0 then min h (d.tierSize t) else d.tierSize t - h
  if d.halfGone t half then 0 else
  n - (((d.usedRanges t).filter (fun r => lo ≤ r.1 && r.1 < lo + n)).map (·.2)).foldl (· + ·) 0
/-- free(t) of R254; in the neighbour window, of the mapped segments. -/
def freeOf (d : Dev) (t : Nat) : Nat :=
  if t = 5 then ((d.tier.segs.filter (fun g => !g.2.leaving && !g.2.gone)).map (fun g =>
    2 ^ 30 - ((d.usedRanges 5).map (fun r => min (r.1 + r.2) ((g.1 + 1) * 2 ^ 30) - max r.1 (g.1 * 2 ^ 30))).foldl (· + ·) 0)).foldl (· + ·) 0
  else d.halfFree t 0 + d.halfFree t 1
/-- pend(t) of R254: forwards of published demotions. -/
def pendOf (d : Dev) (t : Nat) : Nat := ((d.tier.forwards.filter (fun f => f.2.tier == t && f.2.demotion)).map (fun f => f.2.size + f.2.ix)).foldl (· + ·) 0
/-- What demotions that have begun will leave: the loop of R254 counts each as it starts it (its worked example, step 1; DEDUCED, log 51). -/
def goingOf (d : Dev) (t : Nat) : Nat :=
  ((d.tier.objs.filter (fun o => o.2.tier == t && (o.2.move.any (·.demotion) || d.tier.waits.any (fun w => w.2.moving == some o.1 && w.2.demotion)))).map
    (fun o => o.2.size + indexRoom o.2.rind t o.2.size)).foldl (· + ·) 0
/-- projected(t) of R254. -/
def projected (d : Dev) (t : Nat) : Nat := d.freeOf t + d.pendOf t + d.goingOf t
/-- LOW and HIGH in bytes: 1/1,024ths of the tier's built size. -/
def lowOf (d : Dev) (t : Nat) : Nat := d.tierSize t * d.fld (R.tierCtrl (tierSlot t)) F.tierCtrl_low / 1024
def highOf (d : Dev) (t : Nat) : Nat := d.tierSize t * d.fld (R.tierCtrl (tierSlot t)) F.tierCtrl_high / 1024
/-- Places where a range of n bytes would start: the start of each half and the end of each used range. -/
def gapStarts (d : Dev) (t die n : Nat) : List Nat :=
  let h := d.tierHalf t
  let u := allocUnit t
  let ends := 0 :: h :: (d.usedRanges t).map (fun r => r.1 + r.2)
  let segs := if t = 5 then (Tab.keys d.tier.segs).map (· * 2 ^ 30) else []
  ((ends ++ segs).map (fun x => ceilDiv x u * u)).eraseDups.filter (fun x =>
    d.rangeFree t x n && (die = 0 || (die = 1 && x < h) || (die = 2 && h ≤ x)))
/-- The half that takes an object with DIE 0b00: the one with more free bytes, IBEX0 in a tie (R246); 0 in a tier without halves. -/
def halfFor (d : Dev) (t die : Nat) : Nat :=
  if t ≠ 1 ∧ t ≠ 2 then 0 else if die ≠ 0 then die else if d.halfFree t 0 < d.halfFree t 1 then 2 else 1
/-- Takes a range of n bytes: which of the gaps it lies in is the run-time's choice (R243; a free value, log 5). -/
def takeGap (d : Dev) (t die n : Nat) : Option (Nat × Dev) :=
  let l := d.gapStarts t (d.halfFor t die) n
  if l.isEmpty then none else
  let (i, d) := d.choose l.length
  some (l.getD i 0, d)

/-- How an allocation ended. -/
inductive Alloc where
  | got (base : Nat)
  | full
  | later
  deriving DecidableEq, Repr

/-- Objects of a tier that may be demoted, oldest Touch first, a tie to the lower index (R254). -/
def demotable (d : Dev) (t : Nat) : Option Nat :=
  let l := d.tier.objs.filter (fun o => o.2.tier == t && o.2.pins + o.2.fixedPins == 0 && o.2.move.isNone && !d.tier.waits.any (fun w => w.2.moving == some o.1))
  match l with
  | [] => none
  | h :: r => some (r.foldl (fun b o => if o.2.touch < b.2.touch then o else b) h).1
/-- Changes an object. -/
def modObj (d : Dev) (i : Nat) (f : Obj → Obj) : Dev := { d with tier := { d.tier with objs := Tab.modify d.tier.objs i f } }
/-- Adds an allocation that waits. -/
def addWait (d : Dev) (w : AllocWait) : Dev :=
  { d with tier := { d.tier with waits := Tab.put d.tier.waits d.tier.nextId w, nextId := d.tier.nextId + 1 } }

/-- An allocator: partition, tier, bytes to take, die, bytes to charge. -/
abbrev Allocator := Dev → Nat → Nat → Nat → Nat → Nat → Alloc × Dev
/-- Starts a move with an allocator (Table 10-4 step 1): false where the destination, with room for the index, cannot be reserved. -/
def beginMove (al : Allocator) (d : Dev) (i t : Nat) (demotion : Bool) (who : Asker) (fl : Nat) : Bool × Dev :=
  match Tab.find d.tier.objs i with
  | none => (false, d)
  | some o =>
    let s := roundSize t o.size + indexRoom o.rind t o.size
    -- every block of a Rind object takes a packed entry in tier 3 (R400)
    if o.rind && t = 3 && d.fineFree < ceilDiv o.size 4096 then (false, d) else
    match al d o.part t s 0 (d.objCharge o t) with
    | (.got b, d) => (true, d.modObj i (fun o => { o with move := some ⟨t, b, demotion, [], who, fl, []⟩ }))
    | (.full, d) => (false, d)
    | (.later, d) => (true, d.addWait ⟨t, 0, s, o.part, [], some i, demotion, who, fl, []⟩)
/-- The loop of demote(t, s) (R254): objects move to the next tier until projected(t) − s reaches HIGH. -/
def demoteLoop (al : Allocator) : Nat → Dev → Nat → Nat → Dev
  | 0, d, _, _ => d
  | n + 1, d, t, s =>
    if d.projected t < d.highOf t + s then
      match d.demotable t with
      | none => d
      | some i =>
        match beginMove al d i (t + 1) true .none 0 with
        | (true, d) => demoteLoop al n d t s
        | (false, d) => d
    else d
/-- allocate(t, s) of R252 and R254 with n tiers of demotion below it: partition, tier, size, die, charge. -/
def allocate : Nat → Allocator
  | n, d, p, t, s, die, cost =>
    if !d.pooled t then
      if p < 16 && (d.reg (R.tierQuota p (tierSlot t))).toNat * 2 ^ 20 < d.charge p t + cost then (.full, d)
      else match d.takeGap t die s with
        | some (b, d) => (.got b, d)
        | none => (.full, d)
    else
      let demote := fun (d : Dev) (s : Nat) => match n with
        | 0 => d
        | m + 1 => if t = 3 ∨ t = 5 then d else demoteLoop (fun d p t s die cost => allocate m d p t s die cost) d.tier.objs.length d t s
      let d := if d.projected t < d.highOf t + s then demote d s else d
      match d.takeGap t die s with
      | some (b, d) => (.got b, if d.freeOf t < d.lowOf t + s then demote d s else d)
      | none => (.later, d)
/-- The allocation procedure: demotion runs from tier 1 to 2 and from 2 to 3. -/
def alloc (d : Dev) (p t s die : Nat) : Alloc × Dev := allocate 2 d p t s die s
/-- Counts a pool allocation that failed (R254). -/
def countFull (d : Dev) : Dev := d.count R.tierFullCnt R.tierEvt F.tierEvt_fullOvf
/-- Counts a clamp of an object command or a TIER field. -/
def tierClamp (d : Dev) (n : Nat) : Dev := d.countN R.tierClampCnt R.tierEvt F.tierEvt_clampOvf n

/-! ## Objects -/

/-- A free object index: the run-time's choice (R243; log 5). -/
def freeIndex (d : Dev) : Nat × Dev :=
  let (w, d) := d.draw
  let i := w.toNat % 262144
  let j := Tab.firstFree d.tier.objs 262144 i
  (if j < 262144 then j else Tab.firstFree d.tier.objs 262144 0, d)
/-- Puts a new object into a range, which is first set to 0 (R244). -/
def placeObj (d : Dev) (o : Obj) : Nat × Dev :=
  let (i, d) := d.freeIndex
  let d := (d.zeroRange o.tier o.base o.size).purge o.tier o.base o.size
  (i, { d with tier := { d.tier with objs := Tab.put d.tier.objs i { o with touch := d.now / 1000000 } } })
/-- The global address of an object. -/
def objAddr (d : Dev) (o : Obj) : W64 := mkAddr d.nodeId o.tier o.base
/-- Answers a command with an object's present attributes (Table 10-3); bit 3 of the flags is LOST (R259). -/
def answerWith (d : Dev) (who : Asker) (st flags i : Nat) (bytes : Nat) : Dev :=
  match Tab.find d.tier.objs i with
  | none => d.answerObj who st flags i 0 0 0#64 bytes
  | some o => d.answerObj who st (flags + b2n o.lost * 8) i o.tier (min 65535 (o.pins + o.fixedPins)) (d.objAddr o) bytes
/-- The attributes that a CREATE's words name (Table 10-3), after their clamps; its clamps. -/
def createArgs (d : Dev) (r : Req) (ws : List W64) : Nat × Bool × Nat × Bool × Nat × Nat × Nat × W64 × Nat :=
  let w := ws.getD 0 0#64
  let auto := bit64 w 11
  let t0 := bits64 w 8 3
  let t := if t0 = 0 ∨ t0 = 4 ∨ 6 ≤ t0 then 1 else if t0 = 5 && !d.admits5 r then 1 else t0
  let fmt0 := bits64 w 15 4
  let die0 := bits64 w 19 2
  let loc := ws.getD 3 0#64
  let size := (ws.getD 1 0#64).toNat
  let clamps := b2n (!auto && t != t0) + b2n (bit64 w 14 && 12 ≤ fmt0) + b2n (die0 == 3 && (auto || t == 1 || t == 2)) + b2n (loc.toNat % 8 != 0) + b2n (size == 0)
  (t, auto, bits64 w 12 2, bit64 w 14, if 12 ≤ fmt0 then 0 else fmt0, if die0 = 3 then 0 else die0, size, BitVec.ofNat 64 (alignDown loc.toNat 8), clamps)
/-- The object that a creation makes. -/
def newObj (p t base size hint : Nat) (rind : Bool) (fmt : Nat) (loc : W64) (k : ObjKind) (fixed : Nat) : Obj :=
  ⟨p, k, t, base, size, hint, 0, fixed, rind, fmt, loc, 0, false, [], none, none⟩
/-- Where an object's locator word stands. -/
def locPlace (d : Dev) (o : Obj) : Place := d.clampSteps (.unit 9 0) false noT34 o.locator 8
/-- The lines that keep an object's locator word from being written. -/
def locHeld (d : Dev) (o : Obj) : List Nat :=
  if o.locator = 0#64 || !d.isHere (d.locPlace o) then [] else d.lholds (d.locPlace o).tier (d.locPlace o).off 8 true
/-- Writes an object's locator word as a release (R247). What keeps it waiting is started, and it is written, as a completion record is,
as soon as it can be. -/
def putLocator (d : Dev) (o : Obj) : Dev :=
  if o.locator = 0#64 then d else
  let p := d.locPlace o
  let d := d.noteClamps (.unit 9 0) p.kinds o.locator
  let b := leBytes 8 (d.objAddr o).toNat
  let i := Tab.firstFree d.posts (d.posts.length + 1) 0
  let post := fun (d : Dev) (n : Nat) => ({ d with posts := Tab.put d.posts i ⟨placeAddr p, [d.objAddr o], none, n, none, none⟩ } : Dev)
  if d.isHere p then
    if (d.locHeld o).isEmpty then d.lwrite p.tier p.off b else post (d.dirAsk true (d.locHeld o)) 1
  else match d.request 0 none 6 (placeAddr p) (leBytes 16 (0xFF * 2 ^ (p.off % 16)) ++ List.replicate (p.off % 16) 0#8 ++ b ++ List.replicate (8 - p.off % 16) 0#8) (.post i) with
    | .sent _ d => post d 2
    | .wait => post d 1
    | .no d => d
/-- Makes the index object that goes with an object, behind it (R243, R258). -/
def addIndex (d : Dev) (i : Nat) : Dev :=
  match Tab.find d.tier.objs i with
  | none => d
  | some o =>
    let n := indexRoom o.rind o.tier o.size
    if n = 0 then d else
    let (j, d) := d.placeObj (newObj o.part o.tier (o.base + o.size) n 0 false 0 0#64 .index 1)
    d.modObj i (fun o => { o with idx := some j })
/-- Ends a creation that has its range. -/
def finishCreate (d : Dev) (r : Req) (p t base : Nat) (ws : List W64) (who : Asker) (flags : Nat) : Dev :=
  let (_, _, hint, rind, fmt, _, size, loc, _) := d.createArgs r ws
  let o := newObj p t base (roundSize t size) hint rind fmt loc .plain (if hint = 3 then 1 else 0)
  let (i, d) := d.placeObj o
  ((d.addIndex i).putLocator o).answerWith who 0 flags i 0
/-- Asks another node to lend a segment for the neighbour window (R255, R299): whom is the run-time's choice (log 39). -/
def askLend (d : Dev) : Dev :=
  let ns := (Tab.keys d.herd.routes).filter (fun n => n ≠ d.nodeId && !(d.routeLinks n).isEmpty)
  let s := Tab.firstFree d.tier.segs 16384 0
  if ns.isEmpty || 16384 ≤ s || d.herd.outs.any (fun o => match o.2.kind with | .lend _ => true | _ => false) then d else
  let (i, d) := d.choose ns.length
  match d.request 0 none 0x0A (mkAddr (ns.getD i 0) 0 0) [] (.lend s) with
  | .sent _ d => d
  | _ => d
/-- A command names tier 5 and is given tier 1 (R73): whether the run-time then asks for segments is its policy, a free choice (log 39). -/
def lendWish (d : Dev) (named : Bool) : Dev :=
  if !named then d else
  let (i, d) := d.choose 2
  if i = 1 then d.askLend else d
/-- The tier of an object that is created with AUTO (R246). -/
def autoTier (d : Dev) (p hint die size : Nat) : Nat :=
  if 2 ≤ hint && (d.takeGap 1 die (roundSize 1 size)).isSome && (d.pooled 1 || d.charge p 1 + roundSize 1 size ≤ (d.reg (R.tierQuota p 0)).toNat * 2 ^ 20) then 1 else 2
/-- CREATE (R246): the tier from HINT with AUTO, the die half, the allocation of R252 and R254. Of conditions that fail the lowest code is
answered (R17). -/
def createObj (d : Dev) (r : Req) (p : Nat) (ws : List W64) (who : Asker) (fl0 : Nat := 0) : Dev :=
  let (t, auto, hint, rind, _, die, size, _, clamps) := d.createArgs r ws
  let d := (d.tierClamp clamps).lendWish (!auto && t != 5 && bits64 (ws.getD 0 0#64) 8 3 == 5)
  let fl := fl0 ||| min 1 clamps
  let t := if auto then d.autoTier p hint die size else t
  let x := indexRoom rind t size
  if rind && t = 3 && d.fineFree < ceilDiv size 4096 then d.answerObj who 3 fl 0 t 0 0#64 0 else
  let fails := if 262144 ≤ d.tier.objs.length + b2n (x != 0) then 0x28 else if t = 3 && d.ftl.retired then 0x58 else 0
  -- a new Rind object is all zeros: in tier 3 its blocks are charged nothing (R253)
  match allocate 2 d p t (roundSize t size + x) die ((if rind && t = 3 then 0 else roundSize t size) + x) with
  | (.got b, e) => if fails ≠ 0 then d.answerObj who fails fl 0 t 0 0#64 0 else e.finishCreate r p t b ws who fl
  | (.full, d) => (if t = 5 then d.askLend else d).answerObj who 3 fl 0 t 0 0#64 0
  | (.later, e) => if fails ≠ 0 then d.answerObj who fails fl 0 t 0 0#64 0 else
    let d := e
    (if t = 5 then d.askLend else d).addWait ⟨t, die, roundSize t size + x, p, ws, none, false, who, fl, []⟩

/-- Removes an object with its index and its forwards (R251); the ranges read on as ordinary memory until they are given out again (R244). -/
def dropObj (d : Dev) (i : Nat) : Dev :=
  let objs := match (Tab.find d.tier.objs i).bind (·.idx) with | some j => Tab.del d.tier.objs j | none => d.tier.objs
  { d with tier := { d.tier with objs := Tab.del objs i, forwards := d.tier.forwards.filter (fun f => f.2.obj != i), waits := d.tier.waits.filter (fun w => w.2.moving != some i) } }
/-- Answers the askers of moves that a FREE has abandoned (R251): with which status is not stated, a free value. -/
def abandoned (d : Dev) (i : Nat) (l : List (Asker × Nat)) : Dev :=
  (l.filter (·.1 != .none)).foldl (fun d a => let (w, d) := d.draw; d.answerWith a.1 (w.toNat % 256) a.2 i 0) d
/-- Starts a move, or has it follow the one in progress (R251): an object already there answers with its base. -/
def moveObj (d : Dev) (i t : Nat) (who : Asker) (flags : Nat) : Dev :=
  match Tab.find d.tier.objs i with
  | none => d
  | some o =>
    match o.move with
    | some _ => d.modObj i (fun o => { o with move := o.move.map (fun m => { m with next := m.next ++ [(t, who, flags)] }) })
    | none =>
      if d.tier.waits.any (fun w => w.2.moving == some i) then
        { d with tier := { d.tier with waits := d.tier.waits.map (fun w => if w.2.moving = some i then (w.1, { w.2 with next := w.2.next ++ [(t, who, flags)] }) else w) } }
      -- an index stays in its object's tier (R258)
      else if o.tier = t || o.kind = .index then d.answerWith who 0 flags i 0
      else
        match beginMove (allocate 2) d i t false who flags with
        | (true, e) => if t = 3 && d.ftl.retired then d.answerWith who 0x58 flags i 0 else e
        | (false, d) => d.answerWith who 3 flags i 0
/-- Gives a waiting allocation its range (R254): the move begins, or the creation ends, with OBJECT_LIMIT where the table has filled up. -/
def grantWait (d : Dev) (n : Nat) (w : AllocWait) (b : Nat) : Dev :=
  let d : Dev := { d with tier := { d.tier with waits := Tab.del d.tier.waits n } }
  match w.moving with
  | some i => d.modObj i (fun o => { o with move := some ⟨w.tier, b, w.demotion, [], w.who, w.fl, w.next⟩ })
  | none =>
    if 262144 ≤ d.tier.objs.length + b2n (bit64 (w.words.getD 0 0#64) 14 && w.tier != 1) then d.answerObj w.who 0x28 w.fl 0 0 0 0#64 0
    else d.finishCreate (.unit 0x10 0) w.part w.tier b w.words w.who w.fl
/-- Gives waiting allocations the room there now is, oldest first (R254). -/
def retryWaits (d : Dev) : Dev :=
  d.tier.waits.foldl (fun d w =>
    match d.takeGap w.2.tier w.2.die w.2.size with
    | none => d
    | some (b, e) => e.grantWait w.1 w.2 b) d

/-- ADDR_WIN.SIZE follows the highest mapped segment (R255). -/
def winSize (d : Dev) : Dev := d.setFld R.addrWin F.addrWin_size (1024 * (d.tier.segs.map (fun s => s.1 + 1)).foldl max 0)
/-- The address of a lender's segment. -/
def segAddr (g : Seg) : W64 := mkAddr g.node g.tier g.offset
/-- Returns a segment to its lender (R299). -/
def sendFree (d : Dev) (g : Seg) : Dev :=
  match d.request 0 none 0x0B (segAddr g) [] .lendFree with
  | .sent _ d => d
  | _ => d
/-- No object and no forward lies in a segment of the window. -/
def segEmpty (d : Dev) (i : Nat) : Bool :=
  !d.tier.objs.any (fun o => o.2.tier == 5 && o.2.base < (i + 1) * 2 ^ 30 && i * 2 ^ 30 < o.2.base + o.2.size) &&
  !d.tier.forwards.any (fun f => f.2.tier == 5 && f.2.base < (i + 1) * 2 ^ 30 && i * 2 ^ 30 < f.2.base + f.2.size)
/-- Unmaps the segments that are to be given up and that nothing uses any more: those that were recalled are returned (R256), those of
a lender that is gone are not (R257). -/
def segsLeave (d : Dev) : Dev :=
  if d.tier.segs.all (fun s => !s.2.leaving && !s.2.gone) then d else
  ((d.tier.segs.filter (fun s => s.2.leaving || s.2.gone)).foldl (fun d s =>
    if d.segEmpty s.1 && !d.herd.outs.any (fun o => o.2.kind == .lend s.1) then
      let e : Dev := { d with tier := { d.tier with segs := Tab.del d.tier.segs s.1 } }
      if s.2.gone then e else e.sendFree s.2
    else d) d).winSize
/-- Frees an object that has no pins and no move: a move of it that waits for room is abandoned, what waits for room may have it, and
segments of the window that it was the last to use are given up. -/
def freeObj (d : Dev) (i : Nat) : Dev :=
  let w := (d.tier.waits.filter (fun w => w.2.moving == some i)).flatMap (fun w => (w.2.who, w.2.fl) :: w.2.next.map (·.2))
  (((d.abandoned i w).dropObj i).retryWaits).segsLeave

/-- The object of a partition that an address lies in, or whose forward it lies in (R245); the run-time's commands reach every
partition's objects (log 34). -/
def findObj (d : Dev) (p : Nat) (a : W64) : Option Nat :=
  let t := addrTier a
  let off := addrOff a
  if t != 5 && addrNode a != d.nodeId then none else
  match d.objAt t off with
  | some (i, o) => if o.part = p || p = 16 then some i else none
  | none => match d.fwdAt t off with
    | some (_, f) => if f.part = p || p = 16 then some f.obj else none
    | none => none

/-- A move can be published: what lands in tier 3 finds room in the write buffer, and an index that it needs a place in the object table. -/
def moveFits (d : Dev) (o : Obj) (m : MoveJob) : Bool :=
  (m.tier != 3 || d.t3canWrite m.base o.size) && (o.idx.isSome || indexRoom o.rind m.tier o.size == 0 || d.tier.objs.length < 262144)
/-- Copies an object's bytes and its poison to its new range (R247). -/
def copyObj (d : Dev) (o : Obj) (t base : Nat) : Dev :=
  if o.tier ≠ 3 ∧ t ≠ 3 then
    let k := memKey o.tier o.base
    let k' := memKey t base
    let bad := d.flt.poison.filter (fun p => k ≤ p.1 && p.1 < k + o.size)
    let d := Dev.cleanRange { d with mem := Memory.copy d.mem k o.size k' } k' o.size
    let d := bad.foldl (fun d p => d.poisonRange (k' + (p.1 - k)) (codeWordSize o.tier)) d
    -- expanded, a malformed block is uncorrectable (R263)
    if t ≠ 1 then d else o.enc.foldl (fun d b => if (rindDecode o.fmt b.2.entry b.2.payload).isNone then d.poisonRange (k' + 4096 * b.1) 4096 else d) d
  else
    (List.range (o.size / 4096)).foldl (fun d i =>
      let v := d.lreadPiece o.tier (o.base + 4096 * i) 4096
      if t = 3 then d.admitVer (base / 4096 + i) ⟨Cells.of v.1, [], v.2⟩ (v.1.all (· == 0#8) && !v.2)
      else
        let d := Dev.cleanRange { d with mem := Memory.write d.mem (memKey t (base + 4096 * i)) v.1 } (memKey t (base + 4096 * i)) 4096
        if v.2 then d.poisonRange (memKey t (base + 4096 * i)) 4096 else d) d
/-- An object's index follows it (R258): to the place behind its new range, or away with it into tier 1. -/
def moveIndex (d : Dev) (i : Nat) : Dev :=
  match Tab.find d.tier.objs i with
  | none => d
  | some o =>
    let n := indexRoom o.rind o.tier o.size
    match o.idx with
    | none => d.addIndex i
    | some j =>
      if n = 0 then ({ d with tier := { d.tier with objs := Tab.del d.tier.objs j } } : Dev).modObj i (fun o => { o with idx := none })
      else ((d.zeroRange o.tier (o.base + o.size) n).purge o.tier (o.base + o.size) n).modObj j (fun x => { x with tier := o.tier, base := o.base + o.size, size := n })
/-- Host vendor commands that have named an address of an object and are not complete (R249): moves of it that wait for the one in
progress, and creations that wait for room with their locator word in it. -/
def namedBy (d : Dev) (o : Obj) (m : MoveJob) : List (Nat × Nat × Nat) :=
  let loc := fun (w : AllocWait) => let a := w.words.getD 3 0#64; w.moving.isNone && addrTier a == o.tier && addrNode a == d.nodeId && decide (o.base ≤ addrOff a ∧ addrOff a < o.base + o.size)
  (m.next.map (·.2.1) ++ (d.tier.waits.filter (fun w => loc w.2)).map (·.2.who)).filterMap (fun a => match a with | .nvme p q c => some (p, q, c) | _ => none)
/-- Publishes a move (Table 10-4 steps 4 to 6): the copy, the forward, the locator word, the answer. -/
def publish (d : Dev) (i : Nat) : Dev :=
  match Tab.find d.tier.objs i with
  | none => d
  | some o =>
    match o.move with
    | none => d
    | some m =>
      match m.abandon with
      | a :: more =>
        let d := d.abandoned i ((m.who, m.fl) :: m.next.map (·.2))
        more.foldl (fun d b => d.answerObj b.1 0x29 b.2 0 0 0 0#64 0) ((d.answerWith a.1 0 a.2 i 0).freeObj i)
      | [] =>
        let held := d.dirHolds o.tier o.base o.size true ++ d.locHeld o
        if !held.isEmpty then d.dirAsk true held
        else if !d.moveFits o m then d
        else
          let size := roundSize m.tier o.size
          let ctxs := (d.ctxs.filter (fun c => c.2.part == o.part)).map (·.1)
          let ack := (List.range 32).any (fun n => d.chamOwner n == o.part)
          let f : Forward := ⟨o.part, i, o.tier, o.base, o.size, indexRoom o.rind o.tier o.size, d.objCharge o o.tier, m.demotion, ctxs, ack, d.namedBy o m, false⟩
          let o' := { o with tier := m.tier, base := m.base, size := size, move := none, enc := if m.tier = 1 then [] else o.enc }
          let d := ((d.zeroRange m.tier m.base size).purge m.tier m.base size).copyObj o m.tier m.base
          let d : Dev := { d with tier := { d.tier with objs := Tab.put d.tier.objs i o', forwards := Tab.put d.tier.forwards d.tier.nextId f, nextId := d.tier.nextId + 1 } }
          let d := d.breakResv o.tier o.base o.size
          let d := (d.moveIndex i).putLocator o'
          let d := d.count R.tierMoveCnt R.tierEvt F.tierEvt_moveOvf
          let d := if m.demotion then d.count R.tierDemoteCnt R.tierEvt F.tierEvt_demoteOvf else d
          let d := d.answerWith m.who 0 m.fl i (d.objBytes o' m.tier)
          m.next.foldl (fun d n => d.moveObj i n.1 n.2.1 n.2.2) d

/-- The rebase point of a forward has come (R249). -/
def rebased (d : Dev) (f : Forward) : Bool :=
  f.ctxs.isEmpty && !f.needAck &&
  f.hostCmds.all (fun h => match Tab.find d.host.ctrls h.1 with
    | some c => !c.outst.any (fun q => q.cmd.sq == h.2.1 && q.cmd.cid == h.2.2)
    | none => true)
/-- A context has completed a task boundary, or has ended (R249). -/
def passBoundary (d : Dev) (c : Nat) : Dev :=
  { d with tier := { d.tier with forwards := d.tier.forwards.map (fun f => (f.1, { f.2 with ctxs := f.2.ctxs.filter (· ≠ c) })) } }
/-- A forward retires (Table 10-4 step 7): the old range is set to 0 and freed. -/
def retireFwd (d : Dev) (i : Nat) : Dev :=
  match Tab.find d.tier.forwards i with
  | none => d
  | some f =>
    if !d.rebased f then d else
    let d : Dev := { d with tier := { d.tier with forwards := Tab.del d.tier.forwards i } }
    ((d.zeroRange f.tier f.base (f.size + f.ix)).retryWaits).segsLeave

/-- A waiting allocation has waited TIER_WAIT ms (R254): it has the room that there now is, else it fails, and moves of its object
that waited behind it begin. -/
def expireWait (d : Dev) (i : Nat) : Dev :=
  match Tab.find d.tier.waits i with
  | none => d
  | some w =>
    match d.takeGap w.tier w.die w.size with
    | some (b, d) => d.grantWait i w b
    | none =>
      let d := ({ d with tier := { d.tier with waits := Tab.del d.tier.waits i } } : Dev).countFull
      match w.moving with
      | some o => w.next.foldl (fun d n => d.moveObj o n.1 n.2.1 n.2.2) (d.answerWith w.who 3 w.fl o 0)
      | none => d.answerObj w.who 3 w.fl 0 w.tier 0 0#64 0

/-- Bytes in MiB, rounded up. -/
def mibUp (n : Nat) : Nat := ceilDiv n (2 ^ 20)
/-- What the counted TIER registers read as; 0 until the run-time has loaded its settings (Tables 10-8b to 10-8e). -/
def tierReg (d : Dev) (a : Nat) : Option W32 :=
  let r := fun (n : Nat) => some (if d.tier.loaded then BitVec.ofNat 32 n else 0#32)
  let ts := [1, 2, 3, 5]
  match (List.range 4).find? (fun u => R.tierFreeLo u ≤ a && a ≤ R.tierFreeLo u + 0xC) with
  | some u =>
    let t := ts.getD u 1
    let held := ((d.tier.forwards.filter (fun f => f.2.tier == t)).map (fun f => f.2.size + f.2.ix)).foldl (· + ·) 0
    let o := a - R.tierFreeLo u
    if o = 0 then r (d.freeOf t) else if o = 4 then r (d.freeOf t / 2 ^ 32) else if o = 8 then r held else r (held / 2 ^ 32)
  | none =>
    if a = R.tierObjCnt then some (BitVec.ofNat 32 d.tier.objs.length)
    else if R.tierQuota 0 0 ≤ a && a < R.tierQuota 0 0 + 0x400 then
      let p := (a - R.tierQuota 0 0) / 0x40
      let t := ts.getD ((a - R.tierQuota 0 0) / 0x10 % 4) 1
      match (a - R.tierQuota 0 0) % 0x10 with
      | 4 => r (mibUp (d.charge p t))
      | 8 => r (mibUp (d.heldOf p t))
      | _ => none
    else none

end Dev

end Sys2Proof.Machine
end

