-- ==== Sys2Proof/Machine/ExecTier.lean ====
section
/-! DEFINITION. The commands of the object service and of moves (chapter 10). -/
namespace Sys2Proof.Machine

namespace Dev

/-- The little-endian words of bytes. -/
def wordsOf : Nat → List Byte → List W64
  | 0, _ => []
  | n + 1, l => BitVec.ofNat 64 (leVal (l.take 8)) :: wordsOf n (l.drop 8)

/-- The partition for which a Chamois core's command is taken (R245): its own; 16 for the run-time's. -/
def cmdPart (d : Dev) (k : Nat) : Nat := if k < 32 && d.chamOwner k < 16 then d.chamOwner k else 16

/-- Reads a command block of 64 bytes at an address (R245, R313) and acts on it; one whose lines wait
at the directory, or are still to come from another node (log 43), is not taken yet. -/
def withBlock (d : Dev) (r : Req) (a : W64) (f : Dev → W64 → List W64 → Dev) : Dev :=
  let p := d.clampSteps r false noT3 a 64
  let use := match r with | .cham k => 200 + k | _ => 232
  if !d.isHere p then
    if d.hasFetched none use (placeAddr p) 64 then
      f ((d.doneFetch true none use).noteClamps r p.kinds a) (placeAddr p) (wordsOf 8 (d.fetchedBytes none use (placeAddr p) 64))
    else d.askFetch 0 (r.part d) none use (placeAddr p) 64
  else if !d.lready p.tier p.off 64 true then d.dirAsk true (d.lholds p.tier p.off 64 true)
  else
    let ws := wordsOf 8 (d.lread p.tier p.off 64).1
    f ((d.noteClamps r p.kinds a).ltouch false p.tier p.off 64) (placeAddr p) ws

/-- An object command of a Chamois core k, or of the Tahr subsystem (k = 32), which acts for the run-time: OP, after its clamp, must be
the row's (Table 10-3). -/
def ocmd (d : Dev) (k : Nat) (a : W64) (op : Nat) (f : Dev → Nat → List W64 → Asker → Nat → Dev) : Dev :=
  let r : Req := if k < 32 then .cham k else .unit 0x10 0
  d.regDo r R.tierOcmdLo (fun d =>
    d.withBlock r a (fun e at' ws =>
      let op0 := bits64 (ws.getD 0 0#64) 0 8
      let o := if 1 ≤ op0 ∧ op0 ≤ 7 then op0 else 7
      if o ≠ op then d else f (e.tierClamp (b2n (o != op0))) (d.cmdPart k) ws (.block k at') (b2n (o != op0))))

/-- A command on the object that its ADDR names; NOT_AN_OBJECT where there is none (R245). -/
def onObj (d : Dev) (p : Nat) (ws : List W64) (who : Asker) (fl : Nat) (f : Dev → Nat → Obj → Dev) : Dev :=
  match d.findObj p (ws.getD 2 0#64) with
  | none => d.answerObj who 0x29 fl 0 0 0 0#64 0
  | some i => match Tab.find d.tier.objs i with
    | none => d.answerObj who 0x29 fl 0 0 0 0#64 0
    | some o => f d i o

/-- FREE (R245, R251). -/
def objFree (d : Dev) (p : Nat) (ws : List W64) (who : Asker) (fl : Nat) : Dev :=
  d.onObj p ws who fl (fun d i o =>
    if o.pins + o.fixedPins ≠ 0 then d.answerWith who 0x2A fl i 0
    else if o.move.isSome then d.modObj i (fun o => { o with move := o.move.map (fun m => { m with abandon := m.abandon ++ [(who, fl)] }) })
    else (d.answerWith who 0 fl i 0).freeObj i)
/-- MOVE (R247): the target's clamps, then the move. -/
def objMove (d : Dev) (r : Req) (p : Nat) (ws : List W64) (who : Asker) (fl : Nat) : Dev :=
  let t0 := bits64 (ws.getD 0 0#64) 8 3
  let t := if t0 = 0 ∨ t0 = 4 ∨ 6 ≤ t0 then 1 else if t0 = 5 && !d.admits5 r then 1 else t0
  let n := b2n (t != t0)
  ((d.tierClamp n).lendWish (t0 == 5 && t != 5)).onObj p ws who (fl ||| n) (fun d i _ => d.moveObj i t who (fl ||| n))
/-- The moves that wait behind a demotion of an object that has not published (R251). -/
def demotionNext (d : Dev) (i : Nat) : List (Nat × Asker × Nat) :=
  (((Tab.find d.tier.objs i).bind (·.move)).toList.filter (·.demotion)).flatMap (·.next) ++
  (d.tier.waits.filter (fun w => w.2.moving == some i && w.2.demotion)).flatMap (·.2.next)
/-- PIN (R243, R251): abandons a demotion that has not published. -/
def objPin (d : Dev) (p : Nat) (ws : List W64) (who : Asker) (fl : Nat) : Dev :=
  d.onObj p ws who fl (fun d i o =>
    if 65535 ≤ o.pins + o.fixedPins then (d.tierClamp 1).answerWith who 0 (fl ||| 1) i 0
    else
      let next := d.demotionNext i
      let d := d.modObj i (fun o => { o with pins := o.pins + 1, move := o.move.bind (fun m => if m.demotion then none else some m) })
      let d : Dev := { d with tier := { d.tier with waits := d.tier.waits.filter (fun w => !(w.2.moving == some i && w.2.demotion)) } }
      let d := d.answerWith who 0 fl i 0
      if o.move.any (·.demotion) || !next.isEmpty then (next.foldl (fun d n => d.moveObj i n.1 n.2.1 n.2.2) d).retryWaits else d)
/-- UNPIN (R245): at a count of 0, or of the one pin that cannot be removed, the count stays and a clamp counts. -/
def objUnpin (d : Dev) (p : Nat) (ws : List W64) (who : Asker) (fl : Nat) : Dev :=
  d.onObj p ws who fl (fun d i o =>
    if o.pins = 0 then (d.tierClamp 1).answerWith who 0 (fl ||| 1) i 0
    else (d.modObj i (fun o => { o with pins := o.pins - 1 })).answerWith who 0 fl i 0)
/-- REBASE_ACK (R249): acknowledges the partition's publishes so far. -/
def objAck (d : Dev) (p : Nat) (who : Asker) (fl : Nat) : Dev :=
  ({ d with tier := { d.tier with forwards := d.tier.forwards.map (fun f => if f.2.part = p then (f.1, { f.2 with needAck := false }) else f) } } : Dev).answerObj who 0 fl 0 0 0 0#64 0
/-- QUERY (R245, R257). -/
def objQuery (d : Dev) (p : Nat) (ws : List W64) (who : Asker) (fl : Nat) : Dev :=
  d.onObj p ws who fl (fun d i _ => d.answerWith who 0 fl i 0)

end Dev

/-- OCMD_CREATE (R246). -/
def execOcmdCreate (k : Fin 32) (a : W64) (s : State) : Out :=
  .next (s.onDev (fun d => d.ocmd k a 1 (fun d p ws who _ => d.createObj (.cham k) p ws who)))

/-- OCMD_FREE (R245). -/
def execOcmdFree (k : Fin 32) (a : W64) (s : State) : Out :=
  .next (s.onDev (fun d => d.ocmd k a 2 (fun d p ws who fl => d.objFree p ws who fl)))

/-- OCMD_MOVE (R247). -/
def execOcmdMove (k : Fin 32) (a : W64) (s : State) : Out :=
  .next (s.onDev (fun d => d.ocmd k a 3 (fun d p ws who fl => d.objMove (.cham k) p ws who fl)))

/-- OCMD_PIN (R245). -/
def execOcmdPin (k : Fin 32) (a : W64) (s : State) : Out :=
  .next (s.onDev (fun d => d.ocmd k a 4 (fun d p ws who fl => d.objPin p ws who fl)))

/-- OCMD_UNPIN (R245). -/
def execOcmdUnpin (k : Fin 32) (a : W64) (s : State) : Out :=
  .next (s.onDev (fun d => d.ocmd k a 5 (fun d p ws who fl => d.objUnpin p ws who fl)))

/-- OCMD_REBASE_ACK (R249). -/
def execOcmdRebaseAck (k : Fin 32) (a : W64) (s : State) : Out :=
  .next (s.onDev (fun d => d.ocmd k a 6 (fun d p _ who fl => d.objAck p who fl)))

/-- OCMD_QUERY (R245). -/
def execOcmdQuery (k : Fin 32) (a : W64) (s : State) : Out :=
  .next (s.onDev (fun d => d.ocmd k a 7 (fun d p ws who fl => d.objQuery p ws who fl)))

/-- OBJECT_MOVE_PUBLISH (R247, R248). -/
def execObjectMovePublish (o : BitVec 18) (s : State) : Out := .next (s.onDev (fun d => d.publish o.toNat))

/-- FORWARD_RETIRE (R249). -/
def execForwardRetire (f : BitVec 32) (s : State) : Out := .next (s.onDev (fun d => d.retireFwd f.toNat))

/-- FORWARD_LATE (R249): the forward has outlived TIER_WAIT. -/
def execForwardLate (f : BitVec 32) (s : State) : Out :=
  .next (s.onDev (fun d => match Tab.find d.tier.forwards f.toNat with
    | none => d
    | some x => if x.late then d else
      ({ d with tier := { d.tier with forwards := Tab.put d.tier.forwards f.toNat { x with late := true } } } : Dev).count R.tierLateCnt R.tierEvt F.tierEvt_lateOvf))

/-- POOL_DEMOTE (R254): free(t) of a pooled tier lies below LOW. -/
def execPoolDemote (j : Fin 4) (s : State) : Out :=
  let t := [1, 2, 3, 5].getD j 1
  .next (s.onDev (fun d => if t = 3 || t = 5 || !d.pooled t || d.lowOf t ≤ d.freeOf t then d
    else Dev.demoteLoop (Dev.allocate 1) d.tier.objs.length d t 0))

/-- ALLOC_WAIT_EXPIRE (R254). -/
def execAllocWaitExpire (f : BitVec 32) (s : State) : Out := .next (s.onDev (fun d => d.expireWait f.toNat))

end Sys2Proof.Machine
end

