-- ==== Sys2Proof/Machine/Tensor.lean ====
section
/-! DEFINITION. Tensors: descriptors as an instruction reads them, the places of their elements and block scales, and the
elements of tensors in a context's scratch (R88, R89, R122, R123). -/
namespace Sys2Proof.Machine

/-- A stride rounded toward 0 to a multiple of the element size (Table 04-2). -/
def roundStride (s : Int) (es : Nat) : Int := if s < 0 then -((s.natAbs / es * es : Nat) : Int) else ((s.natAbs / es * es : Nat) : Int)

/-- The tensor of a descriptor's words and the clamps of its fields (Table 04-2). -/
def tensorOf (ws : List W64) : Tensor × Nat :=
  let w := fun i => ws.getD i 0#64
  let f0 := bits64 (w 6) 0 4
  let fmt := fmtOf f0
  let r0 := bits64 (w 6) 4 3
  let rank := if r0 = 0 then 1 else if 4 < r0 then 4 else r0
  let es := fmt.esize
  let s := fun i => (w (2 + i)).toInt
  let d0 := bits64 (w 1) 0 32
  let odd := fmt.isNibble && d0 % 2 == 1
  let dim := fun i v => if i < rank then v else 1
  let str := fun i => if i < rank then roundStride (s i) es else 0
  let sc := ((List.range 3).filter (fun i => i + 1 < rank && roundStride (s (i + 1)) es != s (i + 1))).length
  (⟨w 0, fmt, if odd then d0 + 1 else d0, dim 1 (bits64 (w 1) 32 32), dim 2 (bits64 (w 2) 0 32), dim 3 (bits64 (w 2) 32 32),
     str 1, str 2, str 3, bits64 (w 6) 8 2, bits64 (w 6) 10 12, bits64 (w 6) 24 2, rank, odd⟩,
   b2n (12 ≤ f0) + b2n (rank != r0) + b2n odd + sc)

namespace Tensor

/-- The extent of a dimension. -/
def dim (t : Tensor) (i : Nat) : Nat := match i with | 0 => t.d0 | 1 => t.d1 | 2 => t.d2 | _ => t.d3
/-- The elements of the tensor. -/
def count (t : Tensor) : Nat := t.d0 * t.d1 * t.d2 * t.d3
/-- Bytes of m elements of dimension 0. -/
def rowBytes (t : Tensor) (m : Nat) : Nat := ceilDiv (m * t.fmt.bits) 8
/-- The offset of row (i1, i2, i3) from BASE. -/
def rowOff (t : Tensor) (i1 i2 i3 : Nat) : Int := i1 * t.s1 + i2 * t.s2 + i3 * t.s3
/-- Largest and smallest offsets that strides reach. -/
def hiOff (t : Tensor) : Int := max 0 (((t.d1 : Int) - 1) * t.s1) + max 0 (((t.d2 : Int) - 1) * t.s2) + max 0 (((t.d3 : Int) - 1) * t.s3)
def loOff (t : Tensor) : Int := min 0 (((t.d1 : Int) - 1) * t.s1) + min 0 (((t.d2 : Int) - 1) * t.s2) + min 0 (((t.d3 : Int) - 1) * t.s3)
/-- The offset of the byte after the highest byte of an element (R89). -/
def topOff (t : Tensor) : Int := t.hiOff + t.rowBytes t.d0
/-- Scales of a row. -/
def rowScales (t : Tensor) : Nat := ceilDiv t.d0 32
/-- The offset of scale b of row (i1, i2, i3) of an MX tensor (R89). -/
def scaleOff (t : Tensor) (b i1 i2 i3 : Nat) : Int := t.topOff + (b + t.rowScales * (i1 + t.d1 * (i2 + t.d2 * i3)) : Nat)
/-- The offset after the last byte that the tensor uses, its scales among them. -/
def endOff (t : Tensor) : Int := if t.fmt.isMx then t.topOff + (t.rowScales * t.d1 * t.d2 * t.d3 : Nat) else t.topOff
/-- The tier offset at a distance from BASE. -/
def at' (t : Tensor) (i : Int) : Nat := wrapTo 49 ((addrOff t.base : Int) + i)
/-- Row number r as (i1, i2, i3), in index order. -/
def row (_ : Tensor) (m1 m2 r : Nat) : Nat × Nat × Nat := (r % max 1 m1, r / max 1 m1 % max 1 m2, r / max 1 m1 / max 1 m2)

end Tensor

/-- An operand as an instruction takes it at issue (R121): its tensor, BASE at the place used; the clamps of its fields; the kinds
of the clamps of its addressing and the address. -/
structure Opnd where
  t : Tensor
  n : Nat
  ks : List Nat
  a : W64
  deriving DecidableEq, Repr

namespace Dev

/-- Kinds of the clamps of an operand's addressing (R74, R111): its BASE's NODE and tier, and one for words beyond the tier. -/
def tensorKinds (d : Dev) (c : Nat) (redirect : Nat → Nat) (t : Tensor) : Place :=
  let p := d.clampSteps (.ctx c) true redirect t.base 1
  let ks := p.kinds.filter (· ≠ 2)
  let size := d.sizeFor (.ctx c) true p.tier
  let o : Int := addrOff t.base
  let out := d.isHere p && t.count != 0 && (decide (o + t.loOff < 0) || decide ((size : Int) < o + t.endOff))
  { p with off := addrOff t.base, kinds := if out then ks ++ [2] else ks }

/-- An operand from a tensor and the clamps of its fields. -/
def operandOf (d : Dev) (c : Nat) (redirect : Nat → Nat) (r : Tensor × Nat) : Opnd :=
  let p := d.tensorKinds c redirect r.1
  ⟨{ r.1 with base := mkAddr p.node p.tier (addrOff r.1.base) }, r.2, p.kinds, r.1.base⟩
/-- Counts the clamps of operands. -/
def noteOpnds (d : Dev) (c : Nat) (l : List Opnd) : Dev := l.foldl (fun d o => (d.clampC c o.n).noteClamps (.ctx c) o.ks o.a) d
/-- How many clamps operands count. -/
def opndClamps (l : List Opnd) : Nat := (l.map (fun o => o.n + o.ks.length)).foldl (· + ·) 0

/-- Scratch places of the element (i0, i1, i2, i3): its bytes. -/
def elemPlaces (t : Tensor) (i0 i1 i2 i3 : Nat) : List Nat :=
  if t.fmt.isNibble then [t.at' (t.rowOff i1 i2 i3 + (i0 / 2 : Nat))]
  else (List.range t.fmt.esize).map (fun b => t.at' (t.rowOff i1 i2 i3 + (i0 * t.fmt.esize + b : Nat)))
/-- The code of an element in scratch; the element that an odd DIM0 added reads as 0 (R88). -/
def elemCodeAt (d : Dev) (c : Nat) (x : Ctx) (t : Tensor) (i0 i1 i2 i3 : Nat) : Nat :=
  if t.odd0 && i0 + 1 == t.d0 then 0
  else
    let v := leVal ((elemPlaces t i0 i1 i2 i3).map (fun o => d.scrByte c x o))
    if t.fmt.isNibble then (if i0 % 2 = 0 then v % 16 else v / 16) else v
/-- The block scale of an element of an MX tensor. -/
def elemScaleAt (d : Dev) (c : Nat) (x : Ctx) (t : Tensor) (i0 i1 i2 i3 : Nat) : Nat :=
  if t.fmt.isMx then (d.scrByte c x (t.at' (t.scaleOff (i0 / 32) i1 i2 i3))).toNat else 0
/-- The exact value of an element in scratch, without its tensor's scales; the element that an odd DIM0 added reads as 0 (R88). -/
def elemAt (d : Dev) (c : Nat) (x : Ctx) (t : Tensor) (i0 i1 i2 i3 : Nat) : FV :=
  if t.odd0 && i0 + 1 == t.d0 then .fin false 0 0 else elemVal t.fmt (d.elemCodeAt c x t i0 i1 i2 i3) (d.elemScaleAt c x t i0 i1 i2 i3)
/-- The writes that put a code at an element; the element that an odd DIM0 added is not written. -/
def elemPut (t : Tensor) (i0 i1 i2 i3 code : Nat) : List SWrite :=
  if t.odd0 && i0 + 1 == t.d0 then []
  else
    let os := elemPlaces t i0 i1 i2 i3
    if t.fmt.isNibble then os.map (fun o => if i0 % 2 = 0 then ⟨o, BitVec.ofNat 8 code, 0x0F#8⟩ else ⟨o, BitVec.ofNat 8 (code * 16), 0xF0#8⟩)
    else (List.range os.length).map (fun b => ⟨os.getD b 0, BitVec.ofNat 8 (code / 256 ^ b), 0xFF#8⟩)
/-- The write of a block scale. -/
def scalePut (t : Tensor) (b i1 i2 i3 v : Nat) : SWrite := ⟨t.at' (t.scaleOff b i1 i2 i3), BitVec.ofNat 8 v, 0xFF#8⟩

/-- Linear index of an element (R180) and the indices of a linear index. -/
def linOf (t : Tensor) (i0 i1 i2 i3 : Nat) : Nat := i0 + t.d0 * (i1 + t.d1 * (i2 + t.d2 * i3))
def idxOf (t : Tensor) (e : Nat) : Nat × Nat × Nat × Nat := (e % t.d0, e / t.d0 % t.d1, e / t.d0 / t.d1 % t.d2, e / t.d0 / t.d1 / t.d2)
/-- All indices of an extent, dimension 0 fastest. -/
def indices (n0 n1 n2 n3 : Nat) : List (Nat × Nat × Nat × Nat) :=
  (List.range (n0 * n1 * n2 * n3)).map (fun e => (e % n0, e / n0 % n1, e / n0 / n1 % n2, e / n0 / n1 / n2))
/-- The scratch places that the first n0 × … elements of a tensor occupy, scales among them. -/
def extentPlaces (t : Tensor) (n0 n1 n2 n3 : Nat) : List Nat :=
  (indices n0 n1 n2 n3).flatMap (fun p => elemPlaces t p.1 p.2.1 p.2.2.1 p.2.2.2 ++
    (if t.fmt.isMx && p.1 % 32 == 0 then [t.at' (t.scaleOff (p.1 / 32) p.2.1 p.2.2.1 p.2.2.2)] else []))

end Dev

end Sys2Proof.Machine
end

