-- ==== Sys2Proof/Machine/Stream.lean ====
section
/-! DEFINITION. Stream transfers (chapter 08): what a transfer moves, the arbiter, beats that are granted and that land,
completion. -/
namespace Sys2Proof.Machine

namespace Xfer

/-- Bytes of a row of the transfer, its rows, the bytes of its elements. -/
def rb (t : Xfer) : Nat := t.src.rowBytes t.m0
def rows (t : Xfer) : Nat := t.m1 * t.m2 * t.m3
def payload (t : Xfer) : Nat := t.rows * t.rb
/-- Block scales that move with a row (Table 05-11). -/
def nb (t : Xfer) : Nat := if t.src.fmt.isMx then ceilDiv t.m0 32 else 0
/-- The bytes that the transfer moves. -/
def bytes (t : Xfer) : Nat := t.payload + t.rows * t.nb
/-- The distance from BASE, in one of its tensors, of byte j of the transfer. -/
def dist (t : Xfer) (z : Tensor) (j : Nat) : Int :=
  if j < t.payload then
    let r := z.row t.m1 t.m2 (j / max 1 t.rb)
    z.rowOff r.1 r.2.1 r.2.2 + (j % max 1 t.rb : Nat)
  else
    let k := j - t.payload
    let r := z.row t.m1 t.m2 (k / max 1 t.nb)
    z.scaleOff (k % max 1 t.nb) r.1 r.2.1 r.2.2
/-- Byte j holds the last nibble pair of its row in a tensor whose DIM0 is odd (R88). -/
def oddAt (t : Xfer) (z : Tensor) (j : Nat) : Bool := z.odd0 && t.m0 == z.d0 && j < t.payload && j % max 1 t.rb + 1 == t.rb
/-- Bytes of a column of tokens: header and activation (Table 05-13). -/
def colBytes (t : Xfer) : Nat := 16 + t.src.rowBytes t.src.d0
/-- The scratch place of byte j of the transfer; of tokens, of byte j of their columns, header first. -/
def nearAt (t : Xfer) (j : Nat) : Nat :=
  if t.streams then t.near.at' (t.dist t.near j)
  else
    let n := j / t.colBytes
    let i := j % t.colBytes
    if i < 16 then t.dst.at' (t.dst.rowOff n 0 0 + (i : Int)) else t.src.at' (t.src.rowOff n 0 0 + ((i - 16 : Nat) : Int))
/-- The place of byte j in the tensor outside scratch. -/
def farAt (t : Xfer) (j : Nat) : Nat := t.far.at' (t.dist t.far j)

end Xfer

namespace Dev

/-- An offset within a tier: at or beyond its size, the place with the same low 7 bits in its last line (R74). -/
def memClip (d : Dev) (tier o : Nat) : Nat := if o < d.tierSize tier then o else d.tierSize tier - 128 + o % 128
/-- The far place of byte j of a transfer; another node's home clamps its own (R76). -/
def farOff (d : Dev) (t : Xfer) (j : Nat) : Nat :=
  if addrNode t.far.base = d.nodeId then d.memClip (addrTier t.far.base) (t.farAt j) else t.farAt j
/-- Joins bytes at rising places into runs that do not cross a 256-byte boundary: place in the transfer, offset, length. -/
def joinRuns (l : List (Nat × Nat)) : List (Nat × Nat × Nat) :=
  l.foldr (fun b r => match r with
    | (p, o, n) :: q => if b.2 + 1 = o && b.1 + 1 = p && o % 256 != 0 then (b.1, b.2, n + 1) :: q else (b.1, b.2, 1) :: (p, o, n) :: q
    | [] => [(b.1, b.2, 1)]) []
/-- The far runs of some bytes of a transfer. -/
def farRuns (d : Dev) (t : Xfer) (js : List Nat) : List (Nat × Nat × Nat) := joinRuns (js.map (fun j => (j, d.farOff t j)))
/-- The far tensor is on another node. -/
def farAway (d : Dev) (t : Xfer) : Bool := d.away t.far.base
/-- The scratch places of bytes lo to lo + n − 1. -/
def nearOffs (t : Xfer) (lo n : Nat) : List Nat := (upFrom lo n).map t.nearAt

/-! ## Words and blocks that two beats share

An access is a word or a part of one (R101), and of a Rind-coded destination a block (R213); what a load takes of a logical block of
tier 3 is of one state of the block (R105). Where a beat ends within such a unit, the unit is read whole with the beat that lands
first and written whole with the beat that lands last (log 74). -/

/-- Bytes of a transfer that share the unit of byte j: a word of 8 bytes about it, or a block of 4 KiB. -/
def mates (at' : Nat → Nat) (sz total j : Nat) : List Nat :=
  (if sz = 8 then upFrom (j - 7) (j + 8 - (j - 7)) else List.range total).filter (fun i => decide (i < total) && at' i / sz == at' j / sz)
/-- What a landing beat reads: its bytes that have not been read yet, and those beyond it that share a unit with one of them. -/
def reads (at' : Nat → Nat) (sz : Nat) (t : Xfer) (lo n : Nat) : List Nat :=
  let own := (upFrom lo n).filter (fun j => (Tab.find t.seen j).isNone)
  (if sz = 8 then upFrom (lo - 7) (lo + n + 7 - (lo - 7)) else List.range t.total).filter (fun j =>
    if lo ≤ j && j < lo + n then (Tab.find t.seen j).isNone else (mates at' sz t.total j).any own.contains)
/-- The transfer has still to bring byte j: it is not granted, or a beat in flight other than beat i carries it. -/
def toCome (y : Core) (c i : Nat) (t : Xfer) (j : Nat) : Bool :=
  decide (t.granted ≤ j) || (y.inflight.eraseIdx i).any (fun b => b.ctx == c && b.xid == t.id && b.lo ≤ j && j < b.lo + b.n)
/-- The bytes that a landing beat brings are written where their unit is whole; the others are held. -/
def wholeUnits (late : Nat → Bool) (mates : Nat → List Nat) (held : Tab Byte) (new : List (Nat × Byte)) : List (Nat × Byte) × Tab Byte :=
  let h := new.foldl (fun h p => Tab.put h p.1 p.2) held
  let whole := fun (p : Nat × Byte) => !(mates p.1).any late
  (h.filter whole, h.filter (fun p => !whole p))
/-- The unit in which a source is read. -/
def srcUnit (d : Dev) (t : Xfer) : Nat := if !d.farAway t && addrTier t.far.base = 3 then 4096 else 8
/-- The unit in which a destination is written. -/
def dstUnit (d : Dev) (t : Xfer) : Nat :=
  if d.farAway t then 8 else
  match d.objAt (addrTier t.dst.base) (addrOff t.dst.base) with
  | some (_, o) => if o.rind && o.tier != 1 then 4096 else 8
  | none => 8
/-- Bytes read join those already seen. -/
def seenWith (t : Xfer) (l : List (Nat × Byte)) : Tab Byte := l.foldl (fun s p => Tab.put s p.1 p.2) t.seen
/-- The bytes of a beat from those seen, the half of an odd row's last byte cleared (R88), and what is kept of the others. -/
def beatOf (t : Xfer) (seen : Tab Byte) (b : Beat) : List (Nat × Byte) :=
  (upFrom b.lo b.n).map (fun j => let v := Tab.getD seen j 0#8; (j, if t.oddAt t.src j then v &&& 0x0F#8 else v))
/-- What is kept of the bytes seen once a beat has landed. -/
def seenAfter (seen : Tab Byte) (b : Beat) : Tab Byte := seen.filter (fun p => !(b.lo ≤ p.1 && p.1 < b.lo + b.n))

/-- Changes a transfer of a context. -/
def modXfer (d : Dev) (c xid : Nat) (f : Xfer → Xfer) : Dev :=
  d.modCtx c (fun x => { x with xfers := x.xfers.map (fun t => if t.id = xid then f t else t) })
/-- Scratch pages that matrix work in progress has not yet written (R207). -/
def mmPages (x : Ctx) : List Nat :=
  match x.mm with
  | none => []
  | some m => ((m.tiles.drop m.done).flatMap (fun t => t.2.map (fun w => scrClip x w.addr / 4096))).eraseDups
/-- An engine is ready (R205): the window has room; a store's next bytes are free of matrix work. -/
def seReady (d : Dev) (k : Nat) (x : Ctx) (t : Xfer) : Bool :=
  decide ((d.core k).inflight.length < 256) &&
  (!t.isStore || x.mm.isNone || (nearOffs t t.granted (min 256 (t.total - t.granted))).all (fun o => !(mmPages x).contains (scrClip x o / 4096)))

/-- The bytes that the requests of a beat of another node cover: a load's with those beyond it that share a word with them, not those
that the beat before covered; a store's with those that the beat before left, not those whose word goes on beyond it. -/
def farBytes (d : Dev) (t : Xfer) (lo n : Nat) : List Nat :=
  let m := fun (j : Nat) => mates (d.farOff t) 8 t.total j
  if t.isStore then (upFrom (lo - 7) (lo + n - (lo - 7))).filter (fun j => (decide (lo ≤ j) || (m j).any (fun i => decide (lo ≤ i))) && !(m j).any (fun i => decide (lo + n ≤ i)))
  else (upFrom lo (n + 7)).filter (fun j => decide (j < t.total) && !(m j).any (fun i => decide (i < lo)) && (decide (j < lo + n) || (m j).any (fun i => decide (i < lo + n))))
/-- Sends the requests of a beat whose far tensor is on another node: RD for a load, WR and WRP for a store. -/
def beatRequests (d : Dev) (k c : Nat) (x : Ctx) (t : Xfer) (lo n : Nat) : Sent × List Nat :=
  let node := addrNode t.far.base
  let tier := addrTier t.far.base
  (d.farRuns t (d.farBytes t lo n)).foldl (fun acc run =>
    match acc with
    | (.sent _ d, tags) =>
      if t.isStore then
        -- one 16-byte unit at a time
        let u0 := run.2.1 / 16
        (List.range ((run.2.1 + run.2.2 + 15) / 16 - u0)).foldl (fun acc i =>
          match acc with
          | (.sent _ d, tags) =>
            let o := 16 * (u0 + i)
            let b := fun (q : Nat) => if run.2.1 ≤ q && q < run.2.1 + run.2.2 then some (d.scrByte c x (t.nearAt (run.1 + (q - run.2.1)))) else none
            let bs := (List.range 16).map (fun q => b (o + q))
            let full := bs.all (·.isSome)
            let dat := bs.map (fun v => v.getD 0#8)
            let mask := ((List.range 16).map (fun q => if (bs.getD q none).isSome then 2 ^ q else 0)).foldl (· + ·) 0
            (match d.request (k / 32) (some x.part) (if full then 5 else 6) (mkAddr node tier o) (if full then dat else leBytes 16 mask ++ dat) (.beatSt c t.id) with
             | .sent g d => (.sent g d, g :: tags)
             | r => (r, tags))
          | a => a) (.sent 0 d, tags)
      else
        let o := alignDown run.2.1 16
        let u := (run.2.1 + run.2.2 + 15) / 16 - o / 16
        (match d.request (k / 32) (some x.part) 1 (mkAddr node tier (o + (u - 1))) [] (.beat c t.id run.1 run.2.2 (run.2.1 - o)) with
         | .sent g d => (.sent g d, g :: tags)
         | r => (r, tags))
    | a => a) (.sent 0 d, [])

/-- Grants one beat to a transfer of the context on a core (R202, R205). -/
def grantBeat (d : Dev) (k c : Nat) (x : Ctx) (t : Xfer) : Option Dev :=
  let n := min 256 (t.total - t.granted)
  let go := fun (d : Dev) (tags : List Nat) =>
    (d.modXfer c t.id (fun t => { t with granted := t.granted + n, g := t.g + n })).modCore k (fun y => { y with inflight := y.inflight ++ [⟨c, t.eng, t.id, t.granted, n, [], false, tags⟩] })
  if d.farAway t then
    match d.beatRequests k c x t t.granted n with
    | (.sent _ d, tags) => some (go d tags)
    | (.wait, _) => none
    | (.no d, _) => some (d.modXfer c t.id (fun t => { t with total := t.granted, status := 0x0B }))
  else some (go d [])

/-- The arbiter's choice among the ready engines (R205). -/
def pickEngine (d : Dev) (k : Nat) (x : Ctx) (step : Nat) : Option Nat :=
  let starve := d.fld (R.strCtrl k) F.strCtrl_starve
  let rdy := (List.range 4).filter (fun e => match d.seLive k x e with | some t => d.seReady k x t | none => false)
  match rdy.find? (fun e => starve ≤ Tab.getD (d.core k).waited e 0) with
  | some e => some e
  | none =>
    (rdy.foldl (fun (b : Option (Nat × Option Nat)) e =>
      let dl := (d.seLive k x e).bind (fun t => deadline t (t.t0.getD step))
      match b, dl with
      | none, v => some (e, v)
      | some (_, none), some v => some (e, some v)
      | some (f, some u), some v => if v < u then some (e, some v) else some (f, some u)
      | some q, none => some q) none).map (·.1)

/-- One step of a core's arbiter (R204, R205): behind transfers are counted, one beat is granted. -/
def arbStep (d : Dev) (k : Nat) : Dev :=
  match (d.core k).cur with
  | none => d
  | some c =>
    match d.ctx? c with
    | none => d
    | some x =>
      if d.isFenced (unitId 1 k) then d else
      let step := (d.core k).step
      -- a paused engine's transfers compete afresh when it goes on
      let d := (List.range 4).foldl (fun d e => if d.flag (R.seCtrl k e) F.seCtrl_pause
        then d.modCtx c (fun x => { x with xfers := x.xfers.map (fun t => if t.eng = e then { t with t0 := none, g := 0 } else t) }) else d) d
      -- candidates of this step: t0, and whether they are behind
      let d := (List.range 4).foldl (fun d e =>
        match d.seLive k x e with
        | none => d
        | some t =>
          let t0 := t.t0.getD step
          let d := d.modXfer c t.id (fun t => { t with t0 := some t0, g := if t.t0.isNone then 0 else t.g })
          match deadline { t with g := if t.t0.isNone then 0 else t.g } t0 with
          | some dl => if dl < step then
              ((d.count (R.seDryCnt k e) (R.seEvt k e) F.seEvt_dryOvf).setFld (R.seEvt k e) F.seEvt_dry 1).modXfer c t.id (fun t => { t with late := true })
            else d
          | none => d) d
      let d := d.charge' c 3 ((List.range 4).filter (fun e => x.xfers.any (·.eng == e))).length
      match d.ctx? c with
      | none => d
      | some x =>
        let pick := d.pickEngine k x step
        let rdy := (List.range 4).filter (fun e => match d.seLive k x e with | some t => d.seReady k x t | none => false)
        let d : Dev := match pick with
          | none => d
          | some e => match candidate x e with
            | none => d
            | some t => (d.grantBeat k c x t).getD d
        d.modCore k (fun y => { y with
          step := y.step + 1
          waited := (List.range 4).foldl (fun w e =>
            if pick = some e then Tab.store w e 0 0 else if rdy.contains e then Tab.store w e (Tab.getD w e 0 + 1) 0 else w) y.waited })

/-- The bytes that a beat of another node has brought. -/
def gotBytes (b : Beat) : List (Nat × Byte) := b.got.flatMap (fun g => (List.range g.2.length).map (fun i => (g.1 + i, g.2.getD i 0#8)))

/-- Scratch writes of some bytes of a load. -/
def landWrites (t : Xfer) (l : List (Nat × Byte)) : List SWrite := l.map (fun p => ⟨t.nearAt p.1, p.2, if t.oddAt t.dst p.1 then 0x0F#8 else 0xFF#8⟩)
/-- Removes a beat, and counts its bytes as landed, moved and charged (R201, R217). -/
def beatOver (d : Dev) (k c : Nat) (b : Beat) (i : Nat) : Dev :=
  let d := d.modCore k (fun y => { y with inflight := y.inflight.eraseIdx i })
  let d := d.modXfer c b.xid (fun t => { t with landed := t.landed + b.n })
  (d.addPair (R.seBytesLo k b.eng) b.n (R.seEvt k b.eng) F.seEvt_bytesWrap).charge' c 2 b.n
/-- A beat may land: its replies have come, no beat of an earlier transfer of its engine is in flight (R199). -/
def beatMay (y : Core) (i : Nat) (b : Beat) : Bool :=
  b.tags.isEmpty && (y.inflight.take i).all (fun q => !(q.ctx == b.ctx && q.eng == b.eng && q.xid != b.xid))
/-- A transfer meets an invalid scratch page for the first time (R212): one clamp of its instruction. -/
def metInvalid (d : Dev) (c : Nat) (x : Ctx) (t : Xfer) (offs : List Nat) : Dev :=
  if scrInvalid x offs && !t.inv then ((d.noteInvalidAt c t.pc).modXfer c t.id (fun t => { t with inv := true, clamped := true })).trapNow c else d
/-- Matrix work in progress has still to write one of some places (R123, R207). -/
def mmHolds (x : Ctx) (offs : List Nat) : Bool := x.mm.isSome && offs.any (fun o => (mmPages x).contains (scrClip x o / 4096))
/-- A beat of a load lands with the bytes read for it (R199, R202). -/
def loaded (d : Dev) (k c i : Nat) (b : Beat) (t : Xfer) (l : List (Nat × Byte)) : Dev :=
  let seen := seenWith t l
  let s := wholeUnits (toCome (d.core k) c i t) (mates t.nearAt 8 t.total) t.held (beatOf t seen b)
  ((d.beatOver k c b i).modXfer c t.id (fun t => { t with held := s.2, seen := seenAfter seen b })).scrWrite c (landWrites t s.1)
/-- Lands a beat of a load: an uncorrectable read aborts the task (R210); reads and writes of pages that matrix work in progress
writes wait for it (R123). -/
def landLoad (d : Dev) (k c i : Nat) (x : Ctx) (b : Beat) (t : Xfer) : Dev :=
  if mmHolds x (nearOffs t b.lo b.n) then d
  else if !d.farAway t && addrTier t.src.base = 0 then
    let js := reads t.farAt 8 t b.lo b.n
    let offs := js.map t.farAt
    if mmHolds x offs then d
    else if d.scrBad c x offs then d.abortTask c 0 b.eng t.src.base
    else (d.loaded k c i b t (js.map (fun j => (j, d.scrByte c x (t.farAt j))))).metInvalid c x t offs
  else if !d.farAway t && addrTier t.src.base = 4 then d.loaded k c i b t ((upFrom b.lo b.n).map (fun j => (j, t.snap.getD j 0#8)))
  else if d.farAway t then
    if b.bad then d.abortTask c 0 b.eng t.src.base
    else if (upFrom b.lo b.n).all (fun j => (Tab.find (seenWith t (gotBytes b)) j).isSome) then d.loaded k c i b t (gotBytes b)
    else d
  else
    let tier := addrTier t.src.base
    let runs := d.farRuns t (reads (d.farOff t) (d.srcUnit t) t b.lo b.n)
    let holds := runs.flatMap (fun r => d.lholds tier r.2.1 r.2.2 false)
    if !holds.isEmpty then d.dirAsk false holds
    else
      let l := runs.map (fun r => d.lread tier r.2.1 r.2.2)
      let bytes := (runs.zip l).flatMap (fun r => (List.range r.1.2.2).map (fun q => (r.1.1 + q, r.2.1.getD q 0#8)))
      let d := runs.foldl (fun d r => d.lmeet (unitId 1 k) tier r.2.1 r.2.2) d
      if l.any (·.2) then d.abortTask c 0 b.eng t.src.base else d.loaded k c i b t bytes
/-- Lands a beat of a store (R199, R213): scratch bytes reach their place; bytes of an invalid page are 0, with one clamp. -/
def landStore (d : Dev) (k c i : Nat) (x : Ctx) (b : Beat) (t : Xfer) : Dev :=
  let js := reads t.nearAt 8 t b.lo b.n
  let offs := js.map t.nearAt
  if d.scrBad c x offs then d.abortTask c 0 b.eng t.src.base else
  let note := fun (d : Dev) => d.metInvalid c x t offs
  if d.farAway t then note (d.beatOver k c b i)
  else
    let seen := seenWith t (js.map (fun j => (j, d.scrByte c x (t.nearAt j))))
    let s := wholeUnits (toCome (d.core k) c i t) (mates t.farAt (d.dstUnit t) t.total) t.held (beatOf t seen b)
    let over' := fun (d : Dev) => (d.beatOver k c b i).modXfer c t.id (fun t => { t with held := s.2, seen := seenAfter seen b })
    if addrTier t.dst.base = 0 then
      if mmHolds x (s.1.map (fun p => t.farAt p.1)) then d else
      note ((over' d).scrWrite c (s.1.map (fun p => ⟨t.farAt p.1, p.2, if t.oddAt t.dst p.1 then 0x0F#8 else 0xFF#8⟩)))
    else
      let tier := addrTier t.dst.base
      let w := d.lastOrder (d.tierSize tier) (fun p => t.farAt p.1) s.1
      let runs := w.2.farRuns t (w.1.map (·.1))
      let holds := runs.flatMap (fun r => d.lholds tier r.2.1 r.2.2 true)
      let e := runs.foldl (fun d r => d.roStore tier r.2.1 r.2.2) w.2
      if e.ftl.retired && runs.any (fun r => (e.resolve tier r.2.1).1 == 3) then
        (e.beatOver k c b i).modXfer c t.id (fun t => { t with status := if t.status = 0 then 0x58 else t.status })
      else if !holds.isEmpty then d.dirAsk true holds
      else if !runs.all (fun r => e.lcanWrite tier r.2.1 r.2.2) then d
      else
        let val := fun (d : Dev) (o j : Nat) =>
          let v := Tab.getD s.1 j 0#8
          if t.oddAt t.dst j then ((d.lread tier o 1).1.getD 0 0#8 &&& 0xF0#8) ||| (v &&& 0x0F#8) else v
        note (over' (runs.foldl (fun d r => d.lwrite tier r.2.1 ((List.range r.2.2).map (fun q => val d (r.2.1 + q) (r.1 + q)))) e))
/-- Lands a beat of tokens: their bytes are taken from scratch (R205); a column that is whole is sent (tokFlush). -/
def landTok (d : Dev) (k c i : Nat) (x : Ctx) (b : Beat) (t : Xfer) : Dev :=
  let offs := nearOffs t b.lo b.n
  if d.scrBad c x offs then d.abortTask c 0 b.eng t.src.base
  else (((d.beatOver k c b i).modXfer c t.id (fun t => { t with held := (upFrom b.lo b.n).foldl (fun h j => Tab.put h j (d.scrByte c x (t.nearAt j))) t.held })).metInvalid c x t offs)
/-- Lands beat i in flight on a core. -/
def landBeat (d : Dev) (k i : Nat) : Dev :=
  let y := d.core k
  match y.inflight[i]? with
  | none => d
  | some b =>
    match d.ctx? b.ctx with
    | none => d
    | some x =>
      match x.xfers.find? (·.id == b.xid) with
      | none => d.modCore k (fun y => { y with inflight := y.inflight.eraseIdx i })
      | some t =>
        if !beatMay y i b then d
        else if !t.streams then d.landTok k b.ctx i x b t
        else if t.isStore then d.landStore k b.ctx i x b t else d.landLoad k b.ctx i x b t

/-- The token sends of a transfer that await their receipt (R306). -/
def sendPending (d : Dev) (c id : Nat) : Bool := d.herd.tokOut.any (fun t => t.ctx == c && t.send == id && t.st != 1)
/-- Adds 1 to the word of FAB.PUT (R143): at once here, by an AMO at another node; none while it must wait. -/
def putNotify (d : Dev) (c : Nat) (x : Ctx) (t : Xfer) (a : W64) : Option Dev :=
  let tier := addrTier a
  let off := addrOff a
  if !d.away a then
    if tier = 0 then
      if mmHolds x (upFrom off 8) then none else
      let v := leVal ((List.range 8).map (fun i => d.scrByte c x (off + i)))
      some (d.scrWrite c ((List.range 8).map (fun i => ⟨off + i, (leBytes 8 (v + 1)).getD i 0#8, 0xFF#8⟩)))
    else if d.lready tier off 8 true then some (d.lwrite tier off (leBytes 8 ((d.lword tier off 8 + 1) % 2 ^ 64)))
    else none
  else
    match d.request (x.core / 32) (some x.part) 8 a (leBytes 8 1 ++ leBytes 8 0 ++ leBytes 16 0) (.putNotify c t.id) with
    | .sent _ d => some d
    | .wait => none
    | .no d => some (d.modXfer c t.id (fun t => { t with status := 0x0B }))
/-- The notify add of a FAB.PUT has been sent and not answered. -/
def notifyOut (d : Dev) (c id : Nat) : Bool := d.herd.outs.any (fun o => o.2.kind = .putNotify c id)
/-- The status word's flag byte of a transfer (R125, Table 08-2). -/
def xferFlags (t : Xfer) : Nat := b2n t.clamped + b2n t.late * 8 + b2n t.rindSrc * 16
/-- Posts a transfer's completion: status register, then event (R124, R201). -/
def xferFinish (d : Dev) (c : Nat) (t : Xfer) : Dev :=
  let d := d.modCtx c (fun x => { x with xfers := x.xfers.filter (·.id != t.id) })
  let d := if t.hasSs then d.putStatus c t.ss t.status (xferFlags t) (if t.status = 0x0B || t.status = 0x58 || t.status = 0x30 then 0 else if t.streams then t.landed else t.toks) else d
  if t.eve then d.addEvent c t.ev 1 else d
/-- Completes the oldest transfer of an engine once its last byte has landed (R124, R198, R201). -/
def xferComplete (d : Dev) (c e : Nat) : Dev :=
  match d.ctx? c with
  | none => d
  | some x =>
    match x.xfers.find? (·.eng == e) with
    | none => d
    | some t =>
      if !d.isRes c x || t.landed < t.total || !t.tok.closed || d.sendPending c t.id || d.notifyOut c t.id then d
      else
        match t.notify with
        | none => d.xferFinish c t
        | some a =>
          if t.status ≠ 0 then d.xferFinish c t else
          match d.putNotify c x t a with
          | none => d.dirAsk true (if !d.away a then d.lholds (addrTier a) (addrOff a) 8 true else [])
          | some e =>
            let e := e.modXfer c t.id (fun t => { t with notify := none })
            if !d.away a then e.xferFinish c t else e

/-- A transfer ends early with a status (R143): nothing more of it moves. -/
def xferFail (d : Dev) (c xid st : Nat) : Dev :=
  match d.ctx? c with
  | none => d
  | some x =>
    let d := d.modCore x.core (fun y => { y with inflight := y.inflight.filter (fun b => !(b.ctx == c && b.xid == xid)) })
    d.modXfer c xid (fun t => { t with total := t.landed, granted := t.landed, status := st })

end Dev

end Sys2Proof.Machine
end

