-- ==== Sys2Proof/Machine/Part.lean ====
section
/-! DEFINITION. Partitions, launches, placement, pre-emption and the end of contexts (chapter 09; R95 to R100). -/
namespace Sys2Proof.Machine

/-- A launch as its descriptor and its code object's header give it (Tables 04-4 and 04-5), after its clamps. -/
structure LaunchArgs where
  code : Place
  compl : Place
  notify : Place
  hasNotify : Bool
  winBase : Nat
  winLen : Nat
  share : Nat
  fieldClamps : Nat
  headerOk : Bool
  capOk : Bool
  offset : Nat
  size : Nat
  entry : Nat
  allot : Nat
  deriving DecidableEq, Repr

namespace Dev

/-- The Kudu cores of a partition in service. -/
def coresOf (d : Dev) (p : Nat) : List Nat := (List.range 64).filter (fun k => d.kuduOwner k == p && !d.isFenced (unitId 1 k))
/-- The cores of a partition on which contexts may be placed: none whose owner is about to change (R221). -/
def placeCores (d : Dev) (p : Nat) : List Nat := (d.coresOf p).filter (fun k => !d.flag (R.partKuduOwn k) F.partKuduOwn_pending)
/-- The contexts of a partition, by ID. -/
def ctxsOf (d : Dev) (p : Nat) : List (Nat × Ctx) := d.ctxs.filter (fun c => c.2.part == p)
/-- Counts clamps of PART register fields. -/
def partClamp (d : Dev) (n : Nat) : Dev := d.countN R.partClampCnt R.partEvt F.partEvt_clampOvf n

/-! ## Launch (R95 to R98, R223, R224) -/

/-- A byte count from a header. -/
def hword (l : List Byte) (i n : Nat) : Nat := leVal ((l.drop i).take n)
/-- The requester of a launch, for its address clamps (R83): the host, a Chamois core, or the Tahr subsystem (core 32). -/
def launchReq (q : LaunchReq) : Req := match q.host with | some h => .host h.1 | none => if q.core < 32 then .cham q.core else .unit 0x10 0

/-- Reads a launch: its descriptor's fields with their clamps, its header's checks (R95, R96). What Table 04-5 leaves open (DESIGN CHOICE, log
76): COMPL naming tier 4 goes to tier 1 as tier 3 does; a NOTIFY that is no multiple of 8 is rounded down with one clamp; a header whose read
is uncorrectable or poisoned is checked as it was read. -/
def launchArgs (d : Dev) (q : LaunchReq) : LaunchArgs :=
  let r := launchReq q
  let w := fun i => q.words.getD i 0#64
  let code := d.clampSteps r false codeTier (w 0) 64
  let compl0 := w 1
  let compl := d.clampSteps r false noT34 (BitVec.ofNat 64 (alignDown compl0.toNat 32)) 32
  let nt := w 12
  let notify := d.clampSteps r false noT34 (BitVec.ofNat 64 (alignDown nt.toNat 8)) 8
  let base := bits64 (w 10) 32 12
  let len0 := bits64 (w 10) 44 13
  let len1 := max 1 len0
  let len := min len1 (4096 - base)
  let sh := bits64 (w 10) 16 16
  let h := if d.isHere code then (d.lread code.tier code.off 64).1 else d.fetchedBytes none 0 (placeAddr code) 64
  let feat := hword h 32 8
  let have' := (d.reg R.capFeat0).toNat + (d.reg R.capFeat1).toNat * 2 ^ 32
  let scr := hword h 40 4
  let cap := (d.reg R.capScratch).toNat
  { code := code, compl := compl, notify := notify, hasNotify := nt != 0#64, winBase := base, winLen := len, share := max 1 sh,
    fieldClamps := q.clamps + b2n (compl0.toNat % 32 != 0) + b2n (len0 == 0) + b2n (len != len1) + b2n (sh == 0) + b2n (nt.toNat % 8 != 0),
    headerOk := hword h 0 4 == 0x314E5449 && hword h 5 1 == bitsOf (d.reg R.capVersion).toNat 8 8 && hword h 4 1 ≤ bitsOf (d.reg R.capVersion).toNat 0 8 && hword h 24 8 < hword h 16 8,
    capOk := (List.range 64).all (fun i => !feat.testBit i || have'.testBit i) && scr ≤ cap && hword h 44 4 ≤ len,
    offset := hword h 8 8, size := hword h 16 8, entry := hword h 24 8,
    allot := if scr = 0 then cap else ceilDiv scr 65536 * 65536 }

/-- The words of a completion record (Table 04-6): context, partition, status, flags, clamps, restarts, the first clamp's address,
the time of the end, NO_CTX. -/
def recordWords (c p st flags clamps restarts : Nat) (first : W64) (ts : Nat) (noCtx : Bool) : List W64 :=
  [BitVec.ofNat 64 (c + p * 2 ^ 12 + st * 2 ^ 16 + flags % 256 * 2 ^ 24 + b2n noCtx * 2 ^ 62 + 2 ^ 63),
   BitVec.ofNat 64 (clamps + restarts * 2 ^ 32), first, BitVec.ofNat 64 ts]
/-- Removes an object of the run-time. -/
def dropRun (d : Dev) (i : Nat) : Dev := d.freeObj i
/-- An ended context's number, its places and its save area are free (R100). -/
def freeCtx (d : Dev) (c : Nat) : Dev :=
  match d.ctx? c with
  | none => d
  | some x =>
    let d := d.modCore x.core (fun y => { y with resident := y.resident.filter (· ≠ c), cur := if y.cur = some c then none else y.cur })
    let d : Dev := { d with ctxs := Tab.del d.ctxs c }
    let d := d.dropRun x.saveObj
    let d := match Tab.find d.herd.inboxes c with | some b => d.dropRun b.obj | none => d
    let d : Dev := { d with herd := { d.herd with inboxes := Tab.del d.herd.inboxes c, tokOut := d.herd.tokOut.filter (·.ctx != c), roundCtr := d.herd.roundCtr.filter (fun t => t.1 / 256 != c) } }
    let d := match x.codeObj with | some i => d.modObj i (fun o => { o with fixedPins := o.fixedPins - 1 }) | none => d
    d.passBoundary c

/-- Writes bytes of a record, here when the directory lets it, or at another node: whether it was made; what keeps it waiting is
started. A node that cannot be reached gets nothing (R69). -/
def postBytes (d : Dev) (i : Nat) (a : W64) (l : List Byte) : Bool × Dev :=
  let t := addrTier a
  let o := addrOff a
  if !d.away a then
    if d.lready t o l.length true then (true, d.lwrite t o l) else (false, d.dirAsk true (d.lholds t o l.length true))
  else match d.sendUnits 0 none (addrNode a) t o l (.post i) with
    | .sent _ d | .no d => (true, d)
    | .wait => (false, d)
/-- Adds 1 to a word as a release atomic (R99), in the same way. -/
def postAdd (d : Dev) (i : Nat) (a : W64) : Bool × Dev :=
  let t := addrTier a
  let o := addrOff a
  if !d.away a then
    if d.lready t o 8 true then (true, d.lwrite t o (leBytes 8 ((d.lword t o 8 + 1) % 2 ^ 64))) else (false, d.dirAsk true (d.lholds t o 8 true))
  else match d.request 0 none 8 a (leBytes 8 1 ++ leBytes 8 0 ++ leBytes 16 0) (.post i) with
    | .sent _ d | .no d => (true, d)
    | .wait => (false, d)
/-- One phase of a completion record (R99): whether it could be made. -/
def postStep (d : Dev) (i : Nat) (p : Post) : Bool × Dev :=
  match p.phase with
  | 0 => d.postBytes i (p.compl + 8#64) ((p.words.drop 1).flatMap (fun w => leBytes 8 w.toNat))
  | 1 => d.postBytes i p.compl (leBytes 8 (p.words.getD 0 0#64).toNat)
  | 2 =>
    let d := match p.answer with | some (h, st, fl, v) => d.nvmeStatus h.1 h.2.1 h.2.2 st fl 0 v [] | none => d
    (true, match p.ctx with | some c => d.freeCtx c | none => d)
  | 3 => match p.notify with | some a => d.postAdd i a | none => (true, d)
  | _ => (true, { d with posts := Tab.del d.posts i })
/-- Moves a completion record on as far as it will go: each phase follows the answers to the one before. -/
def postGo : Nat → Dev → Nat → Dev
  | 0, d, _ => d
  | n + 1, d, i =>
    match Tab.find d.posts i with
    | none => d
    | some p =>
      if d.herd.outs.any (fun o => o.2.kind = .post i) then d else
      match d.postStep i p with
      | (true, d) => postGo n { d with posts := Tab.modify d.posts i (fun q => { q with phase := p.phase + 1 }) } i
      | (false, d) => d
/-- Moves every completion record on. -/
def postAll (d : Dev) : Dev := d.posts.foldl (fun d p => postGo 6 d p.1) d
/-- Begins a completion record (R99): it moves on at once as far as it can, and then with the answers that it waits for. -/
def putRecord (d : Dev) (p : Post) : Dev :=
  let i := Tab.firstFree d.posts (d.posts.length + 1) 0
  postGo 6 { d with posts := Tab.put d.posts i p } i
/-- Counts the clamps of a launch's addresses for its requester (R83, R98). -/
def launchClamps (d : Dev) (q : LaunchReq) (a : LaunchArgs) : Dev :=
  let r := launchReq q
  let w := fun i => q.words.getD i 0#64
  ((d.noteClamps r a.code.kinds (w 0)).noteClamps r a.compl.kinds (w 1)).noteClamps r (if a.hasNotify then a.notify.kinds else []) (w 12)
/-- How many clamps a launch makes. -/
def launchCount (a : LaunchArgs) : Nat := a.fieldClamps + (a.code.kinds ++ a.compl.kinds ++ (if a.hasNotify then a.notify.kinds else [])).length
/-- A launch fails: its record says NO_CTX, with the clamps that the descriptor made (R18), and the host's command is answered (R98,
R100). CLAMPS and FIRST_CLAMP_PC are those of a launch (R111; log 78). -/
def launchFail (d : Dev) (q : LaunchReq) (p st : Nat) : Dev :=
  let a := d.launchArgs q
  let n := launchCount a
  let fl := b2n (n != 0)
  let entry := placeAddr a.code + BitVec.ofNat 64 (a.offset + a.entry)
  (d.launchClamps q a).putRecord ⟨placeAddr a.compl, recordWords 0 p st fl n 0 (if n = 0 then 0#64 else entry) d.now true,
    if a.hasNotify then some (placeAddr a.notify) else none, 0, none, q.host.map (fun h => (h, st, fl, BitVec.ofNat 32 (p * 2 ^ 12)))⟩
/-- Puts a descriptor at the tail of a partition's launch queue, or refuses it there (R223, R224). -/
def submit (d : Dev) (p : Nat) (q : LaunchReq) : Dev :=
  let l := Tab.getD d.launchQ p []
  if 64 ≤ l.length then d.launchFail q p 0x20 else { d with launchQ := Tab.put d.launchQ p (l ++ [q]) }
/-- A Chamois core's doorbell (R223): the descriptor is read, PART is clamped to the core's own (Note 1 of Table 04-5). -/
def launchDoorbell (d : Dev) (r : Req) (a : W64) : Dev :=
  let p := d.clampSteps r false stay a 128
  let far := !d.isHere p
  let use := match r with | .cham k => 100 + k | _ => 132
  if !far && !d.lready p.tier p.off 128 false then d.dirAsk false (d.lholds p.tier p.off 128 false)
  else if far && !d.hasFetched none use (placeAddr p) 128 then d.askFetch 0 (r.part d) none use (placeAddr p) 128
  else
    let bs := if far then d.fetchedBytes none use (placeAddr p) 128 else (d.lread p.tier p.off 128).1
    let ws := (List.range 16).map (fun i => BitVec.ofNat 64 (leVal ((bs.drop (8 * i)).take 8)))
    let d := (if far then d.doneFetch true none use else d.lmeet (r.master d) p.tier p.off 128).noteClamps r p.kinds a
    let part := bits64 (ws.getD 10 0#64) 0 4
    let dest := (r.part d).getD part
    d.submit dest ⟨ws, b2n (dest != part), none, match r with | .cham k => k | _ => 32⟩

/-- A new context (Table 04-1). A CODE address, CODE_OFFSET, CODE_SIZE or ENTRY that is no multiple of 8 stands as it is, with no clamp, so
that the program counter may be misaligned: R95 does not say (DESIGN CHOICE, log 76). -/
def newCtx (d : Dev) (p : Nat) (q : LaunchReq) (a : LaunchArgs) (save : Nat) (codeObj : Option Nat) : Ctx :=
  let w := fun i => q.words.getD i 0#64
  let lo := placeAddr a.code + BitVec.ofNat 64 a.offset
  let entry := lo + BitVec.ofNat 64 a.entry
  let regs : Tab W64 := (List.range 8).foldl (fun t i => Tab.store t (i + 1) (w (2 + i)) 0#64) []
  let arch : Arch := ⟨regs, [], [], a.winBase, a.winLen, [], entry⟩
  { part := p, st := .savedRunnable, arch := arch, restart := arch,
    launch := ⟨placeAddr a.code, placeAddr a.compl, lo, lo + BitVec.ofNat 64 a.size, entry, bit64 (w 11) 0, bits64 (w 11) 1 3, if a.hasNotify then placeAddr a.notify else 0#64⟩,
    wait := .none, share := a.share, shareNext := a.share, core := 0, ran := false, base := 0, allot := a.allot, clamps := 0, clampOvf := false,
    firstClamp := none, flags := 0, eventOvf := false, retries := 0, restarts := 0, restarted := false, endStatus := none,
    xfers := [], asyncs := [], mm := none, live := [], invalid := [], dirty := [], image := [], ckpt := [],
    ckptPages := [], winSave := [], slots := [], beats := [], fenced := false, bad := [], saveObj := save, codeObj := codeObj, host := q.host,
    acc := [], wraps := 0, accAt := [], windows := [], blockedAt := d.now, serial := 0, ckptOn := d.flag (R.partCfg p) F.partCfg_scrCkpt,
    restartWin := [], woke := false, posting := false, accShown := [] }

/-- The checks of a launch at the head of its queue (R96, R100, R224): the lowest code among those that fail (R17). -/
def launchCheck (d : Dev) (p : Nat) (a : LaunchArgs) : Nat :=
  let l := (if 4096 ≤ d.ctxs.length then [0x10] else []) ++ (if !a.headerOk then [0x13] else if !a.capOk then [0x11] else []) ++
    (if !d.flag (R.partCfg p) F.partCfg_enable || (d.coresOf p).isEmpty then [0x21] else [])
  l.foldl (fun m x => if m = 0 then x else min m x) 0

/-- Takes the descriptor at the head of a launch queue (R224): a context, or a record with NO_CTX; an allocation of the save
area that must wait keeps the descriptor at the head (R254). -/
def dequeue (d : Dev) (p : Nat) : Dev :=
  match Tab.getD d.launchQ p [] with
  | [] => d
  | q :: rest =>
    let a := d.launchArgs q
    let far := !d.isHere a.code
    let pop := fun (d : Dev) => { d with launchQ := Tab.store d.launchQ p rest [] }
    let fail := fun (d : Dev) (st : Nat) => ((pop d).launchFail q p st).doneFetch far none 0
    if !far && !d.lready a.code.tier a.code.off 64 false then d.dirAsk false (d.lholds a.code.tier a.code.off 64 false) else
    if far && !d.hasFetched none 0 (placeAddr a.code) 64 then d.askFetch 0 (some p) none 0 (placeAddr a.code) 64 else
    let st := d.launchCheck p a
    let size := roundSize 2 (104 * 1024 + a.allot)
    if st ≠ 0 && (st < 3 || !a.headerOk) then fail d st else
    match (if 262144 ≤ d.tier.objs.length then (Alloc.full, d) else d.alloc p 2 size 0) with
    | (.full, e) => fail (if d.pooled 2 then e.countFull else e) 3
    | (.later, e) => if size ≤ e.freeOf 2 + e.pendOf 2 then e else fail e.countFull 3
    | (.got b, e) =>
      if st ≠ 0 then fail d st else
      let d := (pop e).doneFetch far none 0
      let (so, d) := d.placeObj (newObj p 2 b size 0 false 0 0#64 .save 1)
      let co := (d.objAt a.code.tier a.code.off).map (·.1)
      let d := match co with | some i => d.modObj i (fun o => { o with fixedPins := o.fixedPins + 1 }) | none => d
      let (w, d) := d.draw
      let c := (let i := Tab.firstFree d.ctxs 4096 (w.toNat % 4096); if i < 4096 then i else Tab.firstFree d.ctxs 4096 0)
      let x := d.newCtx p q a so co
      let x := x.clampAt x.launch.entry (launchCount a)
      let d := (d.launchClamps q a).disown c
      let d : Dev := { d with ctxs := Tab.put d.ctxs c x }
      let d : Dev := match q.host with
        | some h => { d with host := { d.host with ctrls := Tab.modify d.host.ctrls h.1 (fun t => { t with outst := t.outst.map (fun o => if o.cmd.sq = h.2.1 && o.cmd.cid = h.2.2 then { o with ctx := some c } else o) }) } }
        | none => d
      if x.launch.clampTrap && x.clamps ≠ 0 then d.endCtx c 0x12 else d

/-! ## The end of a context (R99, R100) -/

/-- Bits [7:3] of a record's FLAGS (Table 04-7), with the accumulated flags (R127). -/
def recordFlags (x : Ctx) : Nat := x.flags % 8 + b2n x.eventOvf * 8 + b2n x.restarted * 16 + b2n x.clampOvf * 32
/-- An ended context's work is over: transfers, jobs, those that were cancelled too, matrix work, requests. -/
def quiet (d : Dev) (c : Nat) (x : Ctx) : Bool :=
  x.xfers.isEmpty && x.asyncs.isEmpty && x.mm.isNone && !d.ctxCancelled c && !d.herd.outs.any (fun o => match o.2.kind with
    | .load c' _ _ _ | .store c' _ | .amo c' _ _ | .tdld c' _ _ _ _ | .poll c' _ _ | .bar c' _ | .beat c' _ _ _ _ | .beatSt c' _ | .putNotify c' _ | .receipts c' _ | .cancelled c' | .fetch (some c') _ => c' == c
    | _ => false)
/-- Writes an ended context's record; then its number, its places and its save area are free. Records that wait, a failed launch's
too, move on with it (log 3). -/
def finishCtx (d : Dev) (c : Nat) : Dev :=
  match d.ctx? c with
  | none => d.postAll
  | some x =>
    match x.endStatus with
    | none => d
    | some st =>
      if x.st ≠ .ending || !d.quiet c x then d
      else if x.posting then d.postAll
      else
        let fl := recordFlags x
        (d.modCtx c (fun x => { x with posting := true })).putRecord
          ⟨x.launch.compl, recordWords c x.part st fl x.clamps x.restarts (x.firstClamp.getD 0#64) x.blockedAt false,
            if x.launch.notify = 0#64 then none else some x.launch.notify, 0, some c,
            x.host.map (fun h => (h, st, fl, BitVec.ofNat 32 (c + x.part * 2 ^ 12 + x.restarts * 2 ^ 16)))⟩
/-- Ends a context at the run-time's or the host's request (R100, R236). -/
def endRequest (d : Dev) (c : Nat) : Dev :=
  match d.ctx? c with
  | none => d
  | some x => if x.st = .ending then d else (d.cancelWork c false).endCtx c 0x14
/-- Clears a context's clamp counter (R111). -/
def clearClamp (d : Dev) (c : Nat) : Dev := d.modCtx c (fun x => { x with clamps := 0, clampOvf := false, firstClamp := none })

/-! ## Placement, switches and pre-emption (R225 to R235) -/

/-- An entry of a core's scale file. -/
def scaleAt (d : Dev) (k e : Nat) : W64 := Tab.getD d.scales (k * 4096 + e) 0#64
/-- Sets an entry of a core's scale file. -/
def setScale (d : Dev) (k e : Nat) (v : W64) : Dev := { d with scales := Tab.store d.scales (k * 4096 + e) v 0#64 }
/-- An entry lies in a context's window. -/
def inWindow (x : Ctx) (e : Nat) : Bool := x.arch.winBase ≤ e && e < x.arch.winBase + x.arch.winLen
/-- A pair of the words of a scale entry. -/
def splitScale (v : W64) : W32 × W32 := (BitVec.ofNat 32 v.toNat, BitVec.ofNat 32 (v.toNat / 2 ^ 32))
def joinScale (v : W32 × W32) : W64 := BitVec.ofNat 64 (v.1.toNat + v.2.toNat * 2 ^ 32)
/-- Brings a context's window into its core's scale file (R227): entries that another resident context's window holds there
are written out to that context first. -/
def takeWindow (d : Dev) (k c : Nat) : Dev :=
  match d.ctx? c with
  | none => d
  | some x =>
    (upFrom x.arch.winBase x.arch.winLen).foldl (fun d e =>
      let v := splitScale (d.scaleAt k e)
      let d := ((d.core k).resident.filter (· ≠ c)).foldl (fun d o =>
        d.modCtx o (fun y => if inWindow y e && (Tab.find y.winSave e).isNone then { y with winSave := Tab.put y.winSave e v } else y)) d
      match Tab.find x.winSave e with
      | some w => (d.setScale k e (joinScale w)).modCtx c (fun y => { y with winSave := Tab.del y.winSave e })
      | none => d) d
/-- Writes a context's whole window out to its save area. -/
def saveWindow (d : Dev) (k c : Nat) : Dev :=
  d.modCtx c (fun x => { x with winSave := (upFrom x.arch.winBase x.arch.winLen).foldl (fun t e => if (Tab.find t e).isSome then t else Tab.put t e (splitScale (d.scaleAt k e))) x.winSave })

/-- The accounts of a context are brought up to date (R228). -/
def showAcc (d : Dev) (c : Nat) : Dev := d.modCtx c (fun x => { x with accShown := x.acc })
/-- The entries of a context's window as they stand: those written out, the others as its core's scale file holds them. -/
def windowNow (d : Dev) (x : Ctx) : Tab (W32 × W32) :=
  (upFrom x.arch.winBase x.arch.winLen).foldl (fun t e => Tab.put t e ((Tab.find x.winSave e).getD (splitScale (d.scaleAt x.core e)))) []
/-- The beats that save or restore a context (Table 09-3): its state, its window, its live pages. -/
def saveBeats (x : Ctx) : Nat := 32 + ceilDiv x.arch.winLen 32 + 16 * x.live.length
/-- The beats of a save or a restore are charged to the context (R228). -/
def chargeBeats (d : Dev) (c n : Nat) : Dev := (d.charge' c 3 n).charge' c 2 (256 * n)
/-- The core stops its passes, unless it has stopped before (R167): the output stage writes the results whose reductions have
completed, which are so many as it has come to (log 5); the other tiles wait. -/
def mmStop (d : Dev) (c : Nat) : Dev :=
  match d.ctx? c with
  | none => d
  | some x => match x.mm with
    | none => d
    | some m =>
      if d.flag (R.kuduStatus x.core) F.kuduStatus_stopped then d else
      let (n, d) := d.choose (m.tiles.length - m.done + 1)
      let m' : MmJob := { m with done := m.done + n, again := true }
      ((d.scrWrite c (((m.tiles.drop m.done).take n).flatMap (·.2))).mmPart x.core c m m').modCtx c (fun x => { x with mm := some m' })
/-- Transfers of a context that leaves its core compete afresh when it returns (R204). -/
def stopClock (x : Ctx) : Ctx := { x with xfers := x.xfers.map (fun t => { t with t0 := none, g := 0 }) }
/-- Takes a context off the place of execution of its core; it stays resident (R227). -/
def unplace (d : Dev) (k : Nat) : Dev :=
  match (d.core k).cur with
  | none => d
  | some o => (((d.mmStop o).modCtx o (fun x => stopClock { x with st := if x.st = .running then .residentRunnable else x.st })).showAcc o).modCore k (fun y => { y with cur := none })
/-- A context runs for the first time: its restart point is the launch, with its window's entries as it finds them (R86, R92). -/
def firstRun (d : Dev) (c : Nat) : Dev :=
  match d.ctx? c with
  | none => d
  | some x => if x.ran then d else d.modCtx c (fun y => { y with restartWin := d.windowNow x })
/-- Places a resident context for execution (R227). -/
def switchTo (d : Dev) (k c : Nat) : Dev :=
  let d := (((d.unplace k).takeWindow k c).firstRun c).showAcc c
  let d := (d.modCtx c (fun x => { x with st := if x.st = .residentRunnable then .running else x.st, ran := true })).modCore k (fun y => { y with cur := some c, resident := c :: y.resident.filter (· ≠ c) })
  d.mmGo k

/-- The places of the allotments of a core's resident contexts. -/
def allotments (d : Dev) (k : Nat) : List (Nat × Nat) := (d.core k).resident.filterMap (fun o => (d.ctx? o).map (fun x => (x.base, x.allot)))
/-- A place in a core's scratch for an allotment: where is the run-time's choice (log 5). -/
def findScratch (d : Dev) (k n : Nat) : Option (Nat × Dev) :=
  let used := d.allotments k
  let l := ((0 :: used.map (fun u => u.1 + u.2)).eraseDups).filter (fun b => b + n ≤ 2 ^ 24 && used.all (fun u => u.1 + u.2 ≤ b || b + n ≤ u.1))
  if l.isEmpty then none else
  let (i, d) := d.choose l.length
  some (l.getD i 0, d)
/-- A core has room for one more context (R225). -/
def hasRoom (d : Dev) (k n : Nat) : Bool := decide ((d.core k).resident.length < 16) && (d.findScratch k n).isSome

/-- The kinds of requests that a context waits for, as reply slots (Table 09-3 step 2). -/
def slotOf (x : Ctx) (c tag : Nat) (k : OutKind) : Option Slot :=
  match k with
  | .beat c' xid lo _ _ => if c' = c then some ⟨tag, false, ((x.xfers.find? (·.id == xid)).map (·.eng)).getD 0, xid, lo, none, false⟩ else none
  | .beatSt c' xid => if c' = c then some ⟨tag, false, 2, xid, 0, none, false⟩ else none
  | .putNotify c' xid => if c' = c then some ⟨tag, false, 2, xid, 0, none, false⟩ else none
  | .load c' _ _ _ => if c' = c then some ⟨tag, true, 0, 0, 0, none, false⟩ else none
  | .store c' _ => if c' = c then some ⟨tag, true, 0, 0, 0, none, false⟩ else none
  | .amo c' _ _ => if c' = c then some ⟨tag, true, 0, 0, 0, none, false⟩ else none
  | .tdld c' _ _ _ _ => if c' = c then some ⟨tag, true, 0, 0, 0, none, false⟩ else none
  | .poll c' _ _ => if c' = c then some ⟨tag, true, 0, 0, 0, none, false⟩ else none
  | .bar c' _ => if c' = c then some ⟨tag, true, 0, 0, 0, none, false⟩ else none
  | _ => none
/-- A reply slot is pending. -/
def Slot.pending (s : Slot) : Bool := s.got.isNone && !s.timedOut
/-- Beats of a context in flight that need no other node land (Table 09-3 step 3). -/
def landLocal : Nat → Dev → Nat → Nat → Dev
  | 0, d, _, _ => d
  | n + 1, d, k, c =>
    match (d.core k).inflight.findIdx? (fun b => b.ctx == c && b.tags.isEmpty) with
    | none => d
    | some i => landLocal n (d.landBeat k i) k c
/-- The listed cells of a context's live pages, by allotment offset. -/
def livePages (d : Dev) (x : Ctx) : List Host.Cell :=
  (Memory.slice d.mem (scrKey x 0) x.allot 0).filter (fun b => x.live.contains (b.1 / 4096))
/-- Pre-empts a resident context (R234): its outstanding remote requests get reply slots, its local beats land, its state,
window and live pages go to its save area, and its core is free of it. -/
def preempt (d : Dev) (c : Nat) : Dev :=
  match d.ctx? c with
  | none => d
  | some x =>
    if !d.isRes c x || x.st = .ending || x.fenced then d else
    let k := x.core
    let d := landLocal 256 (if (d.core k).cur = some c then d.mmStop c else d) k c
    let d := d.saveWindow k c
    match d.ctx? c with
    | none => d
    | some x =>
      let slots := d.herd.outs.filterMap (fun o => slotOf x c o.1 o.2.kind)
      let img := d.livePages x
      let bad := (d.flt.poison.filter (fun p => scrKey x 0 ≤ p.1 && p.1 < scrKey x x.allot)).map (fun p => p.1 - scrKey x 0)
      let st : CtxSt := if !slots.isEmpty then .replyWait else if x.st = .residentBlocked then .savedBlocked else .savedRunnable
      let d := (d.chargeBeats c (saveBeats x)).showAcc c
      let d := d.modCtx c (fun x => stopClock { x with st := st, woke := x.st != .residentBlocked, image := img, bad := bad, slots := x.slots ++ slots, ckpt := img, ckptPages := x.live })
      let beats := (d.core k).inflight.filter (·.ctx == c)
      let d := d.modCtx c (fun x => { x with beats := beats })
      let d := d.modCore k (fun y => { y with resident := y.resident.filter (· ≠ c), cur := if y.cur = some c then none else y.cur, inflight := y.inflight.filter (·.ctx != c) })
      let d : Dev := { d with mem := Memory.wipe d.mem (scrKey x 0) x.allot, flt := { d.flt with poison := d.flt.poison.filter (fun p => !(scrKey x 0 ≤ p.1 && p.1 < scrKey x x.allot)) } }
      d.count R.partPreemptCnt R.partEvt F.partEvt_preemptOvf
/-- REPLY_WAIT ends when no slot is pending (R226). -/
def replyWaitEnd (d : Dev) (c : Nat) : Dev :=
  match d.ctx? c with
  | none => d
  | some x =>
    if x.st = .replyWait && !x.slots.any Slot.pending && !(x.fenced && d.ctxCancelled c) then
      d.modCtx c (fun x => { x with st := if x.woke || !x.blocks then .savedRunnable else .savedBlocked, woke := false })
    else d

/-- How many of n bytes at an offset of tier 1 or 2 a die homes (R71). -/
def diePart (tier die off n : Nat) : Nat :=
  let half := if tier = 1 then 0x6000000000 else 0x8000000000
  if die = 0 then min (off + n) half - min off half else max (off + n) half - max off half
/-- The bytes of a tensor that a die homes. -/
def dieBytes (z : Tensor) (die : Nat) : Nat :=
  ((List.range (z.d1 * z.d2 * z.d3)).map (fun i =>
    let r := z.row z.d1 z.d2 i
    diePart (addrTier z.base) die (z.at' (z.rowOff r.1 r.2.1 r.2.2)) (z.rowBytes z.d0))).foldl (· + ·) 0
/-- The score of core k for context c (R231): resident valid bytes twice, and declared inputs on its die. -/
def score (d : Dev) (c k : Nat) (x : Ctx) : Nat :=
  let r := if (d.core k).resident.contains c then 4096 * ((List.range (x.allot / 4096)).filter (fun p => !x.invalid.contains p)).length else 0
  let h := (x.restart.td.map (fun t =>
    let z := (tensorOf t.2).1
    let tier := addrTier z.base
    if z.hint ≠ 0 && (tier = 1 || tier = 2) && addrNode z.base = d.nodeId then dieBytes z (k / 32) else 0)).foldl (· + ·) 0
  2 * r + h
/-- The best of some cores for a context (R231): highest score, then the core it last ran on, then the lowest number. -/
def bestCore (d : Dev) (c : Nat) (x : Ctx) (ks : List Nat) : Option Nat :=
  match ks with
  | [] => none
  | k :: r => some (r.foldl (fun b j =>
      let sb := d.score c b x
      let sj := d.score c j x
      if sb < sj || (sb = sj && x.ran && j = x.core && b ≠ x.core) then j else b) k)

/-- The cost of accounts (R229), by PART_COST. -/
def costOf (d : Dev) (a : Tab Nat) : Nat :=
  let g := fun i => Tab.getD a i 0
  (g 0 * d.fld R.partCost F.partCost_wa + g 1 * d.fld R.partCost F.partCost_wv + g 2 / 256 * d.fld R.partCost F.partCost_wb + g 4 * d.fld R.partCost F.partCost_wq) / 64
/-- W[c]: the cost of a context over the last 64 slices (R230). -/
def windowOf (x : Ctx) : Nat := (x.windows.take 64).foldl (· + ·) 0
/-- A context of the kinds that R230 orders: runnable. -/
def runnable (x : Ctx) : Bool := x.st = .running || x.st = .residentRunnable || x.st = .savedRunnable
/-- A context's deficit times the sum of the runnable shares (R230). -/
def deficit (d : Dev) (x : Ctx) : Int :=
  let cs := (d.ctxsOf x.part).map (·.2)
  let wtot := (cs.map windowOf).foldl (· + ·) 0
  let s := ((cs.filter runnable).map (·.share)).foldl (· + ·) 0
  (x.share * wtot : Nat) - ((windowOf x * s : Nat) : Int)
/-- Inserts by descending deficit, ties by lower ID. -/
def insDef (d : Dev) (c : Nat × Ctx) : List (Nat × Ctx) → List (Nat × Ctx)
  | [] => [c]
  | b :: r => if d.deficit b.2 < d.deficit c.2 || (d.deficit b.2 = d.deficit c.2 && c.1 < b.1) then c :: b :: r else b :: insDef d c r
/-- Contexts in the order of R230. -/
def byDeficit (d : Dev) (l : List (Nat × Ctx)) : List (Nat × Ctx) := l.foldl (fun acc c => d.insDef c acc) []

/-- Restores a saved context on a core that has room (R235): its pages, invalid pages, window, captured replies. -/
def restore (d : Dev) (k c : Nat) : Dev :=
  match d.ctx? c with
  | none => d
  | some x =>
    match d.findScratch k x.allot with
    | none => d
    | some (b, d) =>
      let x' := { x with core := k, base := b }
      let d : Dev := { d with mem := (Memory.slice x.image 0 x.allot (scrKey x' 0)).foldl (fun m w => Memory.set m w.1 w.2) (Memory.wipe d.mem (scrKey x' 0) x.allot) }
      let d := x.bad.foldl (fun d o => d.poisonRange (scrKey x' o) 1) d
      let st : CtxSt := if x.st = .savedBlocked then .residentBlocked else .residentRunnable
      let d := ((d.modCtx c (fun x => { x with core := k, base := b, st := st, image := [], bad := [], slots := [], beats := [] })).chargeBeats c
        (saveBeats x + (x.slots.filter (·.got.isSome)).length)).showAcc c
      -- the beats that were in flight, with the replies that were captured for them (step 3)
      let d := d.modCore k (fun y => { y with resident := y.resident ++ [c], inflight := y.inflight ++ x.beats })
      -- the slots that timed out: FAB.PUTs with NOABORT complete, any other aborts the task, the lowest engine's first (R215)
      let out := x.slots.filter (·.timedOut)
      let easy := fun (s : Slot) => !s.scalar && x.xfers.any (fun t => t.id == s.xid && t.kind == .put && t.noabort)
      let d := (out.filter easy).foldl (fun d s => d.xferFail c s.xid 4) d
      match (out.filter (fun s => !easy s)).foldl (fun (b : Option Slot) s => match b with | some q => if s.eng < q.eng then some s else b | none => some s) none with
      | some s => d.abortTask c 1 s.eng (((x.xfers.find? (fun t => !s.scalar && t.id == s.xid)).map (·.far.base)).getD 0#64)
      | none => d

/-- Makes room for a saved context on a core: unchosen residents are saved, those of lowest deficit first (R231). -/
def makeRoom : Nat → Dev → Nat → Nat → List Nat → Dev
  | 0, d, _, _, _ => d
  | n + 1, d, k, need, keep =>
    if d.hasRoom k need then d else
    let l := (d.byDeficit (((d.core k).resident.filter (fun o => !keep.contains o)).filterMap (fun o => (d.ctx? o).map (fun x => (o, x))))).reverse
    match l.find? (fun o => o.2.st != .ending) with
    | none => d
    | some o => makeRoom n (d.preempt o.1) k need keep
/-- Places a context on a core for execution: resident there, resident elsewhere or saved. -/
def placeOn (d : Dev) (k c : Nat) (keep : List Nat) : Dev :=
  match d.ctx? c with
  | none => d
  | some x =>
    if (d.core k).cur = some c then d
    else if (d.core k).resident.contains c then d.switchTo k c
    else
      let d := if d.isRes c x then d.preempt c else d
      let d := makeRoom 16 d k x.allot keep
      match d.ctx? c with
      | none => d
      | some y => if y.st = .savedRunnable && d.hasRoom k x.allot then (d.restore k c).switchTo k c else d
/-- Brings accounts up to date at a slice end: the slice's cost joins the window (R228, R230). -/
def sliceCosts (d : Dev) (p : Nat) : Dev :=
  (d.ctxsOf p).foldl (fun d c => d.modCtx c.1 (fun x =>
    let delta : Tab Nat := (List.range 5).map (fun a => (a, (Tab.getD x.acc a 0 + 2 ^ 64 - Tab.getD x.accAt a 0) % 2 ^ 64))
    { x with share := x.shareNext, windows := (d.costOf delta :: x.windows).take 64, accAt := x.acc, accShown := x.acc })) d
/-- A slice end of a partition (R230, R231): n is all its Kudu cores in service, and a chosen context is placed on the best free core on
which one may be placed (R221). -/
def sliceEnd (d : Dev) (p : Nat) : Dev :=
  let d := d.sliceCosts p
  let ks := d.placeCores p
  let chosen := (d.byDeficit ((d.ctxsOf p).filter (fun c => runnable c.2))).take (d.coresOf p).length
  let ids := chosen.map (·.1)
  (chosen.foldl (fun (a : Dev × List Nat) c =>
    match a.1.ctx? c.1 with
    | none => a
    | some x => match a.1.bestCore c.1 x a.2 with
      | none => a
      | some k => (a.1.placeOn k c.1 ids, a.2.filter (· ≠ k))) (d, ks)).1

/-! ## Task boundaries and restarts (R92, R93, R211, R237, R238) -/

/-- The waits of a task boundary are over (R92 items 1 and 2): transfers, jobs, token sends, stores. -/
def boundaryReady (d : Dev) (c : Nat) (x : Ctx) : Bool :=
  x.xfers.isEmpty && x.asyncs.isEmpty && x.mm.isNone && !d.herd.outs.any (fun o => (match o.2.kind with | .store c' _ => c' == c | _ => false))
/-- Records a restart point (R92, R238): the architected state, the window's entries, and with SCR_CKPT, whose change takes effect
here, the pages written since the last copy. -/
def recordBoundary (d : Dev) (c : Nat) : Dev :=
  let d := d.modCtx c (fun x =>
    let x := { x with restart := x.arch, restartWin := d.windowNow x, retries := 0, dirty := [], ckptOn := d.flag (R.partCfg x.part) F.partCfg_scrCkpt }
    if x.ckptOn then
      let news := x.live.filter (fun p => !x.ckptPages.contains p)
      { x with ckpt := ((d.livePages x).filter (fun b => news.contains (b.1 / 4096))).foldl (fun m b => Memory.set m b.1 b.2) (news.foldl (fun m p => Memory.wipe m (4096 * p) 4096) x.ckpt), ckptPages := x.live }
    else x)
  d.passBoundary c
/-- Restores an aborted task, or ends the context (Table 08-5 steps 4 to 6; R93). -/
def restartTask (d : Dev) (c : Nat) : Dev :=
  match d.ctx? c with
  | none => d
  | some x =>
    if x.wait ≠ .restart || d.ctxCancelled c || x.fenced then d
    else if x.launch.retryLimit ≤ x.retries then d.endCtx c 1
    else
      let d := d.modCtx c (fun x => { x with arch := x.restart, winSave := x.restartWin, wait := .none, retries := x.retries + 1, restarts := min 65535 (x.restarts + 1), restarted := true })
      if (d.core x.core).cur = some c then d.takeWindow x.core c else d
/-- Restarts a context of a fenced core (R237, R238), or ends it where its partition has no core left. -/
def restartFenced (d : Dev) (c : Nat) : Dev :=
  match d.ctx? c with
  | none => d
  | some x =>
    if !x.fenced then d else
    let d := d.cancelWork c false
    let d := d.modCore x.core (fun y => { y with resident := y.resident.filter (· ≠ c), cur := if y.cur = some c then none else y.cur })
    if x.st = .ending then d.modCtx c (fun x => { x with fenced := false })
    else if (d.coresOf x.part).isEmpty then
      ((d.ctxsOf x.part).filter (fun p => p.1 != c && p.2.st != .ending)).foldl (fun d p => (d.cancelWork p.1 false).endCtx p.1 2)
        ((d.modCtx c (fun x => { x with fenced := false })).endCtx c 2)
    else if d.ctxCancelled c then d.modCtx c (fun x => { x with st := .replyWait })
    else
      let good := if x.ckptOn then x.ckptPages.filter (fun p => !x.dirty.contains p) else x.ckptPages
      let lost := (x.invalid ++ x.dirty ++ x.live.filter (fun p => !good.contains p)).eraseDups.filter (fun p => !good.contains p)
      let d := d.modCtx c (fun x => { x with arch := x.restart, wait := .none, st := .savedRunnable, fenced := false, winSave := x.restartWin, live := good, invalid := lost, dirty := [], image := x.ckpt.filter (fun b => good.contains (b.1 / 4096)), bad := [], slots := [] })
      d.count R.partRestartCnt R.partEvt F.partEvt_restartOvf

end Dev

end Sys2Proof.Machine
end

