-- ==== Sys2Proof/Machine/Link.lean ====
section
/-! DEFINITION. Dual-clock queues, clocks that stop, and the die-to-die links (chapters 01 and 02). -/
namespace Sys2Proof.Machine

/-- Depths of the crossings of Table 02-4, in the order of its rows. -/
def dcqDepth (q : Nat) : Nat := [32, 16, 32, 32, 32, 32, 64, 16, 4, 8, 8, 8, 8, 8, 8, 4, 8].getD q 0
/-- Instances of each crossing of Table 02-4, in the order of its rows: one for each block of Table 02-3 that it reaches, one a
host port for the PCIe controller (log 69), 0 to 15 the LPDDR5X controllers and 16 the write buffer's where a row names both. -/
def dcqCount (q : Nat) : Nat := [4, 128, 1, 8, 16, 36, 6, 3, 3, 4, 128, 8, 17, 36, 6, 3, 1].getD q 0
/-- Instances of each clocked domain of Table 02-3, in the order of its rows: 0 PCIe, 1 ONFI, 2 write buffer, 3 HBM, 4 LPDDR5X,
5 Herd PCS, 6 die-to-die adapter, 7 mclk, 8 time-stamp, 9 Tahr standby. -/
def domCount (x : Nat) : Nat := [1, 128, 1, 8, 16, 36, 6, 3, 3, 1].getD x 0
/-- The clocked domains that an instance of a crossing reaches, with the domain's instance: mclk is that of the block's die. -/
def dcqDomains (q i : Nat) : List (Nat × Nat) :=
  let die := fun (kind : Nat) => unitDie (unitId kind i)
  match q with
  | 0 => [(0, 0)] | 1 => [(1, i)] | 2 => [(2, 0)] | 3 => [(3, i)] | 4 => [(4, i)] | 5 => [(5, i)] | 6 => [(6, i)] | 7 => [(7, i)] | 8 => [(8, i)]
  | 9 => [(7, 2), (0, 0)] | 10 => [(7, 2), (1, i)] | 11 => [(7, die 3), (3, i)]
  | 12 => if i < 16 then [(7, die 4), (4, i)] else [(7, 2), (2, 0)]
  | 13 => [(7, die 5), (5, i)] | 14 => [(7, die 6), (6, i)] | 15 => [(7, i), (8, i)] | 16 => [(7, 2), (9, 0)]
  | _ => []
/-- The key of one direction of one instance of a crossing. -/
def dcqKey (q i : Nat) (up : Bool) : Nat := q * 512 + i * 2 + b2n up

namespace Dev

def dcq (d : Dev) (k : Nat) : Dcq := Tab.getD d.dcqs k Dcq.reset
def setDcq (d : Dev) (k : Nat) (x : Dcq) : Dev := { d with dcqs := Tab.store d.dcqs k x Dcq.reset }
/-- A queue moves no entry: the device has no such crossing, the clock of a domain of it is stopped and both pointers are
frozen (R58), or a side of it has been reset and the handshake is not complete (R59). -/
def dcqFrozen (d : Dev) (q i : Nat) (up : Bool) : Bool :=
  decide (dcqCount q ≤ i) || (dcqDomains q i).any (fun x => d.stopped.contains (x.1 * 256 + x.2)) || (d.dcq (dcqKey q i up)).down

/-- Writes an entry into a queue that is not full (R53, R54). -/
def dcqPut (d : Dev) (q i : Nat) (up : Bool) (e : List Byte) : Dev :=
  let x := d.dcq (dcqKey q i up)
  if d.dcqFrozen q i up || dcqDepth q ≤ x.items.length then d
  else d.setDcq (dcqKey q i up) { x with items := x.items ++ [e], wr := (x.wr + 1) % (2 * dcqDepth q) }

/-- Reads the oldest entry of a queue, whole (R53, R55). -/
def dcqGet (d : Dev) (q i : Nat) (up : Bool) : Dev :=
  let x := d.dcq (dcqKey q i up)
  match x.items with
  | [] => d
  | e :: r =>
    if d.dcqFrozen q i up then d
    else { d.setDcq (dcqKey q i up) { x with items := r, rd := (x.rd + 1) % (2 * dcqDepth q), out := e } with rdata := BitVec.ofNat 64 (leVal (e.take 8)) }

/-- A side of the queues of some crossings, in both directions, enters reset (R59): they are empty to their readers and full to
their writers until the handshake. -/
def dcqDown (d : Dev) (qs : List Nat) (i : Nat) : Dev :=
  qs.foldl (fun d q => [false, true].foldl (fun d up => d.setDcq (dcqKey q i up) { d.dcq (dcqKey q i up) with down := true }) d) d

/-- The ends of a link, as D2D blocks: 0 the IBEX0–IBEX1 link, 1 IBEX0–Vat, 2 IBEX1–Vat (R77). -/
def d2dEnds (l : Nat) : List Nat := [2 * l, 2 * l + 1]
/-- The least modules in service (Table 01-4). -/
def d2dMin (l : Nat) : Nat := if l = 0 then 8 else 1
/-- Modules built. -/
def d2dBuilt (l : Nat) : Nat := if l = 0 then 16 else 4
def d2dMod (d : Dev) (l m : Nat) : D2dMod := Tab.getD d.d2dMods (l * 16 + m) D2dMod.reset
def setD2dMod (d : Dev) (l m : Nat) (x : D2dMod) : Dev := { d with d2dMods := Tab.store d.d2dMods (l * 16 + m) x D2dMod.reset }
/-- One direction of a link. -/
def d2dDir (d : Dev) (k : Nat) : D2dDir := Tab.getD d.d2dDirs k D2dDir.reset
def setD2dDir (d : Dev) (k : Nat) (x : D2dDir) : Dev := { d with d2dDirs := Tab.store d.d2dDirs k x D2dDir.reset }
def d2dFenced (d : Dev) (l m : Nat) : Bool := (d.fld (R.d2dFenced (2 * l)) F.d2dFenced_mask).testBit m

/-- A module carries traffic. -/
def d2dUp (d : Dev) (l m : Nat) : Bool := decide (m < d2dBuilt l) && !d.d2dFenced l m && !(d.d2dMod l m).retraining

/-- The end of a link that receives a direction: up runs from the first end of Table 01-4's name to the second. -/
def d2dRx (l : Nat) (up : Bool) : Nat := if up then 2 * l + 1 else 2 * l
/-- A replay is a corrected error of the receiving end: counted and logged (R30). -/
def d2dReplayed (d : Dev) (rx : Nat) : Dev :=
  ((d.count (R.d2dReplayCnt rx) (R.d2dEvt rx) F.d2dEvt_replayOvf).setFld (R.d2dEvt rx) F.d2dEvt_replay 1).raise
    ⟨0, 0x04, unitId 6 rx, unitId 6 rx, 6, 0#64, 1, false, false, none⟩
/-- A module leaves service: the flits of both directions in flight on it are replayed on the first module that remains (R33). -/
def d2dRehome (d : Dev) (l m : Nat) : Dev :=
  let n := ((List.range (d2dBuilt l)).find? (fun i => i != m && d.d2dUp l i)).getD m
  [false, true].foldl (fun d up =>
    let k := l * 2 + b2n up
    let x := d.d2dDir k
    let l' := x.replay.filter (fun f => f.2.mdl == m)
    let d := d.setD2dDir k { x with replay := x.replay.map (fun f => if f.2.mdl = m then (f.1, { f.2 with mdl := n }) else f) }
    l'.foldl (fun d _ => d.d2dReplayed (d2dRx l up)) d) d

/-- Fences a module (R31, R32): the capability registers fall by its share; below the minimum the device stops. -/
def d2dFence (d : Dev) (l m : Nat) : Dev :=
  if d.d2dFenced l m || d2dBuilt l ≤ m then d else
  let left := d.fld (R.d2dStatus (2 * l)) F.d2dStatus_modules - 1
  let d := (d.setD2dMod l m D2dMod.reset).d2dRehome l m
  let d := (d2dEnds l).foldl (fun d e =>
    ((d.setFld (R.d2dFenced e) F.d2dFenced_mask (d.fld (R.d2dFenced e) F.d2dFenced_mask ||| 2 ^ m)).setFlds (R.d2dStatus e)
      [(F.d2dStatus_modules, left), (F.d2dStatus_retraining, 0)]).setFld (R.d2dEvt e) F.d2dEvt_fence 1) d
  let d := match l with
    | 0 => (d.setFld R.capD2d F.capD2d_ibexMod left).setFld R.capD2dBw0 F.capD2dBw0_gbps (250 * left)
    | 1 => (d.setFld R.capD2d F.capD2d_vat0Mod left).setFld R.capD2dBw1 F.capD2dBw1_gbps (250 * left)
    | _ => (d.setFld R.capD2d F.capD2d_vat1Mod left).setFld R.capD2dBw2 F.capD2dBw2_gbps (250 * left)
  let u := unitId 6 (2 * l)
  let d := d.raise ⟨0, 0x06, u, u, 6, 0#64, 0, false, false, none⟩
  if left < d2dMin l then d.raise ⟨2, 0x0E, u, u, 6, 0#64, 0, false, false, some 2⟩ else d

/-- The payload of a flit: 250 bytes (R28). -/
def flitPayload (e : List Byte) : List Byte := (e ++ List.replicate 250 0#8).take 250
/-- A receiving adapter takes the flit of place sq of a direction, carried by module m (R28, R30): a flit that fails its CRC is
refused and counted, with the module's replays in the last millisecond (R31), and it and every later one come again from the
sender's replay buffer; a good one that is next in order, and finds room, goes on with its virtual channel in front. What the
sender put into a flit is the same in every replay. -/
def d2dReceive (d : Dev) (l : Nat) (up : Bool) (m sq vc : Nat) (good : Bool) (e : List Byte) : Dev :=
  if !d.d2dUp l m then d else
  let k := l * 2 + b2n up
  let x := d.d2dDir k
  let rx := d2dRx l up
  let ahead := (sq + 65536 - x.next % 65536) % 65536
  let f : D2dFlit := { (Tab.find x.replay (x.next + ahead)).getD ⟨m, vc, flitPayload e⟩ with mdl := m }
  let held : D2dDir := { x with replay := if ahead < 32768 then Tab.put x.replay (x.next + ahead) f else x.replay }
  if !good then
    let y := d.d2dMod l m
    let ts := lastMs d.now y.replays
    let d := d.setD2dMod l m { y with replays := ts, due := y.due || decide (16 < ts.length) }
    (d.setD2dDir k { held with refused := true }).d2dReplayed rx
  else if ahead = 0 && !d.dcqFrozen 6 rx up && (d.dcq (dcqKey 6 rx up)).items.length < 64 then
    (d.setD2dDir k ⟨x.next + 1, false, Tab.del x.replay x.next⟩).dcqPut 6 rx up (BitVec.ofNat 8 f.vc :: f.payload)
  else d.setD2dDir k held

/-- A module begins retraining (R31): the flits in flight on it are replayed on the others (R33). -/
def d2dRetrain (d : Dev) (l m : Nat) (lanes : Bool) : Dev :=
  let y := d.d2dMod l m
  let busy := (List.range (d2dBuilt l)).any (fun i => (d.d2dMod l i).retraining)
  if !d.d2dUp l m || busy || !(lanes || y.due || 0 < y.fails) then d else
  let d := (d.setD2dMod l m { y with retraining := true }).d2dRehome l m
  let d := (d2dEnds l).foldl (fun d e =>
    ((d.setFld (R.d2dStatus e) F.d2dStatus_retraining 1).setFld (R.d2dEvt e) F.d2dEvt_retrain 1).count (R.d2dRetrainCnt e) (R.d2dEvt e) F.d2dEvt_retrainOvf) d
  let u := unitId 6 (2 * l)
  d.raise ⟨0, 0x05, u, u, 6, 0#64, 0, false, false, none⟩

/-- A retraining ends (R31): the second failure in a row fences the module. -/
def d2dRetrained (d : Dev) (l m : Nat) (good : Bool) : Dev :=
  let y := d.d2dMod l m
  if !y.retraining then d else
  let d := (d2dEnds l).foldl (fun d e => d.setFld (R.d2dStatus e) F.d2dStatus_retraining 0) d
  if good then d.setD2dMod l m D2dMod.reset
  else if 1 ≤ y.fails then (d.setD2dMod l m { y with retraining := false }).d2dFence l m
  else d.setD2dMod l m { y with retraining := false, fails := y.fails + 1 }

/-- Resynchronisation of a queue after a reset of either side (R59, R60): unread entries are discarded and reported; a
die-to-die adapter has them replayed. -/
def dcqResync (d : Dev) (q i : Nat) (up wr rd : Bool) : Dev :=
  let x := d.dcq (dcqKey q i up)
  if (!wr && !rd && !x.down) || dcqCount q ≤ i then d else
  let n := x.items.length
  let d := d.setDcq (dcqKey q i up) { Dcq.reset with lost := n, out := x.out }
  if q = 6 && n ≠ 0 then
    let k := i / 2 * 2 + b2n up
    let y := d.d2dDir k
    let flits := (List.range n).foldl (fun t j => match x.items.getD j [] with | v :: p => Tab.put t (y.next - n + j) ⟨0, v.toNat, p⟩ | [] => t) y.replay
    let d := if d2dRx (i / 2) up = i then d.setD2dDir k { y with next := y.next - n, replay := flits } else d
    d.raise ⟨1, 0x07, unitId 6 i, unitId 6 i, 6, 0#64, n, false, false, none⟩
  else d

end Dev

end Sys2Proof.Machine
end

