-- ==== Sys2Proof/Machine/Reset.lean ====
section
/-! DEFINITION. Resets and start-up (chapters 18 and 19): what a reset keeps, the boot of an image, the steps of start-up. -/
namespace Sys2Proof.Machine

/-- Offsets of registers that a device reset keeps: the PWR, SEC and TAHR blocks on the standby rail (R543), the counters of
the translation layer that persist through the journal (R417, R418). -/
def keptReg (a : Nat) : Bool :=
  (0x60000 ≤ a && a < 0x64000) || (0xE0000 ≤ a && a < 0x100000) ||
  [R.ftlUserwLo, R.ftlUserwHi, R.ftlMediawLo, R.ftlMediawHi, R.ftlGcCnt, R.ftlPoisonCnt, R.ftlPromoteCnt, R.ftlFlushCnt,
   R.wbcLastFlush].contains a

/-- The units on the main rails at a reset whose scope is the device (R529): what lies in flash and what the translation
layer keeps there stays; objects and collections of tier 3 stay (R350); a controller keeps its saved features. The port mode is
loaded from NEXT as it stood (R421), and NEXT takes its reset value (R11). -/
def Dev.onReset (d : Dev) : Dev :=
  let f := d.ftl
  let regs := d.regs.filter (fun p => keptReg p.1)
  let nxt := d.fld R.hostPortcfg F.hostPortcfg_next
  let colls := (d.search.colls.filter (fun c => c.2.home = 3 && !c.2.destroyed)).map (fun c => (c.1, c.2.onReset))
  -- dies that had failed are tried again (R384)
  let sbs := f.sbs.map (fun p => (p.1, { p.2 with failed := f.badMembers.any (fun k => memberSb k == some p.1) }))
  let keep := fun (o : Nat × Obj) => o.2.tier = 3 && (o.2.kind ≠ .segment || colls.any (fun c => c.2.objs.contains (o.1 + 1)))
  let e : Dev := { Dev.reset with
    draws := d.draws, regs := regs,
    tier := { TierSt.reset with objs := (d.tier.objs.filter keep).map (fun o => (o.1, { o.2 with move := none })), nextId := d.tier.nextId },
    search := { SearchSt.reset with colls := colls },
    flash := { d.flash with wbuf := [], wbPoison := [], oryxIn := [] },
    ftl := { FtlSt.reset with flash := f.flash, units := f.units, packed := f.packed, sbs := sbs, seq := f.seq, regionSeq := f.regionSeq, intents := f.intents, flushRec := f.flushRec, flushLoss := f.flushLoss, retired := f.retired, g0 := f.g0, poisonCount := f.poisonCount, badMembers := f.badMembers, donated := f.donated, oldFlush := f.oldFlush },
    host := { HostSt.reset with nss := d.host.nss, ports := d.host.ports, ctrls := d.host.ctrls.map (fun c => (c.1, { Ctrl.reset with saved := c.2.saved, feats := c.2.saved })) } }
  e.setFlds R.hostPortcfg [(F.hostPortcfg_mode, nxt), (F.hostPortcfg_next, 0)]

namespace State

/-- Main rails go off: what the power sequencer shows of them. -/
def railsOff (s : State) : State :=
  (s.onAon (fun a => { a with mainGood := false, pwrgd := false, readyAt := none })).onDev (fun d =>
    d.setFlds R.pwrStatus [(F.pwrStatus_mainGood, 0), (F.pwrStatus_vcoreMv, 0), (F.pwrStatus_atFloor, 0)])

/-- Ranges whose LockOnReset includes Power Cycle are locked (R501). -/
def opalLock (s : State) : State :=
  s.onAon (fun a => { a with opal := { a.opal with
    globals := a.opal.globals.map (fun g => (g.1, if g.2.2.2 then (true, true, true) else g.2)),
    ranges := a.opal.ranges.map (fun r => (r.1, if r.2.onReset then { r.2 with rlock := true, wlock := true } else r.2)) } })

/-- The flush before a reset: main rails on and admission open (R406, R531). -/
def flushForReset (s : State) : State :=
  if s.aon.mainGood && s.dev.ftl.admOpen then s.onDev (fun d => d.holdupFlush false) else s

/-- A device reset is in progress: its rails are off and its start-up has not brought them up (R532). -/
def inReset (s : State) : Bool := !s.aon.mainGood && (s.aon.step == 1 || s.aon.step == 2) && s.aon.fawn.isNone

/-- Bit of PWR_CAUSE. -/
def causeFld (c : Nat) : Fld := ⟨c, 1⟩

/-- A device reset (R530 to R532): cause 1 main power, 2 pin, 3 NVM subsystem, 4 software, 5 watchdog, 6 life cycle, 7 firmware. -/
def deviceReset (s : State) (cause : Nat) : State :=
  if s.inReset then s.onDev (fun d => d.setFld R.pwrCause (causeFld cause) 1)
  else
    let s := s.flushForReset.railsOff.opalLock
    let restart := cause = 5 || cause = 6 || s.aon.pendAct.isSome || s.aon.running.isNone
    let s := s.onDev (fun d => ((List.range 8).foldl (fun d i => d.setReg (R.pwrStep i) 0#32)
      ((d.onReset.setReg R.pwrCause 0#32).setFld R.pwrCause (causeFld cause) 1)).setFld R.pwrCtrl F.pwrCtrl_reset 0)
    (s.onAon (fun a => { a with step := if restart then 1 else 2, fawn := none, running := if restart then none else a.running, update := if restart then none else a.update })).updateCap.drivePins

/-- A cold reset (R529): standby power is applied, so the units on the standby rail start anew too; what lies in management
flash, fuses and the key store stays, and log entries not yet written are lost (R492). -/
def coldReset (s : State) : State :=
  let s := s.flushForReset.opalLock
  let a := s.aon
  let d := { s.dev.onReset with regs := s.dev.onReset.regs.filter (fun p => !((0x60000 ≤ p.1 && p.1 < 0x64000) || (0xE0000 ≤ p.1 && p.1 < 0x100000))) }
  { s with dev := d, aon := { AonSt.reset with img1 := a.img1, img2 := a.img2, active := a.active, pendAct := a.pendAct, copyA := a.copyA, copyB := a.copyB, bootCnt := a.bootCnt, retired := a.retired, keys := a.keys, keyGen := a.keyGen, ownerKey := a.ownerKey, idKey := a.idKey, testKeys := a.testKeys, opal := a.opal, lc := a.lc, lcFuse := a.lcFuse, svn := a.svn, log := a.log.drop a.uncommitted, nonceSeq := a.nonceSeq, vpd := a.vpd, miCfg := a.miCfg, inputGood := true, resetLow := a.resetLow, recov := a.recov, step := 1 } }

/-- Enters Fawn mode for a reason (R512). -/
def enterFawn (s : State) (reason : Nat) : State :=
  (s.onAon (fun a => { a with fawn := some ⟨reason, 0#64, 0, 0, 0, 0, 0, []⟩, running := none, update := none })).secEvent 0x0008 reason

/-- Boots a slot: the image is checked again (R509); an image that fails is a failed boot (R512), one that passes runs and
chooses its settings (R497). -/
def bootSlot (s : State) (n : Nat) : State :=
  match s.aon.img n with
  | none =>
    let c := min 3 (s.aon.bootCnt + 1)
    (s.onAon (fun a => { a with bootCnt := c, fawn := none, step := 0 })).secEvent 0x0007 c
  | some i =>
    match imgCheck s.aon i with
    | some st =>
      let c := min 3 (s.aon.bootCnt + 1)
      let s := if st = 0x68 then s.authFailed 1 else s
      (s.onAon (fun a => { a with bootCnt := c, fawn := none, step := 0 })).secEvent 0x0007 c
    | none =>
      let (s, vals) := (s.onAon (fun a => { a with running := some n, fawn := none, step := 1 })).loadSettings i
      s.onAon (fun a => { a with setVals := vals })

/-- The boot ROM at a start (R512): DECOMMISSIONED, the strap, three failures, no valid image, else the active slot. -/
def bootRom (s : State) : State :=
  if s.aon.step ≠ 1 || s.aon.running.isSome || s.aon.fawn.isSome || !s.aon.standby then s
  else if s.aon.lcFuse then s.onAon (fun a => { a with step := 0, keys := [] })
  else
    let s : State := match s.aon.pendAct with
      | some n => (s.onAon (fun a => { a with active := n, pendAct := none })).onDev (fun d => d.setFld R.pwrCause F.pwrCause_fwActivate 1)
      | none => s
    if s.aon.recov then s.enterFawn 0
    else if 3 ≤ s.aon.bootCnt then s.enterFawn 1
    else if !s.aon.slotValid 1 && !s.aon.slotValid 2 then s.enterFawn 2
    else s.bootSlot s.aon.active

/-- The start-up watchdog (R512): start-up has not reached NVMe ready, or its image failed; the device is reset. It does not run while the
device is stopped with its rails off (R526, R527). -/
def watchdog (s : State) : State :=
  if s.aon.step = 9 || (s.aon.step = 0 && s.aon.running.isSome) || s.aon.fawn.isSome || s.aon.lcFuse || !s.aon.standby || !s.aon.inputGood then s
  else if s.aon.running.isNone then (s.onAon (fun a => { a with step := 0 })).deviceReset 5
  else
    let c := min 3 (s.aon.bootCnt + 1)
    let s := (s.onAon (fun a => { a with bootCnt := c })).secEvent 0x0007 c
    (s.onAon (fun a => { a with step := 0 })).deviceReset 5

end State

namespace Dev

/-- The tier of a memory controller. -/
def mcTier (kind : Nat) : Nat := if kind = 3 then 1 else 2
/-- Bytes of a retirement. -/
def retiredBytes (kind : Nat) (bank : Bool) : Nat := 4096 * (if bank then bankGranules kind else 1)
/-- Lowers CAP_TIER_AVAIL (R38). -/
def lowerAvail (d : Dev) (tier n : Nat) : Dev := d.setPair (R.capTierAvailLo tier) (d.pair (R.capTierAvailLo tier) - n)

/-- Withholds the spare of a retirement from allocation (R480 step 1). A half that is withdrawn has no byte in service that the spare could
take away (R38). -/
def withhold (d : Dev) (x : Retired) : Dev :=
  let k := unitKind x.ctrl
  let d := { d with flt := { d.flt with withheld := d.flt.withheld ++ [x] } }
  if d.flag (mcBase k (unitInst x.ctrl)) F.hbmcStatus_withdrawn then d else d.lowerAvail (mcTier k) (retiredBytes k x.bank)
/-- Puts a retirement into force: the table entry and the counts (R480 step 4, R482). -/
def addRetired (d : Dev) (x : Retired) : Dev :=
  let k := unitKind x.ctrl
  let b := mcBase k (unitInst x.ctrl)
  let d := { d with flt := { d.flt with retired := d.flt.retired ++ [x] } }
  if x.bank then d.setFld (b + 0x34) F.hbmcRetUsed_banks (d.fld (b + 0x34) F.hbmcRetUsed_banks + 1)
  else d.setFld (b + 0x34) F.hbmcRetUsed_pages (d.fld (b + 0x34) F.hbmcRetUsed_pages + 1)

/-- Withdraws a die half of tier 1 or 2 (Table 17-4). -/
def withdrawHalf (d : Dev) (kind die : Nat) : Dev :=
  let n := if kind = 3 then 4 else 8
  if d.flag (mcBase kind (die * n)) F.hbmcStatus_withdrawn then d else
  let d := (upFrom (die * n) n).foldl (fun d i => d.setFld (mcBase kind i) F.hbmcStatus_withdrawn 1) d
  let gone := (d.flt.withheld.filter (fun x => unitKind x.ctrl == kind && die * n ≤ unitInst x.ctrl && unitInst x.ctrl < die * n + n)).map (fun x => retiredBytes kind x.bank)
  d.lowerAvail (mcTier kind) ((if kind = 3 then 0x6000000000 else 0x8000000000) - gone.foldl (· + ·) 0)

/-- Fences a Herd link at self-test or under R276: it leaves service until the next reset of the device. -/
def fenceLink (d : Dev) (h : Nat) : Dev :=
  if d.isFenced (unitId 5 h) then d else
  let d := (d.addFence (unitId 5 h)).setFld (R.hlState h) F.hlState_state 5
  let d := d.setFld (R.hlEvt h) F.hlEvt_fenced 1
  d.setFld R.capHerd F.capHerd_inService (d.fld R.capHerd F.capHerd_inService - 1)

/-- The action of Table 17-4 for a unit whose checker failed its self-test; the failure is logged as a fatal fault. -/
def selftestFail (d : Dev) (u : Nat) : Dev :=
  let i := unitInst u
  let d := d.raise ⟨2, 0x0B, u, u, 7, 0#64, 0, true, false, none⟩
  match unitKind u with
  | 1 => d.fenceKudu i
  | 2 => d.fenceCham i
  | 3 => d.withdrawHalf 3 (i / 4)
  | 4 => d.withdrawHalf 4 (i / 8)
  | 5 => d.fenceLink i
  | 6 => match (List.range 16).find? (fun m => d.d2dUp (i / 2) m) with
    | some m => d.d2dFence (i / 2) m
    | none => d
  | 7 | 8 => d.fenceDie i
  | 0x0A => d.fenceOryx i
  | 0x0B => d.addFence u
  | 0x0C => d.fencePress i
  | 0x0D | 0x0F | 0x11 | 0x12 => d.devStop u
  | _ => d

/-- Loads the settings (R222, R495): registers, the owners in force, the copy of the privilege bits. -/
def loadSettings (d : Dev) (vals : Tab W32) : Dev :=
  let d := vals.foldl (fun d p =>
    if p.1 < 0x1000000 && p.1 ≠ R.hostPortcfg && p.1 ≠ R.pwrCap then d.setReg p.1 p.2 else d) d
  let d := d.setFld R.hostPortcfg F.hostPortcfg_next (getF (Tab.getD vals R.hostPortcfg 0#32) F.hostPortcfg_next)
  let d := (List.range 64).foldl (fun d k => d.setFlds (R.partKuduOwn k) [(F.partKuduOwn_effective, d.fld (R.partKuduOwn k) F.partKuduOwn_owner), (F.partKuduOwn_pending, 0)]) d
  let d := (List.range 32).foldl (fun d n => d.setFlds (R.partChamOwn n) [(F.partChamOwn_effective, d.fld (R.partChamOwn n) F.partChamOwn_owner), (F.partChamOwn_pending, 0)]) d
  d.setFld R.addrPriv F.addrPriv_priv (((List.range 16).filter (fun p => d.isPriv p)).foldl (fun m p => m + 2 ^ p) 0)

/-- Step 7 of start-up on the main rails (Table 19-4): channels, recovery, settings, cores. -/
def startFirmware (d : Dev) (vals : Tab W32) (ms : Nat) : Dev :=
  let d := (List.range 128).foldl (fun d ch => d.fchInit ch (if d.isFenced (unitId 0x0B ch) then 0 else 12)) d
  let d := d.ftlRecover ms
  let d := (List.range 128).foldl (fun d ch => (List.range 12).foldl (fun d t => if (d.die ch t).failed then d.ftlDieFailed ch t else d) d) d
  let d := (List.range 8).foldl (fun d n => if d.isFenced (unitId 0x0C n) then d else d.setFld (R.pressStatus n) F.pressStatus_run 1) d
  let d := d.loadSettings vals
  let d := { d with tier := { d.tier with loaded := true } }
  let d := (List.range 64).foldl (fun d k => if d.isFenced (unitId 1 k) then d
    else (d.setFld (R.kuduCtrl k) F.kuduCtrl_run 1).setFld (R.kuduStatus k) F.kuduStatus_stopped 0) d
  (List.range 32).foldl (fun d n => if d.isFenced (unitId 2 n) || d.chamOwner n = 31 then d else d.setFld (R.chamCtrl n) F.chamCtrl_halt 0) d

end Dev

namespace State

/-- Records the end of a step and goes to the next (R533). -/
def stepTo (s : State) (k ms : Nat) : State :=
  (s.onDev (fun d => d.setReg (R.pwrStep (k - 1)) (BitVec.ofNat 32 (max 1 ms)))).onAon (fun a => { a with step := k + 1 })

/-- The end of a step of start-up (Table 19-4): ms since t0, and for step 3 the units whose checkers failed. -/
def stepEnd (s : State) (ms : Nat) (fail : List Nat) : State :=
  match s.aon.step with
  | 1 => if s.aon.charged && s.aon.running.isSome && s.aon.fawn.isNone then s.stepTo 1 ms else s
  | 2 =>
    if s.aon.resetLow || !s.aon.inputGood then s else
    let s := s.onAon (fun a => { a with mainGood := true, pwrgd := true })
    let s := s.onDev (fun d => (List.range 3).foldl (fun d i => d.setFld (R.tsStatus i) F.tsStatus_running 1)
      ({ d with now := 0 }.setFlds R.pwrStatus [(F.pwrStatus_mainGood, 1), (F.pwrStatus_vcoreMv, 750)]))
    ((s.event 0 0x13 0x000D 0 (BitVec.ofNat 64 s.aon.ns)).stepTo 2 ms)
  | 3 =>
    let s := s.onDev (fun d => fail.foldl (fun d u => d.selftestFail u) d)
    let s := s.onDev (fun d => s.aon.retired.foldl (fun d x => (d.withhold x).addRetired x) d)
    let s := s.onDev (fun d => (List.range 3).foldl (fun d b => d.setFld (R.fltStatus b) F.fltStatus_selftestDone 1) d)
    let s := s.settled
    if s.dev.devFatal then s.drivePins else s.stepTo 3 ms
  | 4 => if s.dev.devFatal then s else (s.onDev (fun d => { d with mem := [], flt := { d.flt with poison := [] }, flash := { d.flash with wbuf := [], wbPoison := [], oryxIn := [] } })).stepTo 4 ms
  | 5 => if s.dev.devFatal then s else s.stepTo 5 ms
  | 6 => if s.dev.devFatal then s else (s.onDev (fun d => { d with dcqs := [] })).stepTo 6 ms
  | 7 =>
    if s.dev.devFatal then s else
    let rec' := ms - (s.dev.reg (R.pwrStep 5)).toNat
    let s := s.onDev (fun d => d.startFirmware s.aon.setVals rec')
    let s := match Tab.find s.aon.setVals R.pwrCap with
      | some v => s.writeCap (getF v F.pwrCap_w)
      | none => s
    s.stepTo 7 ms
  | 8 =>
    if s.dev.devFatal then s else
    let s := s.onDev (fun d => { d with host := { d.host with ctrls := d.host.ctrls.map (fun c => (c.1, { c.2 with rdy := c.2.en })) } })
    let s := s.onAon (fun a => { a with readyAt := some a.ns, bootCnt := 0 })
    (s.secEvent 0x0005 (s.aon.running.getD 0)).stepTo 8 ms
  | _ => s

/-- Loss of main power (R527, R535). -/
def powerLoss (s : State) : State :=
  if !s.aon.inputGood then s else
  let s := s.onDev (fun d => (d.count R.pwrLossCnt R.pwrEvt F.pwrEvt_lossOvf).setFld R.pwrEvt F.pwrEvt_loss 1)
  let s := if s.aon.mainGood && s.dev.ftl.admOpen then s.onDev (fun d => d.holdupFlush true) else s
  ((s.railsOff.opalLock).onAon (fun a => { a with inputGood := false, holdup := true, step := 0 })).onDev (fun d => d.setFld R.pwrStatus F.pwrStatus_holdup 1)

/-- Main power returns with standby kept (R527). -/
def powerReturn (s : State) : State :=
  if s.aon.inputGood || !s.aon.standby then s else
  let s := (s.onAon (fun a => { a with inputGood := true, holdup := false })).onDev (fun d => d.setFld R.pwrStatus F.pwrStatus_holdup 0)
  s.deviceReset 1

/-- A thermal trip (R526): a junction at 115 °C or the coolant outlet at 65 °C stops the device and turns its rails off; one inside
start-up leaves it to the watchdog (R535). -/
def trip (s : State) : State :=
  if s.aon.mainGood && ((List.range 40).any (fun i => 920 ≤ s.dev.temp i) || 520 ≤ s.dev.temp 62) then
    let u := unitId 0x12 0
    let s := (s.onDev (fun d => d.raise ⟨2, 0x11, u, u, 9, 0#64, 0, false, false, some 2⟩)).settled
    (s.railsOff.onAon (fun a => { a with step := if a.step = 9 then 0 else a.step })).onDev (fun d => d.setFld R.pwrEvt F.pwrEvt_trip 1)
  else s

/-- One step of the thermal cap (R525). -/
def thermStep (s : State) : State :=
  if s.dev.flag R.tahrEvt F.tahrEvt_crit then
    let cur := min s.aon.thermCap (s.dev.fld R.pwrStatus F.pwrStatus_inForce)
    let n := max 250 (cur - 25)
    if n < cur then
      ((s.onAon (fun a => { a with thermCap := n })).onDev (fun d => (d.count R.pwrThrottleCnt R.pwrEvt F.pwrEvt_throttleOvf).setFld R.pwrEvt F.pwrEvt_throttle 1)).updateCap
    else s
  else if s.aon.thermCap < 450 then (s.onAon (fun a => { a with thermCap := min 450 (a.thermCap + 25) })).updateCap
  else s

end State

end Sys2Proof.Machine
end

