-- ==== Sys2Proof/Machine/HerdLink.lean ====
section
/-! DEFINITION. Herd links: flits and their CRC (R270), replay (R271, R272), credits and the choice of the next message (R273,
R284), link states (R275 to R277). -/
namespace Sys2Proof.Machine

/-! ## CRC, messages and flits as bytes -/

/-- One bit into the CRC register of R270. -/
def crcBit (c : Nat) (b : Bool) : Nat :=
  let x := (c * 2) % 2 ^ 64
  if (c.testBit 63) != b then x ^^^ 0x42F0E1EBA9EA3693 else x
/-- A byte into the CRC register, from bit 0 upward. -/
def crcByte (c : Nat) (b : Byte) : Nat := (List.range 8).foldl (fun c i => crcBit c (b.getLsbD i)) c
/-- CRC-64 of bytes (R270). -/
def crc64 (l : List Byte) : Nat := (l.foldl crcByte (2 ^ 64 - 1)) ^^^ (2 ^ 64 - 1)

/-- The bytes of a message (Table 11-4). -/
def Msg.encode (m : Msg) : List Byte :=
  leBytes 8 (m.opc + m.dst * 2 ^ 8 + m.src * 2 ^ 20 + m.tag * 2 ^ 32 + m.data.length / 16 * 2 ^ 48 + b2n m.poison * 2 ^ 59 + b2n m.clamped * 2 ^ 60) ++
  leBytes 8 m.addr.toNat ++ m.data
/-- LEN of a header's word 0. -/
def lenOf (w0 : Nat) : Nat := bitsOf w0 48 11
/-- A message from its header and data. -/
def Msg.decode (w0 w1 : Nat) (data : List Byte) : Msg :=
  ⟨bitsOf w0 0 8, bitsOf w0 8 12, bitsOf w0 20 12, bitsOf w0 32 16, w0.testBit 59, w0.testBit 60, BitVec.ofNat 64 w1, data⟩
/-- The LEN that Table 11-5 allows an opcode. -/
def lenOk (opc n : Nat) : Bool :=
  match opc with
  | 0x05 => 1 ≤ n && n ≤ 16
  | 0x06 | 0x08 => n == 2
  | 0x07 | 0x21 | 0x22 => n == 8
  | 0x20 => n ≤ 16
  | 0x26 => n == 0 || n == 8
  | 0x28 => n == 1
  | 0x40 | 0x42 => n ≤ 1024
  | 0x50 | 0x51 | 0x52 | 0x53 | 0x54 | 0x55 => n ≤ 16
  | _ => n == 0

/-- A flit (Table 11-1). -/
def flit (ftype sq ack cvc cred : Nat) (payload : List Byte) : List Byte :=
  let b := leBytes 6 (ftype + sq % 4096 * 2 ^ 4 + ack % 4096 * 2 ^ 16 + cvc * 2 ^ 28 + min cred 255 * 2 ^ 31) ++ (payload ++ List.replicate (242 - payload.length) 0#8).take 242
  b ++ leBytes 8 (crc64 b)

namespace Dev

/-- Counts a message discarded on arrival at a link (R279, R282, R296, R305). -/
def protoErr (d : Dev) (h : Nat) : Dev := (d.count (R.hlProtoCnt h) (R.hlEvt h) F.hlEvt_protoOvf).setFld (R.hlEvt h) F.hlEvt_proto 1
/-- Credits that a message takes: units of 64 bytes (R273). -/
def credOf (m : Msg) : Nat := ceilDiv (16 + m.data.length) 64
/-- Notes credits to be returned to a link's sender. -/
def owe (d : Dev) (h vc n : Nat) : Dev := d.modLink h (fun l => { l with owed := Tab.store l.owed vc (Tab.getD l.owed vc 0 + n) 0 })

/-- Takes a whole message that has arrived on a link: its own stay in the link's buffer until a command handles them, transit
goes on (R282), what cannot be taken is discarded (R279, R296). -/
def takeMsg (d : Dev) (h : Nat) (m : Msg) : Dev :=
  match vcOf m.opc with
  | none => d.protoErr h
  | some vc =>
    let n := credOf m
    if !lenOk m.opc (m.data.length / 16) then (d.protoErr h).owe h vc n
    else if vc ≠ 4 && (d.linkSt h ≠ 3 || d.herd.cut.contains m.src) then (d.protoErr h).owe h vc n
    else if vc = 4 || m.dst = d.nodeId then d.modLink h (fun l => { l with rx := l.rx ++ [m] })
    else
      let (ok, e) := d.send none m
      (if ok then e else d.protoErr h).owe h vc n
/-- Parses the bytes that a link has received: whole messages are taken, a message that spans on is kept (R273, R279). -/
def parseRx : Nat → Dev → Nat → List Byte → Dev
  | 0, d, _, _ => d
  | n + 1, d, h, l =>
    match l with
    | [] => d.modLink h (fun k => { k with rxPart := [] })
    | b :: _ =>
      if b = 0#8 then d.modLink h (fun k => { k with rxPart := [] })
      else if l.length < 16 then d.modLink h (fun k => { k with rxPart := l })
      else
        let w0 := leVal (l.take 8)
        let len := 16 * lenOf w0
        if l.length < 16 + len then d.modLink h (fun k => { k with rxPart := l })
        else parseRx n (d.takeMsg h (Msg.decode w0 (leVal ((l.drop 8).take 8)) ((l.drop 16).take len))) h (l.drop (16 + len))

/-- Replay: an ACK frees the flits up to it (R271). -/
def ackTo (l : Link) (ack : Nat) : Link :=
  match l.replay.findIdx? (fun f => f.seq == ack) with
  | none => l
  | some i =>
    let keep := l.replay.drop (i + 1)
    { l with replay := keep, resend := min l.resend keep.length }
/-- The sender meets a NAK (R271): every flit after its ACK is sent again; the sequence counts and is a corrected error. -/
def nakTake (d : Dev) (h ack : Nat) : Dev :=
  let d := d.modLink h (fun l => let l := ackTo l ack; { l with resend := l.replay.length })
  let d := d.modLink h (fun l => { l with replays := lastMs d.now l.replays })
  let d := (d.count (R.hlReplayCnt h) (R.hlEvt h) F.hlEvt_replayOvf).setFld (R.hlEvt h) F.hlEvt_replay 1
  d.raise ⟨0, 0x04, unitId 5 h, unitId 5 h, 6, 0#64, 1, false, false, none⟩
/-- A link carries flits: UNASSIGNED or ACTIVE. -/
def carries (d : Dev) (h : Nat) : Bool := d.linkSt h == 2 || d.linkSt h == 3
/-- The receiver refuses a DATA flit: one NAK is due until a flit is accepted (R271). -/
def refuse (d : Dev) (h : Nat) : Dev := d.modLink h (fun l => if l.nakOut then l else { l with nakDue := true })
/-- A flit arrives on a link (R270 to R273). Whether a failed CRC came from an uncorrectable codeword is not to be seen in
the flit: a free choice (log 5). -/
def flitIn (d : Dev) (h : Nat) (e : List Byte) : Dev :=
  if !d.carries h || e.length ≠ 256 then d else
  let w := leVal (e.take 6)
  let ft := bitsOf w 0 4
  if leVal (e.drop 248) ≠ crc64 (e.take 248) || 3 ≤ ft then
    let (u, d) := d.choose 2
    let d := if u = 0 then d else (d.count (R.hlFecUncorrCnt h) (R.hlEvt h) F.hlEvt_uncorrOvf).modLink h (fun l => { l with uncorrs := lastMs d.now l.uncorrs })
    d.refuse h
  else
    let ack := bitsOf w 16 12
    let cvc := bitsOf w 28 3
    let d := d.modLink h (fun l =>
      let l := ackTo l ack
      if 5 ≤ cvc then l else { l with credits := Tab.put l.credits cvc (Tab.getD l.credits cvc 0 + bitsOf w 31 8) })
    match ft with
    | 1 =>
      if bitsOf w 4 12 = ((d.link h).rxSeq + 1) % 4096 then
        let d := d.modLink h (fun l => { l with rxSeq := (l.rxSeq + 1) % 4096, nakOut := false, nakDue := false })
        let d := d.addPair (R.hlRxflitLo h) 1 (R.hlEvt h) F.hlEvt_flitsWrap
        parseRx 512 d h ((d.link h).rxPart ++ (e.drop 6).take 242)
      else d.refuse h
    | 2 => d.nakTake h ack
    | _ => d

/-! ## Sending (R273, R284) -/

/-- The weight of a class of REQ and TOK messages: a partition's share, or for transit (16) the sum of the shares; the
device's own messages (17) and partitions of share 0 have none. -/
def classWeight (d : Dev) (c : Nat) : Nat :=
  if c < 16 then d.fld (R.partHerd c) F.partHerd_share
  else if c = 16 then ((List.range 16).map (fun p => d.fld (R.partHerd p) F.partHerd_share)).foldl (· + ·) 0
  else 0
/-- The class of a waiting message. -/
def classOf (d : Dev) (q : Option Nat × Msg) : Nat := match q.1 with | some p => p | none => if q.2.src = d.nodeId then 17 else 16
/-- A message's channel has the credits it needs at the next hop, and the link's state lets it go. -/
def mayGo (d : Dev) (h : Nat) (l : Link) (m : Msg) : Bool :=
  match vcOf m.opc with
  | some vc => decide (credOf m ≤ Tab.getD l.credits vc 0) && (vc == 4 || d.linkSt h == 3)
  | none => false
/-- A message of the queue goes after every earlier one about the same line between the same nodes on the same channel (R281). -/
def inTurn (l : Link) (i : Nat) (m : Msg) : Bool :=
  (l.tx.take i).all (fun q => vcOf q.2.opc != vcOf m.opc || q.2.src != m.src || q.2.dst != m.dst || q.2.addr.toNat / 128 != m.addr.toNat / 128)
/-- The first message of a class that may go: the oldest of its REQ messages or of its TOK messages. -/
def firstOf (d : Dev) (h : Nat) (l : Link) (c : Nat) : Option Nat :=
  let head := fun (vc : Nat) => (l.tx.findIdx? (fun q => d.classOf q == c && vcOf q.2.opc == some vc)).filter (fun i =>
    match l.tx[i]? with | some q => d.mayGo h l q.2 && inTurn l i q.2 | none => false)
  match head 0, head 3 with
  | some i, some j => some (min i j)
  | some i, none => some i
  | none, r => r
/-- The classes that have a message to send: those with a weight, where there is one. -/
def liveClasses (d : Dev) (h : Nat) (l : Link) : List Nat :=
  let live := (List.range 18).filter (fun c => (d.firstOf h l c).isSome)
  let w := live.filter (fun c => d.classWeight c != 0)
  if w.isEmpty then live else w
/-- Weighted round robin goes in rounds (R284): in each a class has as many 256-byte units as its weight, one that sends nothing keeps none for
later, and a round is over when every class that has a message has had its units. -/
def newRound (d : Dev) (h : Nat) (l : Link) : Link :=
  let w := fun (c : Nat) => max 1 (d.classWeight c)
  match d.liveClasses h l with
  | [] => l
  | c :: r =>
    let n := r.foldl (fun n c => min n (Tab.getD l.grants c 0 / w c)) (Tab.getD l.grants c 0 / w c)
    if n = 0 then l else { l with grants := (l.grants.map (fun g => (g.1, g.2 - n * w g.1))).filter (fun g => g.2 != 0) }
/-- The index of the next message to send (R284): SNP, RSP, LMP, then REQ and TOK by weighted round robin, of the classes the one that has
had the least of its round (log 79). -/
def nextMsg (d : Dev) (h : Nat) (l : Link) : Option Nat :=
  let first := fun (vc : Nat) => (l.tx.findIdx? (fun q => vcOf q.2.opc == some vc)).bind (fun i => match l.tx[i]? with | some q => if d.mayGo h l q.2 then some i else none | none => none)
  match first 2 with
  | some i => some i
  | none => match first 1 with
    | some i => some i
    | none => match first 4 with
      | some i => some i
      | none =>
        ((d.liveClasses h l).foldl (fun (b : Option Nat) c => match b with
          | none => some c
          | some e => if Tab.getD l.grants c 0 * max 1 (d.classWeight e) < Tab.getD l.grants e 0 * max 1 (d.classWeight c) then some c else some e) none).bind (d.firstOf h l)
/-- Packs messages into a link's outgoing bytes until a flit is full or nothing may go. -/
def pack : Nat → Dev → Nat → Dev
  | 0, d, _ => d
  | n + 1, d, h =>
    let l := d.newRound h (d.link h)
    if 242 ≤ l.txPart.length then d else
    match d.nextMsg h l with
    | none => d
    | some i => match l.tx[i]? with
      | none => d
      | some q =>
        let vc := (vcOf q.2.opc).getD 0
        let c := d.classOf q
        let d := d.modLink h (fun _ => { l with
          tx := l.tx.eraseIdx i, txPart := l.txPart ++ q.2.encode, credits := Tab.put l.credits vc (Tab.getD l.credits vc 0 - credOf q.2),
          grants := if vc = 0 || vc = 3 then Tab.store l.grants c (Tab.getD l.grants c 0 + ceilDiv (16 + q.2.data.length) 256) 0 else l.grants })
        pack n d h
/-- Puts a flit on a link's lanes; it returns the credits of one channel. -/
def putWire (d : Dev) (h ft sq : Nat) (payload : List Byte) : Dev :=
  let l := d.link h
  let (vc, n) := match l.owed with | [] => (7, 0) | (v, n) :: _ => (v, min n 255)
  d.modLink h (fun l => { l with owed := if vc = 7 then l.owed else Tab.store l.owed vc (Tab.getD l.owed vc 0 - n) 0, wire := flit ft sq l.rxSeq vc n payload })
/-- Sends one flit on a link: a NAK that is due, else a flit to be sent again, else a new one of the messages that wait, else an
IDLE flit, which carries ACK and credits (R271, R273, R284). -/
def transmit (d : Dev) (h : Nat) : Dev :=
  if !d.carries h || d.devFatal then d else
  let l := d.link h
  if l.nakDue then (d.modLink h (fun l => { l with nakDue := false, nakOut := true })).putWire h 2 0 []
  else
    let sent := fun (d : Dev) => d.addPair (R.hlTxflitLo h) 1 (R.hlEvt h) F.hlEvt_flitsWrap
    match (if l.resend = 0 then none else l.replay[l.replay.length - l.resend]?) with
    | some f => sent ((d.modLink h (fun l => { l with resend := l.resend - 1 })).putWire h 1 f.seq f.payload)
    | none =>
      let e := if l.replay.length < 512 then pack 64 d h else d
      let part := (e.link h).txPart
      if part.isEmpty || 512 ≤ l.replay.length then d.putWire h 0 0 []
      else
        let pay := part.take 242
        let e := e.modLink h (fun l => { l with replay := l.replay ++ [⟨l.txSeq, pay⟩], txPart := l.txPart.drop 242, txSeq := (l.txSeq + 1) % 4096 })
        sent (e.putWire h 1 l.txSeq pay)

/-! ## Link states (Table 11-3) -/

/-- Sets a link's state. -/
def setLinkSt (d : Dev) (h st : Nat) : Dev := d.setFld (R.hlState h) F.hlState_state st
/-- Messages that wait on a link which no longer carries them go to another link of their route; link management is for that link
alone and goes no further. -/
def reroute (d : Dev) (h : Nat) : Dev :=
  let q := (d.link h).tx.filter (fun q => vcOf q.2.opc != some 4)
  q.foldl (fun d m => (d.send m.1 m.2).2) (d.modLink h (fun l => { l with tx := [] }))
/-- A link may train: a signal is there, it is not held down, not fenced. -/
def mayTrain (d : Dev) (h : Nat) : Bool := d.linkSt h == 0 && (d.link h).signal && !d.flag (R.hlCtrl h) F.hlCtrl_disable
/-- A DOWN link begins to train. -/
def train (d : Dev) (h : Nat) : Dev := if d.mayTrain h then d.setLinkSt h 1 else d
/-- A link enters RETRAIN (R276); the counts of its two conditions begin anew (log 79). -/
def retrain (d : Dev) (h : Nat) (lost : Bool) : Dev :=
  let d := (d.count (R.hlRetrainCnt h) (R.hlEvt h) F.hlEvt_retrainOvf).setFld (R.hlEvt h) F.hlEvt_retrain 1
  let d := d.setLinkSt h 4
  let d := if lost then d.setFld (R.hlState h) F.hlState_fecLock 0 else d
  (d.modLink h (fun l => { l with replays := [], uncorrs := [] })).raise ⟨0, 0x05, unitId 5 h, unitId 5 h, 6, 0#64, 1, false, false, none⟩
/-- An ACTIVE link meets one of the conditions of R276. -/
def retrainEnter (d : Dev) (h : Nat) (lost : Bool) : Dev :=
  let l := d.link h
  if d.linkSt h = 3 && (lost || 32 < (inMs d.now l.replays).length || 16 < (inMs d.now l.uncorrs).length) then d.retrain h lost else d
/-- A retrain has failed (R276, R277): the second in a row fences the link, and its unacknowledged flits are lost. -/
def retrainFail (d : Dev) (h : Nat) : Dev :=
  if d.linkSt h ≠ 4 then d
  else if (d.link h).fails = 0 then (d.modLink h (fun l => { l with fails := 1 })).retrain h false
  else
    let n := (d.link h).replay.length
    let d := d.fenceLink h
    let d := if n = 0 then d else (d.countN (R.hlDropCnt h) (R.hlEvt h) F.hlEvt_dropOvf n).setFld (R.hlEvt h) F.hlEvt_drop 1
    let d := (d.modLink h (fun l => { l with replay := [], resend := 0, txPart := [], fails := 0 })).reroute h
    d.raise ⟨0, 0x06, unitId 5 h, unitId 5 h, 6, 0#64, n, false, false, none⟩
/-- A retrain has succeeded (R277): what is not acknowledged is sent again. -/
def retrainDone (d : Dev) (h : Nat) : Dev :=
  if d.linkSt h ≠ 4 then d
  else ((d.setLinkSt h 3).setFld (R.hlState h) F.hlState_fecLock 1).modLink h (fun l => { l with fails := 0, resend := l.replay.length })
/-- Training ends with lock on all lanes (Table 11-3). -/
def trainDone (d : Dev) (h : Nat) : Dev :=
  if d.linkSt h = 1 then ((d.setLinkSt h 2).setFld (R.hlState h) F.hlState_fecLock 1).modLink h (fun l => { l with resend := l.replay.length }) else d
/-- A link goes DOWN without a fence: at DISABLE, or with no signal. -/
def linkDown (d : Dev) (h : Nat) : Dev :=
  if d.linkSt h = 5 then d
  else ((d.setFlds (R.hlState h) [(F.hlState_state, 0), (F.hlState_fecLock, 0), (F.hlState_peerValid, 0)]).modLink h (fun l => { l with peerRoot := none, peerAssigned := false, fails := 0 })).reroute h
/-- A write of HL_CTRL (R309). -/
def hlCtrlWrite (d : Dev) (h : Nat) (v : W32) : Dev :=
  let on := getF v F.hlCtrl_disable
  let d := d.setFld (R.hlCtrl h) F.hlCtrl_disable on
  if on = 1 then d.linkDown h else d.train h

end Dev

end Sys2Proof.Machine
end

