-- ==== Sys2Proof/Machine/HerdDir.lean ====
section
/-! DEFINITION. This device as a home: the requests of other nodes, the directory (R290 to R297), and lending (R299). -/
namespace Sys2Proof.Machine

namespace Dev

/-- Sends the reply to a request: opcode, status byte, data, POISON; CLAMPED as the request stands (R76, R280). -/
def reply (d : Dev) (m : Msg) (opc st : Nat) (data : List Byte) (poison : Bool) : Dev :=
  (d.send none ⟨opc, m.src, d.nodeId, m.tag, poison, m.clamped, BitVec.ofNat 64 st, data⟩).2
/-- A request as its home takes it (R76): clamped here by steps 2 and 3 of R74, and marked where it was. An RD or WR that lies beyond its
tier keeps its offset and its size: its words are clamped one by one as it is performed. -/
def arrive (d : Dev) (m : Msg) (redirect : Nat → Nat) (n : Nat) : Dev × Msg :=
  let r : Req := .remote m.src
  let a := mkAddr d.nodeId (addrTier m.addr) (addrOff m.addr)
  let p := d.clampSteps r false redirect a n
  let off := if m.opc = 1 || m.opc = 5 then addrOff a else p.off
  (d.noteClamps r p.kinds a, { m with addr := mkAddr p.node p.tier off, clamped := !p.kinds.isEmpty })
/-- Runs in the last line of z bytes for n bytes from a place beyond its end: each word at the word with the same low 7 bits (R74). -/
def tailRuns (z : Nat) : Nat → Nat → Nat → List (Nat × Nat)
  | 0, _, _ => []
  | f + 1, o, n => if n = 0 then [] else (z - 128 + o % 128, min n (128 - o % 128)) :: tailRuns z f (o + (128 - o % 128)) (n - min n (128 - o % 128))
/-- The runs of n bytes of a tier from a place: as they stand, or in its last line. -/
def homeRuns (d : Dev) (t o n : Nat) : List (Nat × Nat) := if o < d.tierSize t then [(o, n)] else tailRuns (d.tierSize t) 4 o n
/-- A line may be cached: tiers 1 and 2 (R290). -/
def cacheable (key : Nat) : Bool := key / 2 ^ 49 == 1 || key / 2 ^ 49 == 2
/-- The bytes of a line, and whether they are uncorrectable. -/
def lineBytes (d : Dev) (key : Nat) : List Byte × Bool := d.lread (key / 2 ^ 49) (key % 2 ^ 49) 128
/-- A new entry with one node. -/
def newEnt (d : Dev) (st node : Nat) : DirEnt := ⟨st, false, [node], [], 0, false, [], none, [], false, d.herd.lru, false⟩
/-- Marks an entry as just used (R291). -/
def usedEnt (d : Dev) (key : Nat) : Dev :=
  { d with herd := { d.herd with dir := Tab.modify d.herd.dir key (fun e => { e with used := d.herd.lru }), lru := d.herd.lru + 1 } }
/-- Entries in the set of a line: which of the 65,536 sets holds a line is not stated; bits [22:7] of the line choose (log 40). -/
def setOf (d : Dev) (key : Nat) : List (Nat × DirEnt) :=
  d.herd.dir.filter (fun e => dirDie e.1 == dirDie key && e.1 / 128 % 65536 == key / 128 % 65536)
/-- Puts a request behind a line. -/
def behind (d : Dev) (key : Nat) (w : DirWait) : Dev :=
  { d with herd := { d.herd with dir := Tab.modify d.herd.dir key (fun e => { e with queue := e.queue ++ [w] }) } }
/-- The least recently used entry of a full set that is not BUSY (R291). -/
def victim (d : Dev) (key : Nat) : Option (Nat × DirEnt) :=
  match (d.setOf key).filter (fun e => !e.2.busy) with
  | [] => none
  | e :: r => some (r.foldl (fun b x => if x.2.used < b.2.used then x else b) e)
/-- Evicts an entry (R291): its owner gets FWD_I, its sharers INV, and it is freed once they have answered, at once where no other node
holds the line. -/
def evictEnt (d : Dev) (v : Nat × DirEnt) (w : Option DirWait) : Dev :=
  (d.count (R.dirEvictCnt (dirDie v.1)) (R.dirEvt (dirDie v.1)) F.dirEvt_evictOvf).snoop v.1 { v.2 with evicting := true, serving := w } (d.sharers v.2) (if v.2.st = 2 then 0x32 else 0x30)
/-- Makes a node the sharer or owner of a line with no entry, and answers it. -/
def enterNow (d : Dev) (key st : Nat) (w : DirWait) : Dev :=
  let b := d.lineBytes key
  ((d.putDir key (d.newEnt st w.msg.src)).usedEnt key).reply w.msg (if st = 1 then 0x21 else 0x22) 0 b.1 b.2
/-- A request that finds its set full waits until an entry is evicted. -/
def evictFor (d : Dev) (key st : Nat) (w : DirWait) : Dev :=
  match d.victim key with
  | none => match d.setOf key with
    | e :: _ => d.behind e.1 w
    | [] => d
  | some v => if (d.sharers v.2).isEmpty then (d.evictEnt v none).enterNow key st w else d.evictEnt v (some w)
/-- Enters the first request for a line: behind an earlier one that waits for room, and with room made where the set is full. -/
def enter (d : Dev) (key st : Nat) (w : DirWait) : Dev :=
  match d.roomHolder key with
  | some v => d.behind v w
  | none => if 16 ≤ (d.setOf key).length then d.evictFor key st w else d.enterNow key st w
/-- Makes room in the set of a line for a cache of this device (R291), unless room is being made. -/
def freeWay (d : Dev) (key : Nat) : Dev :=
  if (d.setOf key).any (fun e => e.2.busy && e.2.evicting) then d else
  match d.victim key with
  | none => d
  | some v => d.evictEnt v none
/-- A line has no entry and its set no room for one. -/
def noRoom (d : Dev) (key : Nat) : Bool := (d.dirEnt key).isNone && decide (16 ≤ (d.setOf key).length)
/-- A cache on a die of this device has filled lines, as their entries stood before (R290, R293): with a read it shares them, with a
write it owns them. -/
def cacheHere (old : Dev) (die : Nat) (wr : Bool) (keys : List Nat) (d : Dev) : Dev :=
  keys.foldl (fun d k =>
    let me := 2 ^ die
    let e := match old.dirEnt k with
      | none => { d.newEnt (if wr then 2 else 1) 0 with nodes := [], loc := me }
      | some e =>
        if wr then { e with st := 2, coarse := false, nodes := [], groups := [], loc := me }
        else if e.st = 2 && e.loc = me then e
        else { e with st := 1, loc := e.loc ||| me }
    (d.putDir k e).usedEnt k) d
/-- Records one more sharer (R294): the fifth makes the entry coarse. -/
def addSharer (d : Dev) (key n : Nat) (e : DirEnt) : Dev :=
  if e.coarse then d.putDir key { e with groups := if e.groups.contains (n / 64) then e.groups else (n / 64) :: e.groups }
  else if e.nodes.contains n then d
  else if e.nodes.length < 4 then d.putDir key { e with nodes := e.nodes ++ [n] }
  else
    let die := dirDie key
    (d.putDir key { e with coarse := true, nodes := [], groups := ((n :: e.nodes).map (· / 64)).eraseDups }).count (R.dirCoarseCnt die) (R.dirEvt die) F.dirEvt_coarseOvf

/-- The new word and the old one of an atomic message (Table 11-5). -/
def amoMsg (old : Nat) (data : List Byte) : Nat :=
  let f := leVal ((data.drop 16).take 1) % 16
  let v := leVal (data.take 8)
  let c := leVal ((data.drop 8).take 8)
  if f = 9 then (if old = c then v else old) else if 10 ≤ f then old else amoVal f 8 old v
/-- Performs an uncached access whose lines are free, and answers it (R293). -/
def perform (d : Dev) (m : Msg) : Dev :=
  let t := addrTier m.addr
  let o := addrOff m.addr
  match m.opc with
  | 1 =>
    let lo := alignDown o 16
    let n := min (16 * (o % 16 + 1)) (256 - lo % 256)
    let rs := d.homeRuns t lo n
    (rs.foldl (fun d r => d.lmeet (unitId 7 (dieOf t r.1)) t r.1 r.2) d).reply m 0x20 0 (rs.flatMap (fun r => (d.lread t r.1 r.2).1)) (rs.any (fun r => (d.lread t r.1 r.2).2))
  | 5 =>
    if (d.resolve t (alignDown o 16)).1 = 3 && d.ftl.retired then d.reply m 0x23 0x58 [] false else
    let lo := alignDown o 16
    let d := if lo < d.tierSize t then d.lwrite t lo m.data
      else
        let r := d.lastOrder (d.tierSize t) (lo + ·) (List.range m.data.length)
        r.1.foldl (fun d i => d.lwrite t (lastLine (d.tierSize t) (lo + i)) [m.data.getD i 0#8]) r.2
    let d := if m.poison then (d.homeRuns t lo m.data.length).foldl (fun d r =>
      let q := d.resolve t r.1
      if q.1 ≤ 2 then d.poisonRange (memKey q.1 q.2) r.2 else d) d else d
    d.reply m 0x23 0 [] false
  | 6 =>
    let mask := leVal (m.data.take 2)
    let lo := alignDown o 16
    let d := (List.range 16).foldl (fun d i => if mask.testBit i then d.lwrite t (lo + i) [m.data.getD (16 + i) 0#8] else d) d
    let q := d.resolve t lo
    (if m.poison && q.1 ≤ 2 then d.poisonRange (memKey q.1 q.2) 16 else d).reply m 0x23 0 [] false
  | 8 =>
    let lo := alignDown o 8
    let b := d.lread t lo 8
    if b.2 then d.reply m 0x20 0 (List.replicate 16 0#8) true
    else
      let d := d.lwrite t lo (leBytes 8 (amoMsg (leVal b.1) m.data))
      d.reply m 0x20 0 (b.1 ++ List.replicate 8 0#8) false
  | _ => d
/-- Bytes of a request's range. -/
def reqRange (m : Msg) : Nat × Nat :=
  let o := addrOff m.addr
  match m.opc with
  | 1 => (alignDown o 16, min (16 * (o % 16 + 1)) (256 - alignDown o 16 % 256))
  | 5 => (alignDown o 16, m.data.length)
  | 6 => (alignDown o 16, 16)
  | _ => (alignDown o 8, 8)

/-- Coarse entries whose only nodes left to ask are a writer itself are gone with its write: it is not asked (R294). -/
def forgetMine (d : Dev) (src : Nat) (keys : List Nat) : Dev :=
  keys.foldl (fun d k => match d.dirEnt k with
    | some e => if e.coarse && !e.busy && ((d.sharers e).filter (· ≠ src)).isEmpty then d.delDir k else d
    | none => d) d
/-- Serves a request for one or two lines (Table 11-9): performs it, or makes it wait at a line. -/
def serve (d : Dev) (w : DirWait) : Dev :=
  let m := w.msg
  let key := d.lineKey m.addr
  match m.opc with
  | 2 =>
    if !cacheable key then d.reply m 0x21 0 (d.lineBytes key).1 (d.lineBytes key).2 else
    match d.dirEnt key with
    | none => d.enter key 1 w
    | some e =>
      if e.busy then d.behind key w
      else if e.st = 2 && !e.nodes.isEmpty then d.snoop key { e with serving := some w } e.nodes 0x31
      else
        let b := d.lineBytes key
        ((d.addSharer key m.src { e with st := 1 }).usedEnt key).reply m 0x21 0 b.1 b.2
  | 3 | 4 =>
    if !cacheable key then d.reply m 0x22 0 (d.lineBytes key).1 (d.lineBytes key).2 else
    match d.dirEnt key with
    | none => d.enter key 2 w
    | some e =>
      if e.busy then d.behind key w
      else if e.st = 2 && e.nodes.contains m.src then d.reply m 0x22 0 (d.lineBytes key).1 (d.lineBytes key).2
      else if e.st = 2 && !e.nodes.isEmpty then d.snoop key { e with serving := some w } e.nodes 0x32
      else
        let others := (d.sharers e).filter (· ≠ m.src)
        if others.isEmpty then
          let b := d.lineBytes key
          let e' := { e with st := 2, coarse := false, nodes := [m.src], groups := [], loc := 0 }
          if !e.coarse && e.nodes.contains m.src then ((d.putDir key e').usedEnt key).reply m 0x24 0 [] false
          else ((d.putDir key e').usedEnt key).reply m 0x22 0 b.1 b.2
        else d.snoop key { e with serving := some w } others 0x30
  | 9 =>
    match d.dirEnt key with
    | none => d
    | some e =>
      if e.busy then d.behind key w
      else if e.st ≠ 1 || e.coarse then d
      else if e.nodes.all (· == m.src) && e.loc = 0 then d.delDir key
      else d.putDir key { e with nodes := e.nodes.filter (· ≠ m.src) }
  | _ =>
    let wr := m.opc != 1
    let r := reqRange m
    let held := fun (d : Dev) => (d.homeRuns (addrTier m.addr) r.1 r.2).flatMap (fun r => d.lholds (addrTier m.addr) r.1 r.2 wr)
    let d := if wr then d.forgetMine m.src (held d) else d
    match held d with
    | [] => d.perform m
    | k :: _ => match d.dirEnt k with
      | none => match d.roomHolder k with
        | some v => d.behind v w
        | none => d
      | some e =>
        if e.busy then d.behind k w
        else d.snoop k { e with serving := some w } (if wr && e.coarse then (d.sharers e).filter (· ≠ m.src) else d.sharers e) (if e.st = 2 then (if wr then 0x32 else 0x31) else 0x30)
/-- The last reply about a line has come: what waited is served in order (R292). -/
def dirDone (d : Dev) (key : Nat) : Dev :=
  match d.dirEnt key with
  | none => d
  | some e =>
    let l := e.serving.toList ++ e.queue
    let d := if e.evicting || e.drop || (e.nodes.isEmpty && e.loc = 0) then d.delDir key else d.putDir key { e with busy := false, serving := none, queue := [], evicting := false, drop := false }
    l.foldl (fun d w => d.serve w) d
/-- A node has answered about a line; drop is true where it holds the line no longer. An INV in coarse mode leaves none. -/
def dirAck (d : Dev) (key node : Nat) (drop : Bool) : Dev :=
  match d.dirEnt key with
  | none => d
  | some e =>
    if !e.busy || !e.await.contains node then d else
    let e := { e with await := e.await.filter (· ≠ node), nodes := if drop then e.nodes.filter (· ≠ node) else e.nodes, st := if drop then e.st else 1 }
    let e := if drop && e.await.isEmpty then { e with coarse := false, groups := [] } else e
    let d := d.putDir key e
    if e.await.isEmpty then d.dirDone key else d
/-- Takes the SNP message that a reply answers off the list. -/
def takeSnp (d : Dev) (m : Msg) : Option (Snp × Dev) :=
  (d.herd.snps.find? (fun s => s.node == m.src && s.tag == m.tag)).map (fun s => (s, { d with herd := { d.herd with snps := d.herd.snps.filter (fun t => !(t.node == m.src && t.tag == m.tag)) } }))
/-- Writes a returned line to memory, as it came (R293); one that has been set to 0 since stays so (R244). -/
def lineBack (d : Dev) (key : Nat) (m : Msg) : Dev :=
  if ((d.dirEnt key).map (·.drop)).getD false then d else
  let d := d.lwrite (key / 2 ^ 49) (key % 2 ^ 49) m.data
  let q := d.resolve (key / 2 ^ 49) (key % 2 ^ 49)
  if m.poison && q.1 ≤ 2 then d.poisonRange (memKey q.1 q.2) 128 else d
/-- A reply that matches no request (R280): discarded and counted by the die that its TAG names. -/
def late (d : Dev) (die : Nat) : Dev := d.count (R.dirLateCnt die) (R.dirEvt die) F.dirEvt_lateOvf
/-- FWD_DATA (R293, R295). -/
def fwdData (d : Dev) (m : Msg) : Dev :=
  match d.takeSnp m with
  | none =>
    -- the one that a WB overtook is ignored (R295)
    if m.data.isEmpty && d.herd.raced.contains (m.src, m.tag) then { d with herd := { d.herd with raced := d.herd.raced.filter (· != (m.src, m.tag)) } }
    else d.late (m.tag / 32768)
  | some (s, d) =>
    if m.data.isEmpty then d.dirAck s.line m.src true
    else
      match d.dirEnt s.line with
      | none => d
      | some e =>
        -- an RD_OWN that waits gets the line itself
        match s.opc, e.serving, e.evicting with
        | 0x32, some w, false =>
          if (w.msg.opc = 3 || w.msg.opc = 4) && !e.drop then
            let d := (d.putDir s.line { e with st := 2, nodes := [w.msg.src], busy := false, await := [], serving := none }).reply w.msg 0x22 0 m.data m.poison
            let d := d.usedEnt s.line
            e.queue.foldl (fun d q => d.serve q) (d.putDir s.line { e with st := 2, nodes := [w.msg.src], busy := false, await := [], serving := none, queue := [], used := d.herd.lru })
          else (d.lineBack s.line m).dirAck s.line m.src true
        | 0x32, _, _ => (d.lineBack s.line m).dirAck s.line m.src true
        | _, _, _ =>
          -- a line that has been set to 0 meanwhile leaves its owner too (R244)
          if e.drop then (d.snoop s.line { e with drop := false } [m.src] 0x30) else (d.lineBack s.line m).dirAck s.line m.src false
/-- WB (R292, R295): from the owner it is taken at once; it stands for the data of a forward on its way. -/
def writeBack (d : Dev) (m : Msg) : Dev :=
  let key := d.lineKey m.addr
  let ok := fun (d : Dev) => d.reply m 0x23 0 [] false
  match d.dirEnt key with
  | none => ok d
  | some e =>
    if e.st ≠ 2 || !e.nodes.contains m.src then ok d
    else if e.busy && e.await.contains m.src then
      let mine := fun (s : Snp) => s.node == m.src && s.line == key
      let d := ok { d with herd := { d.herd with snps := d.herd.snps.filter (fun s => !mine s), raced := d.herd.raced ++ (d.herd.snps.filter mine).map (fun s => (s.node, s.tag)) } }
      match e.serving with
      | some w =>
        if (w.msg.opc = 3 || w.msg.opc = 4) && !e.evicting && !e.drop then
          let d := (d.putDir key { e with st := 2, nodes := [w.msg.src], busy := false, await := [], serving := none, queue := [] }).reply w.msg 0x22 0 m.data m.poison
          e.queue.foldl (fun d q => d.serve q) d
        else (d.lineBack key m).dirAck key m.src true
      | none => (d.lineBack key m).dirAck key m.src true
    else ok ((d.lineBack key m).delDir key)
/-- Sends an unanswered SNP message again on another link of the route, where there is one (R296). -/
def snpResend (d : Dev) (n : Nat) (a : W64) : Dev :=
  let key := d.lineKey a
  match d.herd.snps.find? (fun s => s.node == n && s.line == key && !s.resent) with
  | none => d
  | some s =>
    let m : Msg := ⟨s.opc, n, d.nodeId, s.tag, false, false, d.lineAddr key, []⟩
    let d : Dev := { d with herd := { d.herd with snps := d.herd.snps.map (fun t => if t.node = n && t.line = key then { t with resent := true } else t) } }
    match (d.routeLinks n).find? (fun h => some h != d.pickLink m) with
    | some h => (d.count (R.dirInvCnt (dirDie key)) (R.dirEvt (dirDie key)) F.dirEvt_invOvf).pushTx h none m
    | none => d
/-- Cuts a node off (R296): it is no longer a sharer or owner of any line. -/
def cutOff (d : Dev) (n : Nat) (a : W64) : Dev :=
  let key := d.lineKey a
  if !d.herd.snps.any (fun s => s.node == n && s.line == key) then d else
  let die := dirDie key
  let d := (d.count (R.dirCutCnt die) (R.dirEvt die) F.dirEvt_cutOvf).setFld (R.dirEvt die) F.dirEvt_cut 1
  let d := if d.flag (R.dirCutInfo die) F.dirCutInfo_valid then d else d.setFlds (R.dirCutInfo die) [(F.dirCutInfo_valid, 1), (F.dirCutInfo_node, n)]
  let d : Dev := { d with herd := { d.herd with cut := n :: d.herd.cut, snps := d.herd.snps.filter (fun s => s.node != n), raced := d.herd.raced.filter (fun r => r.1 != n) } }
  let keys := (d.herd.dir.filter (fun e => e.2.nodes.contains n || e.2.await.contains n)).map (·.1)
  keys.foldl (fun d k => match d.dirEnt k with
    | none => d
    | some e =>
      if e.busy && e.await.contains n then d.dirAck k n true
      else if e.nodes.all (· == n) && !e.busy && e.loc = 0 then d.delDir k
      else d.putDir k { e with nodes := e.nodes.filter (· ≠ n) }) d

/-! ## Lending (R255, R256, R299) -/

/-- 1 GiB-aligned ranges of a tier that could be lent. -/
def lendable (d : Dev) (t : Nat) : List Nat := ((List.range (d.tierSize t / 2 ^ 30)).map (· * 2 ^ 30)).filter (fun o => d.rangeFree t o (2 ^ 30))
/-- LEND_REQ at a lender: whether it lends, and what, is the run-time's policy, which is not stated: a free choice (log 39). -/
def lend (d : Dev) (m : Msg) : Dev :=
  let grant := fun (d : Dev) (st t off : Nat) => d.reply m 0x28 st (leBytes 8 t ++ leBytes 8 off) false
  let (t, d) := d.choose 3
  let l := if t = 0 then [] else d.lendable t
  if l.isEmpty || 262144 ≤ d.tier.objs.length then grant d 3 0 0 else
  let (i, d) := d.choose l.length
  let b := l.getD i 0
  let (o, d) := d.placeObj (newObj 16 t b (2 ^ 30) 0 false 0 0#64 .lent 1)
  grant { d with herd := { d.herd with lentTo := Tab.put d.herd.lentTo o m.src } } 0 t b
/-- LEND_FREE at a lender: the range is its own again. -/
def lendFreed (d : Dev) (m : Msg) : Dev :=
  let o := d.objAt (addrTier m.addr) (addrOff m.addr)
  let d := match o with
    | some (i, _) => if Tab.find d.herd.lentTo i = some m.src then ({ d with herd := { d.herd with lentTo := Tab.del d.herd.lentTo i } } : Dev).freeObj i else d
    | none => d
  d.reply m 0x23 0 [] false
/-- Moves every object of a segment to tier 3 (R256 step 2). -/
def emptySeg (d : Dev) (i : Nat) : Dev :=
  let l := (d.tier.objs.filter (fun o => o.2.tier == 5 && o.2.base < (i + 1) * 2 ^ 30 && i * 2 ^ 30 < o.2.base + o.2.size)).map (·.1)
  (l.foldl (fun d o => d.moveObj o 3 .none 0) d).segsLeave
/-- Asks one more node to lend in place of a segment that is recalled (R256), which one is a free choice; with none left to ask the
segment's objects leave. -/
def askNext (d : Dev) (i : Nat) : Dev :=
  match Tab.find d.tier.segs i with
  | none => d
  | some g =>
    let ns := (Tab.keys d.herd.routes).filter (fun n => n ≠ d.nodeId && n ≠ g.node && !g.asked.contains n && !(d.routeLinks n).isEmpty)
    if ns.isEmpty then d.emptySeg i else
    let (j, d) := d.choose ns.length
    match d.request 0 none 0x0A (mkAddr (ns.getD j 0) 0 0) [] (.lend i) with
    | .sent _ d => { d with tier := { d.tier with segs := Tab.put d.tier.segs i { g with asked := ns.getD j 0 :: g.asked } } }
    | .wait => d.emptySeg i
    | .no d => d.emptySeg i
/-- RECALL at the borrower (R256): acknowledged at once; another lender is asked, or the segment's objects leave. -/
def recalled (d : Dev) (m : Msg) : Dev :=
  let d := d.reply m 0x23 0 [] false
  match d.tier.segs.find? (fun s => s.2.node == m.src && s.2.tier == addrTier m.addr && s.2.offset == alignDown (addrOff m.addr) (2 ^ 30) && !s.2.leaving) with
  | none => d
  | some (i, g) =>
    let d : Dev := { d with tier := { d.tier with segs := Tab.put d.tier.segs i { g with leaving := true } } }
    d.askNext i
/-- LEND_GRANT at the borrower (R255, R256, R299). -/
def granted (d : Dev) (i : Nat) (m : Msg) : Dev :=
  let old := Tab.find d.tier.segs i
  if bits64 m.addr 0 8 = 0 then
    let g : Seg := ⟨m.src, leVal (m.data.take 1) % 8, leVal ((m.data.drop 8).take 8), false, false, []⟩
    let d := ({ d with tier := { d.tier with segs := Tab.put d.tier.segs i g } } : Dev).winSize
    (match old with | some o => if o.gone then d else d.sendFree o | none => d).retryWaits
  else match old with
    | some o => if o.leaving then d.askNext i else d
    | none => d
/-- A lender can be reached no longer (R257): the objects in its segments are lost, accesses to them have no reply, segments without
objects are unmapped. -/
def lenderGone (d : Dev) (n : Nat) : Dev :=
  let segs := (d.tier.segs.filter (fun s => s.2.node == n)).map (·.1)
  let hit := fun (o : Obj) => o.tier == 5 && segs.any (fun i => o.base < (i + 1) * 2 ^ 30 && i * 2 ^ 30 < o.base + o.size)
  let d : Dev := { d with tier := { d.tier with objs := d.tier.objs.map (fun o => if hit o.2 then (o.1, { o.2 with lost := true }) else o) } }
  ({ d with tier := { d.tier with segs := d.tier.segs.map (fun s => if s.2.node = n then (s.1, { s.2 with gone := true }) else s) } } : Dev).segsLeave

end Dev

end Sys2Proof.Machine
end

