-- ==== Sys2Proof/Machine/HerdReply.lean ====
section
/-! DEFINITION. Replies to this device's own requests (R76, R143, R210, R280), their timeouts (R143, R297), reply slots of saved
contexts (R234), and its cached lines of other nodes (R290, R293). -/
namespace Sys2Proof.Machine

namespace Dev

/-- A clamp that a reply reports (R76): counted for the instruction at an address. -/
def clampReply (d : Dev) (c : Nat) (pc a : W64) (on : Bool) : Dev :=
  if on then (d.modCtx c (fun x => x.clampAt pc 1)).addrClamp (.ctx c) 2 a else d
/-- An instruction that waited for a reply completes: the context goes on behind it. -/
def remoteOver (d : Dev) (c : Nat) : Dev :=
  match d.ctx? c with
  | none => d
  | some x => match x.wait with
    | .remote _ n => (d.modCtx c (fun x => { x.setPc n with wait := .none })).trapNow c
    | _ => d
/-- Makes a context wait under R225 behind the instruction it has executed. -/
def blockCtx (d : Dev) (c : Nat) (w : Wait) (next : W64) : Dev :=
  d.modCtx c (fun x => { x.setPc next with wait := w, st := if x.st = .running then .residentBlocked else x.st, woke := false, blockedAt := d.now })
/-- FAB.AMO ends with the old value, or with a status (Table 05-12). -/
def amoDone (d : Dev) (c : Nat) (w : W64) (cl : Bool) (st old : Nat) : Dev :=
  match d.ctx? c with
  | none => d
  | some x =>
    let sd := bits64 w 32 5
    let failed := bits64 w 0 4 == 9 && (x.s sd).toNat != old
    let st' := if st ≠ 0 then st else if failed then 0x1A else 0
    let d := if st = 0 then d.modCtx c (fun x => x.setS sd (BitVec.ofNat 64 old)) else d
    d.putStatus c (bits64 w 27 5) st' (b2n cl) 0

/-- Marks a reply slot of a saved context (Table 09-3 step 7). -/
def slotMark (d : Dev) (c tag : Nat) (got : Option (List Byte)) : Dev :=
  d.modCtx c (fun x => { x with slots := x.slots.map (fun s => if s.tag = tag then { s with got := got, timedOut := got.isNone } else s) })
/-- A part of a beat has been answered. -/
def beatGot (b : Beat) (tag : Nat) (part : Option (Nat × List Byte)) (bad : Bool) : Beat :=
  if b.tags.contains tag then { b with tags := b.tags.filter (· ≠ tag), bad := b.bad || bad, got := match part with | some p => b.got ++ [p] | none => b.got } else b
/-- The reply to a part of a beat reaches the beat, in flight on a core or saved with its context. -/
def beatReply (d : Dev) (c tag : Nat) (part : Option (Nat × List Byte)) (bad : Bool) : Dev :=
  match d.ctx? c with
  | none => d
  | some x =>
    let f := fun (b : Beat) => if b.ctx = c then beatGot b tag part bad else b
    let d := if x.beats.isEmpty then d else d.modCtx c (fun x => { x with beats := x.beats.map f })
    if d.isRes c x then d.modCore x.core (fun y => { y with inflight := y.inflight.map f }) else d
/-- A clamped reply of a transfer: its one clamp for the reply side (R76, R111). -/
def xferClamped (d : Dev) (c xid : Nat) (on : Bool) : Dev :=
  match (d.ctx? c).bind (fun x => x.xfers.find? (·.id == xid)) with
  | none => d
  | some t => if on && !t.rcl then ((d.clampReply c t.pc t.far.base true).modXfer c xid (fun t => { t with rcl := true, clamped := true })).trapNow c else d

/-- Fills a cached line of another node. -/
def fillLine (d : Dev) (a : W64) (st : Nat) (l : List Byte) : Dev :=
  { d with herd := { d.herd with cache := Tab.put d.herd.cache (farLine a) ⟨st, l, false⟩ } }
/-- Makes a copy of another node's line: shared lines can be upgraded in place. -/
def ownLine (d : Dev) (a : W64) : Dev :=
  { d with herd := { d.herd with cache := Tab.modify d.herd.cache (farLine a) (fun l => { l with st := 2 }) } }
/-- The reservation key of a line of another node. -/
def farResv (a : W64) : Nat := 2 ^ 60 + farLine a
/-- Drops every cached line of a node (R297). -/
def dropNode (d : Dev) (n : Nat) : Dev :=
  let ks := (d.herd.cache.filter (fun l => l.1 / 2 ^ 45 == n)).map (·.1)
  ks.foldl (fun d k => d.dropFar k) d

/-- What an access gives its requester: the value and the CLAMPED flag (R75). -/
def gives (d : Dev) (v : W64) (cl : Bool) : Dev := { d with rdata := v, rflags := b2n cl, rstatus := 0 }
/-- The flag byte that an access without a value gives its requester. -/
def flags (d : Dev) (n : Nat) : Dev := { d with rflags := n, rstatus := 0 }
/-- The bytes of a Chamois atomic on a word that no cache holds: the new word for an old one (R106). -/
def chamAmoWord (f w lo old : Nat) (v : W64) : Nat :=
  let part := old / 2 ^ (8 * lo) % 2 ^ (8 * w)
  old - part * 2 ^ (8 * lo) + amoVal f w part v.toNat * 2 ^ (8 * lo)
/-- A reply to such an atomic: an atomic of the whole word is answered with the old value; one of half a word was read first,
and is then sent as compare and swap until it finds what it read. -/
def chamAmoNext (d : Dev) (n f w lo : Nat) (v : W64) (old : Option Nat) (a : W64) (m : Msg) : Dev :=
  if m.poison then { d with chamExc := Tab.put d.chamExc n 7 } else
  let d := if m.clamped then d.addrClamp (.cham n) 2 a else d
  let got := leVal (m.data.take 8)
  if w = 8 || old = some got then d.gives (BitVec.ofNat 64 (got / 2 ^ (8 * lo) % 2 ^ (8 * w))) m.clamped
  else
    match d.request (n / 16) ((Req.cham n).part d) 8 a (leBytes 8 (chamAmoWord f w lo got v) ++ leBytes 8 got ++ leBytes 16 9) (.chamAmo n f w lo v (some got)) with
    | .sent _ d => d
    | _ => { d with chamExc := Tab.put d.chamExc n 7 }

/-- The comparison of SYN.WAITM (Table 05-5). -/
def waitCmp (k : Nat) (v b : W64) : Bool :=
  match k with
  | 1 => v != b
  | 2 => decide (b.toNat ≤ v.toNat)
  | 3 => decide (v.toNat < b.toNat)
  | 4 => decide (b.toInt ≤ v.toInt)
  | 5 => decide (v.toInt < b.toInt)
  | _ => v == b
/-- The word that a context watches reads as v (R132, R226): a blocked context wakes where the comparison holds, and goes on where
it executes; one that executes and finds it false blocks again. -/
def watched (d : Dev) (c : Nat) (v : W64) : Dev :=
  match d.ctx? c with
  | none => d
  | some x => match x.wait with
    | .word _ k b =>
      if waitCmp k v b then
        let d := d.wake c
        match d.ctx? c with
        | some y => if y.st = .running then (d.modCtx c (fun y => { y with wait := .none })).trapNow c else d
        | none => d
      else if x.st = .running then d.modCtx c (fun x => { x with st := .residentBlocked, blockedAt := d.now }) else d
    | _ => d

/-- Takes an answered request off the list; no fence waits for it any more (R283). -/
def outDel (d : Dev) (tag : Nat) : Dev :=
  { d with herd := { d.herd with outs := Tab.del d.herd.outs tag, fences := d.herd.fences.filter (fun f => f.2 != tag) } }
/-- What a reply does for the request it answers (Table 05-11, Table 05-12, R143, R210). -/
def answered (d : Dev) (tag : Nat) (o : OutReq) (m : Msg) : Dev :=
  let own := fun (c : Nat) => (d.ctx? c).map (·.arch.pc) |>.getD 0#64
  match o.kind with
  | .load c sd width off =>
    if m.poison then d.abortTask c 0 0 o.addr
    else ((d.clampReply c (own c) o.addr m.clamped).modCtx c (fun x => x.setS sd (BitVec.ofNat 64 (leVal ((m.data.drop off).take width))))).remoteOver c
  | .store c pc => (d.clampReply c pc o.addr m.clamped).trapNow c
  | .amo c w cl =>
    if m.poison then d.abortTask c 0 0 o.addr
    else ((d.clampReply c (own c) o.addr m.clamped).amoDone c w (cl || m.clamped) 0 (leVal (m.data.take 8))).remoteOver c
  | .tdld c td off w n =>
    if m.poison then d.abortTask c 0 0 o.addr
    else
      let d := (d.clampReply c (own c) o.addr m.clamped).modCtx c (fun x => (List.range n).foldl (fun x i => x.setTdw td (w + i) (BitVec.ofNat 64 (leVal ((m.data.drop (off + 8 * i)).take 8)))) x)
      if d.herd.outs.any (fun q => match q.2.kind with | .tdld c' _ _ _ _ => c' == c | _ => false) then d else d.remoteOver c
  | .poll c off pc =>
    let note := fun (d : Dev) => match pc with | some a => d.clampReply c a o.addr m.clamped | none => d
    if m.poison then d.abortTask c 0 0 o.addr
    else if m.opc = 0x21 then note (d.fillLine o.addr 1 m.data)
    else (note d).watched c (BitVec.ofNat 64 (leVal ((m.data.drop off).take 8)))
  | .bar c w =>
    if m.poison then d.abortTask c 0 0 o.addr
    else
      let d := d.clampReply c (own c) o.addr m.clamped
      match (d.ctx? c) with
      | none => d
      | some x => match x.wait with
        | .remote _ n => d.blockCtx c (.word o.addr 2 (x.s (bits64 w 27 5))) n
        | _ => d
  | .beat c xid lo n off => (d.beatReply c tag (some (lo, (m.data.drop off).take n)) m.poison).xferClamped c xid m.clamped
  | .beatSt c xid =>
    let st := bits64 m.addr 0 8
    let d := if st = 0 then d else d.modCtx c (fun x => { x with xfers := x.xfers.map (fun t => if t.id = xid && t.status = 0 then { t with status := st } else t) })
    (d.beatReply c tag none false).xferClamped c xid m.clamped
  | .putNotify c xid => if m.poison then d.abortTask c 0 2 o.addr else d.xferClamped c xid m.clamped
  | .chamLine n own' =>
    if m.poison then { d with chamExc := Tab.put d.chamExc n (if own' then 7 else 5) }
    else if m.opc = 0x24 then d.ownLine o.addr
    else d.fillLine o.addr (if m.opc = 0x22 then 2 else 1) m.data
  | .chamRd n off w =>
    if m.poison then { d with chamExc := Tab.put d.chamExc n 5 }
    else (if m.clamped then d.addrClamp (.cham n) 2 o.addr else d).gives (BitVec.ofNat 64 (leVal ((m.data.drop off).take w))) m.clamped
  | .chamSt n => if m.clamped then (d.addrClamp (.cham n) 2 o.addr).flags (b2n m.clamped) else d
  | .chamAmo n f w lo v old => d.chamAmoNext n f w lo v old o.addr m
  | .lend i => d.granted i m
  | .fetch c use =>
    let d' := d.putFetched ⟨c, use, o.addr - 7#64, m.data⟩
    match c with
    | none => d'
    | some c =>
      if m.poison then d.abortTask c 0 0 o.addr
      else (d'.clampReply c (if use = 0 then own c else ((Tab.find d.search.jobs (use - 1)).map (·.pc)).getD 0#64) o.addr m.clamped).trapNow c
  | .receipts _ _ | .wb | .lendFree | .recall _ | .cancelled _ | .post _ | .other => d
/-- A reply arrives for this device (R280): matched by SRC and TAG. -/
def replyIn (d : Dev) (m : Msg) : Dev :=
  match Tab.find d.herd.outs m.tag with
  | none => d.late (m.tag / 32768)
  | some o =>
    if o.node ≠ m.src then d.late (m.tag / 32768) else
    let d := (d.outDel m.tag).answered m.tag o m
    match o.kind with
    | .post i => postGo 6 d i
    | .load c _ _ _ | .store c _ | .amo c _ _ | .tdld c _ _ _ _ | .bar c _ | .poll c _ _ | .beat c _ _ _ _ | .beatSt c _ | .putNotify c _ | .cancelled c =>
      (d.slotMark c m.tag (some m.data)).replyWaitEnd c
    | _ => d

/-- What a request's timeout does (R143, R210, Table 17-3). -/
def expired (d : Dev) (tag : Nat) (o : OutReq) : Dev :=
  let gone := fun (c eng : Nat) => match d.ctx? c with
    | none => d
    | some x => if d.isRes c x then d.abortTask c 1 eng o.addr else (d.slotMark c tag none).replyWaitEnd c
  match o.kind with
  | .load c _ _ _ | .store c _ | .tdld c _ _ _ _ | .bar c _ | .poll c _ _ => gone c 0
  | .amo c w cl =>
    if bit64 w 7 then ((d.amoDone c w cl 4 0).remoteOver c).slotMark c tag (some []) |>.replyWaitEnd c else gone c 0
  | .beat c xid _ _ _ | .beatSt c xid | .putNotify c xid =>
    match (d.ctx? c).bind (fun x => x.xfers.find? (·.id == xid)) with
    | none => d
    | some t => if t.kind = .put && t.noabort && ((d.ctx? c).map (fun x => d.isRes c x)).getD false then d.xferFail c xid 4 else gone c t.eng
  | .chamLine n own => { d with chamExc := Tab.put d.chamExc n (if own then 7 else 5) }
  | .chamRd n _ _ => { d with chamExc := Tab.put d.chamExc n 5 }
  | .chamSt n | .chamAmo n _ _ _ _ _ => { d with chamExc := Tab.put d.chamExc n 7 }
  | .receipts c id =>
    match (d.ctx? c).bind (fun x => x.xfers.find? (·.id == id)) with
    | none => d
    | some t =>
      -- what still comes for the tokens of the send is late (R306), and their room is free
      let mine := fun (q : TokOut) => q.ctx == c && q.send == id
      let free := ((d.herd.tokOut.filter (fun q => mine q && q.st != 2)).map (fun q => 16 + q.bytes)).foldl (· + ·) 0
      let d : Dev := { d with herd := { d.herd with tokOut := d.herd.tokOut.filter (fun q => !mine q), inboxes := Tab.modify d.herd.inboxes c (fun b => { b with used := b.used - free }) } }
      if t.noabort then d.modXfer c id (fun t => { t with status := 4 }) else d.abortTask c 1 t.eng o.addr
  | .cancelled c => d.replyWaitEnd c
  | .post i => postGo 6 d i
  | .fetch c use =>
    match c with
    | none => d.putFree none use (o.addr - 7#64)
    | some c => if ((d.ctx? c).map (fun x => d.isRes c x)).getD false then d.abortTask c 1 0 o.addr else d
  | .lend i => if ((Tab.find d.tier.segs i).map (·.leaving)).getD false then d.askNext i else d
  | .wb | .lendFree | .recall _ | .other => d
/-- A request has had no reply for 20 µs (R280, R297): its TAG is guarded, the cached lines of its home are dropped. -/
def timeout (d : Dev) (tag : Nat) : Dev :=
  match Tab.find d.herd.outs tag with
  | none => d
  | some o =>
    let d := (d.outDel tag).dropNode o.node
    let d : Dev := { d with herd := { d.herd with guarded := if d.herd.guarded.contains tag then d.herd.guarded else d.herd.guarded ++ [tag] } }
    d.expired tag o
/-- A reply slot of a saved context is settled (Table 09-3 step 7). -/
def slotLand (d : Dev) (c i : Nat) (good : Bool) (e : List Byte) : Dev :=
  match d.ctx? c with
  | none => d
  | some x =>
    match x.slots[i]? with
    | none => d
    | some s =>
      if !Slot.pending s then d else
      match Tab.find d.herd.outs s.tag with
      | none => (d.slotMark c s.tag (if good then some e else none)).replyWaitEnd c
      -- the tiers of every device have the same sizes, so that the home clamps what this device would clamp (R74, R76)
      | some o => if good then d.replyIn ⟨0x20, d.nodeId, o.node, s.tag, false, decide (d.tierSize (addrTier o.addr) ≤ addrOff o.addr), 0#64, e⟩ else d.timeout s.tag

/-! ## This device's copies of other nodes' lines -/

/-- INV (R293, R295): the line is dropped, and the answer is INV_ACK whether or not it was held. -/
def invIn (d : Dev) (m : Msg) : Dev := (d.dropFar (farLine m.addr)).reply m 0x25 0 [] false
/-- FWD_S and FWD_I (R293): the owner's line, or LEN 0 where it no longer holds it. -/
def fwdIn (d : Dev) (m : Msg) (keep : Bool) : Dev :=
  match Tab.find d.herd.cache (farLine m.addr) with
  | some l =>
    if l.st ≠ 2 then d.reply m 0x26 0 [] false
    else
      let d := if keep then ({ d with herd := { d.herd with cache := Tab.put d.herd.cache (farLine m.addr) { l with st := 1, dirty := false } } } : Dev) else d.dropFar (farLine m.addr)
      d.reply m 0x26 0 l.data false
  | none => d.reply m 0x26 0 [] false
/-- A home has had no ACTIVE route link for 5 µs, or is gone (R257, R297). -/
def routeLoss (d : Dev) (n : Nat) : Dev := if (d.routeLinks n).isEmpty then (d.dropNode n).lenderGone n else d

end Dev

end Sys2Proof.Machine
end

