-- ==== Sys2Proof/Machine/Search.lean ====
section
/-! DEFINITION. Exact vector search (chapters 12 and 13): records, weights, keys, filters, selection, merging, results. -/
namespace Sys2Proof.Machine

/-! ## Records (R314, R317, R318) -/

/-- The exact square of a scale as m · 2^e. -/
def sqScale (s : W32) : Nat × Int := match dec32 s with | .fin _ m e => (m * m, 2 * e) | _ => (0, 0)
/-- The norm weights of scales under a shift (R314). -/
def normWeights (ss : List W32) (h : Int) : List Nat := ss.map (fun s => let q := sqScale s; rneShift q.1 (q.2 + h))
/-- The largest shift whose weights sum to at most 2^33 (R314): bit by bit, since the sum rises with the shift. -/
def normShift (ss : List W32) : Int :=
  let fits := fun (h : Int) => decide ((normWeights ss h).foldl (· + ·) 0 ≤ 2 ^ 33)
  ([512, 256, 128, 64, 32, 16, 8, 4, 2, 1].foldl (fun (h : Int) (b : Nat) => if h + b ≤ 511 && fits (h + b) then h + b else h) (-512))
/-- A code byte as an integer. -/
def codeInt (b : Byte) : Int := signedOf 8 b.toNat
/-- N_x of codes (R318). -/
def normTerm (us : List Nat) (cs : List Byte) : Nat := ((us.zip cs).map (fun p => p.1 * (codeInt p.2).natAbs * (codeInt p.2).natAbs)).foldl (· + ·) 0
/-- The least integer whose square is at least a number below 2^64. -/
def ceilSqrt (n : Nat) : Nat := let r := isqrtAux n 33 0; if r * r = n then r else r + 1
/-- The NORM field (R318). -/
def normField (cosine : Bool) (n : Nat) : Nat := if !cosine then n else if n = 0 then 0 else 2 ^ 40 / ceilSqrt n
/-- The codes of a float record (R318), and whether a component was a NaN. -/
def floatCodes (cosine : Bool) (ss xs : List W32) : List Byte × Bool :=
  let sq := fredSum (xs.map (fun x => fmul x x))
  let xs := if cosine && !(dec32 sq).eqv (dec32 0#32) then let g := frsqrt sq; xs.map (fun x => fmul x g) else xs
  let cs := (xs.zip ss).map (fun p => (dec32 (fdiv p.1 p.2)).toInt)
  (cs.map (fun c => match c with | none => 0#8 | some i => BitVec.ofInt 8 (max (-127) (min 127 i))), (xs.any fisNan) || cs.any (·.isNone))
/-- Little-endian FP32 patterns of bytes. -/
def f32s (n : Nat) (l : List Byte) : List W32 := (List.range n).map (fun i => BitVec.ofNat 32 (leVal ((l.drop (4 * i)).take 4)))
/-- A record of an append from its bytes (R317, R318), and whether a component was a NaN. -/
def recordOf (c : Coll) (float : Bool) (l : List Byte) : VRec × Bool :=
  let h := fun (i n : Nat) => leVal ((l.drop i).take n)
  let cs : List Byte × Bool := if float then floatCodes c.cosine c.scales (f32s c.dim (l.drop 32)) else ((List.range c.dim).map (fun i => (l.drop 32).getD i 0#8), false)
  (⟨h 0 5, 0, none, normField c.cosine (normTerm c.weights cs.1), h 16 4, h 8 8, cs.1⟩, cs.2)
/-- The stored bytes of a record (Table 12-3). -/
def VRec.bytes (r : VRec) : List Byte := leBytes 5 r.id ++ leBytes 6 r.norm ++ [0#8] ++ leBytes 4 r.ttag ++ leBytes 8 r.attr ++ r.codes
/-- A record is live in the snapshot of a generation (R346). -/
def VRec.live (r : VRec) (g : Nat) : Bool := decide (r.gen ≤ g) && (match r.dead with | none => true | some t => decide (g < t))

/-! ## Queries (R319 to R324) -/

/-- The exact product 2^f · p rounded to an integer. -/
def scaleInt (p : W32) (f : Int) : Int := match dec32 p with | .fin n m e => let v : Nat := rneShift m (e + f); if n then -(v : Int) else v | _ => 0
/-- The weights, F and flag bits of a query (R319), and whether a component was a NaN or infinite. -/
def queryWeights (h : Int) (l2 : Bool) (q ss : List W32) : List Int × Int × Nat × Bool :=
  let ps := (q.zip ss).map (fun p => fmul p.1 p.2)
  let bad := ps.any (fun p => match dec32 p with | .fin _ _ _ => false | _ => true)
  let ps := ps.map (fun p => match dec32 p with | .fin _ _ _ => p | _ => 0#32)
  let lg := ps.filterMap (fun p => match dec32 p with | .fin _ m e => (if m = 0 then none else some ((Nat.log2 m : Int) + e)) | _ => none)
  match lg with
  | [] => (ps.map (fun _ => 0), 0, 0, bad)
  | a :: r =>
    let f0 : Int := 14 - r.foldl max a
    let f := if l2 then min f0 (h - 1) else f0
    let ws := ps.map (fun p => scaleInt p f)
    let sat := ws.any (fun w => w < -32639 || 32639 < w)
    (ws.map (fun w => max (-32639) (min 32639 w)), f, b2n sat * 8 + b2n (f != f0) * 16, bad)
/-- S of R320. -/
def score (ws : List Int) (cs : List Byte) : Int := ((ws.zip cs).map (fun p => p.1 * codeInt p.2)).foldl (· + ·) 0
/-- The ranking key (Table 12-4), and whether it was saturated: dist 0 inner product, 1 cosine, 2 squared Euclidean. -/
def rankKey (dist : Nat) (h f : Int) (s : Int) (norm : Nat) : Nat × Bool :=
  match dist with
  | 0 => ((2 ^ 47 + s).toNat, false)
  | 2 =>
    let e : Int := if h ≤ f then norm * 2 ^ (f - h).toNat else (norm / 2 ^ (h - f).toNat : Nat)
    ((2 ^ 47 - 1 - (e - 2 * s)).toNat, false)
  | _ =>
    let k : Int := 2 ^ 47 + (s * norm) / 2 ^ 27
    if k < 0 then (0, true) else if 2 ^ 48 ≤ k then (2 ^ 48 - 1, true) else (k.toNat, false)
/-- The terms of a filter block (Table 12-5): MASK, MATCH, TLO, THI; none passes every vector; its clamps. -/
def filterTerms (l : List Byte) : List (Nat × Nat × Nat × Nat) × Nat :=
  let n0 := (l.getD 0 0#8).toNat % 8
  let n := min n0 4
  ((List.range n).map (fun t => let g := fun (i k : Nat) => leVal ((l.drop (i + 24 * t)).take k); (g 8 8, g 16 8, g 24 4, g 28 4)), b2n (4 < n0))
/-- A vector passes a filter (R324). -/
def passes (ts : List (Nat × Nat × Nat × Nat)) (r : VRec) : Bool :=
  ts.isEmpty || ts.any (fun t => r.attr &&& t.1 == t.2.1 &&& t.1 && t.2.2.1 ≤ r.ttag && r.ttag ≤ t.2.2.2)
/-- The candidate that a record is for a query, with KSAT. -/
def candOf (c : Coll) (dist : Nat) (q : Query) (r : VRec) : Cand × Bool :=
  let k := rankKey dist c.hshift q.shift (score q.weights r.codes) r.norm
  (⟨k.1, r.id, r.gen⟩, k.2)

/-! ## Selection (R339, R340, R344) -/

/-- The admission of R339, with the sizes of the candidate and overflow buffers. -/
def Sel.offerTo (k size : Nat) (s : Sel) (x : Cand) : Sel :=
  if s.theta < x.key || (x.key = s.theta && s.cand.length + s.overs.length < k) then
    if s.cand.length < size then { s with cand := s.cand ++ [x] } else { s with overs := s.overs ++ [x] }
  else if x.key = s.theta then { s with tau := s.tau + 1 } else s
/-- The scan goes on until both buffers are full (R341). -/
def Sel.advance (k : Nat) : Nat → Sel → Sel
  | 0, s => s
  | n + 1, s =>
    match s.rest with
    | [] => s
    | x :: r => if 256 ≤ s.cand.length && 256 ≤ s.overs.length then s else Sel.advance k n (Sel.offerTo k 256 { s with rest := r } x)
/-- The same for the candidate buffer in tier 1 (R344): 4k entries, no overflow, every candidate at θ or above. -/
def Sel.advanceBig (k : Nat) (s : Sel) : Sel :=
  let ok := s.rest.filter (fun x => s.theta ≤ x.key)
  let n := 4 * k - s.cand.length
  { s with cand := s.cand ++ ok.take n, rest := ok.drop n }
/-- Inserts by key, best first. -/
def insCand (x : Cand) : List Cand → List Cand
  | [] => [x]
  | y :: r => if y.key < x.key then x :: y :: r else y :: insCand x r
/-- Candidates by key, best first. -/
def byKey (l : List Cand) : List Cand := l.foldl (fun a x => insCand x a) []
/-- The k-th largest key of some candidates. -/
def kthKey (k : Nat) (l : List Cand) : Nat := (((byKey l)[k - 1]?).map (·.key)).getD 0

namespace Dev

/-- Takes n entries of a list: which ones is not stated (log 5). -/
def pickSome {α : Type} : Nat → Dev → List α → List α × Dev
  | 0, d, _ => ([], d)
  | n + 1, d, l =>
    if l.isEmpty then ([], d) else
    let (i, d) := d.choose l.length
    let (r, d) := pickSome n d (l.eraseIdx i)
    ((l[i]?).toList ++ r, d)
/-- reselect of R339 over a candidate buffer of a size: which ties stay is not stated. -/
def reselect (d : Dev) (k size : Nat) (s : Sel) : Sel × Dev :=
  let t := kthKey k s.cand
  let a := s.cand.filter (fun x => t < x.key)
  let b := s.cand.filter (fun x => x.key == t)
  let (keep, d) := d.pickSome (k - a.length) b
  let left := b.length - (k - a.length)
  let s' : Sel := { s with cand := a ++ keep, overs := [], theta := t, tau := if t = s.theta then s.tau + left else left }
  (s.overs.foldl (fun s x => s.offerTo k size x) s', d)
/-- The best n of some candidates, in the order of R330: among equal keys the order and the choice are not stated. -/
def bestOf : Nat → Dev → List Cand → List Cand × Dev
  | 0, d, _ => ([], d)
  | n + 1, d, l =>
    match l with
    | [] => ([], d)
    | x :: r =>
      let m := r.foldl (fun m y => max m y.key) x.key
      let g := (List.range l.length).filter (fun i => ((l[i]?).map (·.key)) == some m)
      let (i, d) := d.choose g.length
      let j := g.getD i 0
      let (o, d) := bestOf n d (l.eraseIdx j)
      ((l[j]?).toList ++ o, d)
/-- The partial list of a part (R340). -/
def partOf (d : Dev) (k : Nat) (s : Sel) : Part × Dev :=
  let held := s.cand ++ s.overs
  let (l, d) := d.bestOf k held
  let kp := ((l.getLast?).map (·.key)).getD 0
  let left := (held.filter (fun x => x.key == kp)).length - (l.filter (fun x => x.key == kp)).length
  (⟨l, if l.length = k then left + (if s.theta = kp then s.tau else 0) else 0⟩, d)
/-- A part scanned on the arrays: the candidates in order, a reselection whenever the buffer is full; how many a run counts is
not fixed (R341; log 5). -/
def arrayPart (d : Dev) (k : Nat) (l : List Cand) : Part × Dev :=
  let r := l.foldl (fun (a : Sel × Dev) x =>
    let s := a.1.offerTo k 256 x
    if 256 ≤ s.cand.length then a.2.reselect k 256 s else (s, a.2)) (⟨[], [], [], 0, 0⟩, d)
  let (p, d) := r.2.partOf k r.1
  let (n, d) := d.choose (l.length / 192 + 1)
  (p, d.countN R.srchReselCnt R.srchSelEvt F.srchSelEvt_reselOvf n)
/-- The merge of partial lists (R342, R343): the answer, and TIED. -/
def mergeParts (d : Dev) (k : Nat) (ps : List Part) : List Cand × Nat × Dev :=
  let e := (ps.flatMap (·.ents)).foldl (fun (a : List Cand) x =>
    match a.find? (fun y => y.id == x.id) with
    | some y => if y.gen < x.gen then a.map (fun z => if z.id = x.id then x else z) else a
    | none => a ++ [x]) []
  let (r, d) := d.bestOf k e
  let kth := ((r.getLast?).map (·.key)).getD 0
  let t := (ps.map (fun p => if p.ents.length = k && ((p.ents.getLast?).map (·.key)) == some kth then p.ties else 0)).foldl (· + ·) 0
  (r, if r.isEmpty then 0 else (e.filter (fun x => x.key == kth)).length + t, d)

/-! ## Operands of jobs -/

/-- Reads bytes for a context or the service: ok is false where the read must wait (what the home must do first has been
started); bad where it is uncorrectable. What lies on another node is fetched by requests, for a use of the context or of none; what
registers read as when a job comes to read them is free (log 43). -/
def grab (d : Dev) (c : Option Nat) (use : Nat) (a : W64) (n : Nat) : Bool × Bool × List Byte × Dev :=
  let t := addrTier a
  let o := addrOff a
  if t = 0 && c.isSome then
    match c.bind d.ctx? with
    | some x => (true, d.scrBad (c.getD 0) x (upFrom o n), (List.range n).map (fun i => d.scrByte (c.getD 0) x (o + i)), d)
    | none => (true, false, List.replicate n 0#8, d)
  else if d.away a && t ≠ 4 then
    if d.hasFetched c use a n then (true, false, d.fetchedBytes c use a n, d)
    else
      let x := c.bind d.ctx?
      (false, false, [], d.askFetch ((x.map (fun x => x.core / 32)).getD 0) (x.map (·.part)) c use a n)
  else if t = 4 then
    let (l, d) := (List.range n).foldl (fun (p : List Byte × Dev) _ => let (w, e) := p.2.draw; (BitVec.ofNat 8 w.toNat :: p.1, e)) ([], d)
    (true, false, l, d)
  else if !d.lready t o n false then (false, false, [], d.dirAsk false (d.lholds t o n false))
  else
    let m := d.tierSize t - o
    let r := d.lread t o (min n m)
    let tail := (List.range (n - m)).map (fun i => (d.lread t (d.memClip t (o + m + i)) 1).1.getD 0 0#8)
    let by' := match c.bind d.ctx? with | some x => unitId 1 x.core | none => unitId 9 (dieOf t o)
    (true, r.2, r.1 ++ tail, d.lmeet by' t o (min n m))
/-- Writes bytes for a context's job or the service: none where the write must wait. To another node it goes in whole and partial
units: a context's as its stores, which its boundaries, fences and end await (R92, R101). A word that the write reaches more than
once, beyond the end of its tier, keeps any of its values (R74, lastOrder). -/
def putBytes (d : Dev) (c : Option Nat) (k : OutKind) (a : W64) (l : List Byte) : Option Dev :=
  let t := addrTier a
  let o := addrOff a
  if t = 0 && c.isSome then
    some (d.scrWrite (c.getD 0) ((List.range l.length).map (fun i => ⟨o + i, l.getD i 0#8, 0xFF#8⟩)))
  else if d.away a then
    let x := c.bind d.ctx?
    match d.sendUnits ((x.map (fun x => x.core / 32)).getD 0) (x.map (·.part)) (addrNode a) t o l k with
    | .sent _ d | .no d => some d
    | .wait => none
  else if !d.lready t o l.length true then none
  else if o + l.length ≤ d.tierSize t then some (d.lwrite t o l)
  else
    let r := d.lastOrder (d.tierSize t) (o + ·) (List.range l.length)
    some (r.1.foldl (fun d i => d.lwrite t (d.memClip t (o + i)) [l.getD i 0#8]) r.2)
/-- How a job's writes to another node are sent: as stores of its context, of a cancelled one as requests that it still waits for. -/
def jobKind (j : SJob) : OutKind :=
  match j.ctx with
  | some c => if j.cancelled then .cancelled c else .store c j.pc
  | none => .other
/-- What keeps a write waiting is started (R293). -/
def askWrite (d : Dev) (a : W64) (n : Nat) : Dev :=
  if d.away a then d else d.dirAsk true (d.lholds (addrTier a) (addrOff a) n true)
/-- Reads row i of dimension 1 of a tensor: n bytes. -/
def grabRow (d : Dev) (c : Option Nat) (use : Nat) (z : Tensor) (i n : Nat) : Bool × Bool × List Byte × Dev :=
  d.grab c use (mkAddr (addrNode z.base) (addrTier z.base) (z.at' (z.rowOff i 0 0))) n
/-- Reads m rows of n bytes. -/
def grabRows (d : Dev) (c : Option Nat) (use : Nat) (z : Tensor) (m n : Nat) : Bool × Bool × List (List Byte) × Dev :=
  (List.range m).foldl (fun (a : Bool × Bool × List (List Byte) × Dev) i =>
    let r := a.2.2.2.grabRow c use z i n
    (a.1 && r.1, a.2.1 || r.2.1, a.2.2.1 ++ [r.2.2.1], r.2.2.2)) (true, false, [], d)

/-! ## Jobs -/

/-- Changes a job. -/
def modJob (d : Dev) (j : Nat) (f : SJob → SJob) : Dev := { d with search := { d.search with jobs := Tab.modify d.search.jobs j f } }
/-- Changes a collection. -/
def modColl (d : Dev) (l : Nat) (f : Coll → Coll) : Dev := { d with search := { d.search with colls := Tab.modify d.search.colls l f } }
/-- Counts clamps of a job (R111, R329). -/
def jobClamp (d : Dev) (i n : Nat) : Dev :=
  if n = 0 then d else
  match Tab.find d.search.jobs i with
  | none => d
  | some j =>
    let d := d.modJob i (fun j => { j with flags := j.flags ||| 1 })
    match j.ctx with
    | some c => (d.modCtx c (fun x => x.clampAt j.pc n)).trapNow c
    | none => match j.who with
      | .nvme p _ _ => d.countN (R.hostClampCnt p) (R.hostEvt p) F.hostEvt_clampOvf n
      | _ => d
/-- Issues a job. -/
def addJob (d : Dev) (j : SJob) : Nat × Dev :=
  (d.search.nextJob, { d with search := { d.search with jobs := Tab.put d.search.jobs d.search.nextJob j, nextJob := d.search.nextJob + 1 } })
/-- A job with its inputs and its asker, before it starts. -/
def newJob (coll part k dist path : Nat) (found large rerank : Bool) (who : Asker) (pc : W64) (flags : Nat) : SJob :=
  { coll := coll, found := found, part := part, k := k, dist := dist, path := path, large := large, rerank := rerank, src := none, raw := [], filt := [], idl := [],
    dst := none, room := 0, who := who, pc := pc, started := false, gen := 0, view := 0, chans := [], handed := [], queries := [], paths := 0, noCore := false, noQuota := false,
    big := ⟨[], [], [], 0, 0⟩, bufs := [], cancelled := false, flags := flags, sent := false }
/-- A collection that new work of a partition finds (R315, R317). -/
def collFor (d : Dev) (l p : Nat) : Option Coll := (Tab.find d.search.colls l).bind (fun c => if !c.destroyed && c.part = p then some c else none)
/-- Running jobs of a collection. -/
def collJobs (d : Dev) (l : Nat) : List (Nat × SJob) := d.search.jobs.filter (fun j => j.2.coll == l && j.2.found)
/-- Views that are no longer the current one live as long as a job runs in them (R353). -/
def pruneViews (d : Dev) (l : Nat) : Dev :=
  let js := (d.collJobs l).filter (·.2.started)
  d.modColl l (fun c => { c with views := (List.range c.views.length).filterMap (fun i => match c.views[i]? with
    | some v => if i + 1 = c.views.length || js.any (fun j => j.2.view == v.start) then some v else none
    | none => none) })
/-- The slot-steps of a pass are charged (R228, R327): for each slot the steps that scoring takes, and those in which it waited for
its channel, which are a free value (log 35). -/
def chargePass (d : Dev) (j : SJob) (p : Pass) : Dev :=
  match j.ctx with
  | none => d
  | some c => let r := d.choose (2 ^ 32); r.2.charge' c 4 (p.sels.length * (p.steps + r.1))
/-- Removes a job: its passes, its buffers, its view where it was the last. -/
def dropJob (d : Dev) (i : Nat) : Dev :=
  match Tab.find d.search.jobs i with
  | none => d
  | some j =>
    let d := d.search.passes.foldl (fun d p => if p.2.job = i then d.setFlds (R.oryxStatus p.1) [(F.oryxStatus_active, 0), (F.oryxStatus_slots, 0), (F.oryxStatus_ctxId, 0), (F.oryxStatus_part, 0)] else d) d
    let d := (d.search.passes.filter (fun p => p.2.job == i)).foldl (fun d p => d.chargePass j p.2) d
    let d : Dev := { d with search := { d.search with jobs := Tab.del d.search.jobs i, passes := d.search.passes.filter (fun p => p.2.job != i) } }
    (j.bufs.foldl (fun d o => d.freeObj o) d).pruneViews j.coll

/-- An allocation of the run-time that can wait only while its command waits: later where the pool will have room (R254). -/
def roomFor (d : Dev) (p t n : Nat) : Alloc × Dev :=
  if 262144 ≤ d.tier.objs.length then (.full, d) else
  let s := roundSize t n
  match d.alloc p t s 0 with
  | (.later, e) => if s ≤ e.freeOf t + e.pendOf t then (.later, e) else (.full, e.countFull)
  | (.full, e) => (.full, if d.pooled t then e.countFull else e)
  | r => r
/-- Makes an object of the run-time in a range. -/
def runObj (d : Dev) (p t b n : Nat) : Nat × Dev := d.placeObj (newObj p t b (roundSize t n) 0 false 0 0#64 .segment 1)

/-- The records of a view with their places: segment, index. -/
def viewRecs (c : Coll) (v : CView) : List (CSeg × Nat × VRec) :=
  v.segs.flatMap (fun s => match Tab.find c.segs s with
    | some g => (List.range g.recs.length).filterMap (fun i => (g.recs[i]?).map (fun r => (g, i, r)))
    | none => [])
/-- The place of a record. -/
def recAt (d : Dev) (c : Coll) (g : CSeg) (i : Nat) : Option Nat :=
  if g.obj = 0 then none else (Tab.find d.tier.objs (g.obj - 1)).map (fun o => o.base + i * (24 + c.dim))
/-- The read of a record fails (R331). -/
def recBad (d : Dev) (c : Coll) (g : CSeg) (i : Nat) : Bool :=
  match d.recAt c g i with
  | some o => (d.lread c.home o (24 + c.dim)).2
  | none => false
/-- The view of a job. -/
def jobView (c : Coll) (j : SJob) : CView := (c.views.find? (fun v => v.start == j.view)).getD ⟨0, []⟩
/-- The live records of a job's snapshot with their places; the channel that scans a record is its index modulo 128 (log 42). -/
def snapshot (c : Coll) (j : SJob) : List (CSeg × Nat × VRec) := (viewRecs c (jobView c j)).filter (fun r => r.2.2.live j.gen)
/-- The share of a channel. -/
def shareOf (c : Coll) (j : SJob) (ch : Nat) : List (CSeg × Nat × VRec) := (snapshot c j).filter (fun r => r.2.1 % 128 == ch)
/-- Counts and logs what a scan could not read (R331): by the engine of a channel, or on the array path. -/
def noteSkips (d : Dev) (ch : Option Nat) (a : W64) (n : Nat) : Dev :=
  if n = 0 then d else
  match ch with
  | some h => ((d.countN (R.oryxSkipCnt h) (R.oryxEvt h) F.oryxEvt_skipOvf n).setFld (R.oryxEvt h) F.oryxEvt_skip 1).raise ⟨1, 0x09, unitId 0x0A h, unitId 0x0B h, 0, a, 0, false, false, none⟩
  | none => ((d.countN R.srchSkipCnt R.srchEvt F.srchEvt_skipOvf n).setFld R.srchEvt F.srchEvt_skip 1).raise ⟨1, 0x02, unitId 1 0, unitId 1 0, 0, a, 0, false, false, none⟩
/-- The units that could not be read of some records: pages of 4,096 bytes in tier 3, lines elsewhere (R331). -/
def badUnits (d : Dev) (c : Coll) (l : List (CSeg × Nat × VRec)) : List Nat :=
  let u := if c.home = 3 then 4096 else 128
  let part := fun (o x : Nat) => let a := max o (x * u); (d.lread c.home a (min (o + 24 + c.dim) (x * u + u) - a)).2
  (l.flatMap (fun r => match d.recAt c r.1 r.2.1 with
    | some o => (upFrom (o / u) ((o + 23 + c.dim) / u + 1 - o / u)).filter (part o)
    | none => [])).eraseDups
/-- The reads of a share's records: what was read, and how many were not. -/
def readShare (d : Dev) (c : Coll) (ch : Option Nat) (l : List (CSeg × Nat × VRec)) : List VRec × Nat × Dev :=
  let bad := l.filter (fun r => d.recBad c r.1 r.2.1)
  let good := l.filter (fun r => !d.recBad c r.1 r.2.1)
  let units := d.badUnits c bad
  let at' := (units.headD 0) * (if c.home = 3 then 4096 else 128)
  let d := l.foldl (fun d r => match d.recAt c r.1 r.2.1 with | some o => d.ltouch false c.home o (24 + c.dim) | none => d) d
  (good.map (·.2.2), bad.length, d.noteSkips ch (mkAddr d.nodeId c.home at') units.length)
/-- Candidates of some records for a query, with the query's counts and KSAT. -/
def offer (c : Coll) (j : SJob) (q : Query) (rs : List VRec) (unread : Nat) : List Cand × Query :=
  let ms := rs.filter (passes q.terms)
  let cs := ms.map (candOf c j.dist q)
  (cs.map (·.1), { q with scanned := q.scanned + rs.length, matched := q.matched + ms.length, unread := q.unread + unread, flags := if cs.any (·.2) then q.flags ||| 32 else q.flags })
/-- The records that a query's ID list names (R325), and how many of its IDs name none; repeats count once. -/
def byIds (ids : List Nat) (l : List (CSeg × Nat × VRec)) : List (CSeg × Nat × VRec) × Nat :=
  let u := ids.eraseDups
  let found := u.filterMap (fun i => l.find? (fun r => r.2.2.id == i))
  (found, u.length - found.length)
/-- Charges the engine time of search contexts to the requesting context: how much is not stated (log 5). -/
def chargeArrays (d : Dev) (j : SJob) : Dev :=
  match j.ctx with
  | none => d
  | some c =>
    let (a, d) := d.choose (2 ^ 40)
    let (v, d) := d.choose (2 ^ 40)
    (d.charge' c 0 a).charge' c 1 v
/-- Scans a share on the array path for the queries from one on (R328, R548): with no Kudu core in service its vectors count
as unread. -/
def arrayScan (d : Dev) (i : Nat) (l : List (CSeg × Nat × VRec)) (q0 : Nat) : Dev :=
  match Tab.find d.search.jobs i with
  | none => d
  | some j =>
    match Tab.find d.search.colls j.coll with
    | none => d
    | some c =>
      if (d.coresOf j.part).isEmpty then
        d.modJob i (fun j => { j with noCore := true, queries := (List.range j.queries.length).filterMap (fun n => (j.queries[n]?).map (fun q => if n < q0 then q else { q with unread := q.unread + l.length })) })
      else
        let d := (d.modJob i (fun j => { j with paths := j.paths ||| 2 })).chargeArrays j
        -- what any query scores is read once
        let want := fun (q : Query) => match q.ids with | some ids => byIds ids l | none => (l, 0)
        let all := ((j.queries.drop q0).filterMap (·.ids)).flatten
        let ok := (l.filter (fun r => !d.recBad c r.1 r.2.1)).map (fun r => (r.1.obj, r.2.1))
        let d := (d.readShare c none (if (j.queries.drop q0).all (·.ids.isSome) then (byIds all l).1 else l)).2.2
        (List.range j.queries.length).foldl (fun d n =>
          match (Tab.find d.search.jobs i).bind (fun j => j.queries[n]?) with
          | none => d
          | some q =>
            if n < q0 then d else
            let w := want q
            let rs := (w.1.filter (fun r => ok.contains (r.1.obj, r.2.1))).map (·.2.2)
            let (cs, q) := offer c j { q with absent := q.absent + w.2 } rs (w.1.length - rs.length)
            if j.large then
              d.modJob i (fun j => { j with queries := j.queries.set n q, big := ({ j.big with rest := j.big.rest ++ cs } : Sel).advanceBig j.k })
            else
              let (p, d) := d.arrayPart j.k cs
              d.modJob i (fun j => { j with queries := j.queries.set n { q with parts := q.parts ++ [p] } })) d
/-- An engine can take passes (R326). -/
def oryxOn (d : Dev) (ch : Nat) : Bool := d.flag (R.oryxStatus ch) F.oryxStatus_inService && d.flag (R.oryxCtrl ch) F.oryxCtrl_en && !d.isFenced (unitId 0x0A ch)

/-- Loads a context's inputs (R323): false where a read must wait; an uncorrectable one aborts the task (R210). -/
def loadInputs (d : Dev) (i : Nat) (j : SJob) (dim : Nat) : Bool × Dev :=
  match j.src with
  | none => (true, d)
  | some (x, sa, sb) =>
    let bf := x.fmt = .bf16
    let es := if bf then 2 else 4
    let c := j.ctx
    let nq := min x.d1 4096
    let n := min x.d0 dim
    let rows := d.grabRows c (i + 1) x nq (es * n)
    let fb := if sa = 0#64 then (true, false, [], rows.2.2.2) else rows.2.2.2.grab c (i + 1) sa 128
    let more := (fb.2.2.1.getD 0 0#8).toNat / 8 % 2 * (nq - 1)
    let fb2 := if more = 0 then fb else fb.2.2.2.grab c (i + 1) sa (128 * (more + 1))
    let w0 := if j.rerank then fb2.2.2.2.grab c (i + 1) sb 8 else (true, false, [], fb2.2.2.2)
    let cw := leVal w0.2.2.1
    let cnt := min (cw % 2 ^ 17) 65536 * (if cw.testBit 63 then nq else 1)
    let il := if j.rerank then w0.2.2.2.grab c (i + 1) sb (8 + 8 * cnt) else (true, false, [], w0.2.2.2)
    let d := il.2.2.2
    let own := fun (a : W64) (n : Nat) => if addrTier a = 0 then upFrom (addrOff a) n else []
    let places := (List.range nq).flatMap (fun r => own (mkAddr 0 (addrTier x.base) (x.at' (x.rowOff r 0 0))) (es * n)) ++
      (if sa = 0#64 then [] else own sa (128 * (more + 1))) ++ (if j.rerank then own sb (8 + 8 * cnt) else [])
    let inv := match c.bind d.ctx? with | some y => scrInvalid y places | none => false
    if !(rows.1 && fb.1 && fb2.1 && w0.1 && il.1) then (false, d)
    else if rows.2.1 || fb2.2.1 || il.2.1 then (false, match c with | some c => d.abortTask c 0 0 x.base | none => d)
    else
      let q := rows.2.2.1.map (fun l => (List.range dim).map (fun i =>
        if n ≤ i then 0#32 else if bf then BitVec.ofNat 32 (leVal ((l.drop (2 * i)).take 2) * 65536) else BitVec.ofNat 32 (leVal ((l.drop (4 * i)).take 4))))
      let d := (d.doneFetch (d.away x.base || d.away sa || d.away sb) c (i + 1)).modJob i (fun j => { j with raw := q, filt := fb2.2.2.1, idl := il.2.2.1, src := none, flags := j.flags ||| b2n inv })
      let d := if inv then (match c with | some c => (d.noteInvalidAt c j.pc).trapNow c | none => d) else d
      (true, d.jobClamp i (b2n (x.d0 != dim)))
/-- The queries of a job whose inputs have been read (R319, R324, R325), and its clamps. -/
def makeQueries (c : Coll) (j : SJob) (dist : Nat) : List Query × Nat :=
  let perF := (j.filt.getD 0 0#8).toNat / 8 % 2 = 1
  let cw := leVal (j.idl.take 8)
  let n0 := cw % 2 ^ 17
  let n := min n0 65536
  let perI := cw.testBit 63
  let qs := (List.range j.raw.length).map (fun i =>
    let w := queryWeights c.hshift (dist == 2) (j.raw.getD i []) c.scales
    let f := filterTerms (if perF then j.filt.drop (128 * i) else j.filt)
    let ids := if j.rerank then some ((List.range n).map (fun t => leVal ((j.idl.drop (8 + 8 * (t + (if perI then i * n else 0)))).take 5))) else none
    ((⟨w.1, w.2.1, w.2.2.1, ids, f.1, [], 0, 0, 0, 0, none⟩ : Query), b2n w.2.2.2, f.2))
  (qs.map (·.1), b2n (qs.any (fun q => q.2.1 != 0)) + (if perF then (qs.map (fun q => q.2.2)).foldl (· + ·) 0 else ((qs.head?).map (fun q => q.2.2)).getD 0) + b2n (j.rerank && n0 != n))
/-- Starts a job (R323, R326, R344, R349, R353, R548; the share of an engine that takes no passes, where the partition has no core, counts
as unread, log 56): it captures the current generation, takes its inputs, and its array
path's share is scanned; the engines' shares wait for their passes. -/
def startJob (d : Dev) (i : Nat) : Dev :=
  match Tab.find d.search.jobs i with
  | none => d
  | some j =>
    if j.started || j.cancelled || d.search.jobs.any (fun k => k.1 < i && !k.2.started && !k.2.cancelled && k.2.ctx.isSome && k.2.ctx == j.ctx) then d else
    match (if j.found then Tab.find d.search.colls j.coll else none) with
    | none => d.modJob i (fun j => { j with started := true, queries := (match j.src with | some (x, _, _) => List.replicate (min x.d1 4096) [] | none => j.raw).map (fun _ => ⟨[], 0, 0, none, [], [], 0, 0, 0, 0, none⟩) })
    | some c =>
      if 65535 ≤ ((d.collJobs j.coll).filter (·.2.started)).length then d else
      match d.loadInputs i j c.dim with
      | (false, d) => d
      | (true, d) =>
        match Tab.find d.search.jobs i with
        | none => d
        | some j =>
          let dist := if j.dist = 1 && !c.cosine then 0 else if j.dist = 2 && c.cosine then 1 else j.dist
          let (qs, n) := makeQueries c j dist
          let d := d.modJob i (fun j => { j with started := true, gen := c.gen, view := ((c.views.getLast?).map (·.start)).getD 0, dist := dist, queries := qs })
          let d := d.jobClamp i (b2n (dist != j.dist) + n)
          if qs.isEmpty then d else
          -- the buffers of a large k (R344)
          let (ok, d) := if !j.large then (true, d) else
            match d.roomFor j.part 1 (64 * j.k) with
            | (.got b, d) =>
              let (o, d) := d.runObj j.part 1 b (64 * j.k)
              (match d.roomFor j.part 1 (16 * j.k) with
               | (.got b, d) => let (p, d) := d.runObj j.part 1 b (16 * j.k); (true, d.modJob i (fun j => { j with bufs := [o, p] }))
               | (_, d) => (false, d.freeObj o))
            | (_, d) => (false, d)
          if !ok then d.modJob i (fun j => { j with noQuota := true }) else
          let (pick, d) := d.choose 2
          let noCores := (d.coresOf j.part).isEmpty
          let arrays := c.home ≠ 3 || j.path = 2 || j.rerank || (j.path = 0 && pick = 1 && !noCores)
          let off := (List.range 128).filter (fun ch => !d.oryxOn ch)
          if noCores && (c.home ≠ 3 || j.path = 2 || j.rerank || j.large) then d.modJob i (fun j => { j with noCore := true })
          else
            match Tab.find d.search.jobs i with
            | none => d
            | some j' =>
              if arrays then d.arrayScan i (snapshot c j') 0
              else
                let d := d.modJob i (fun j => { j with chans := ((List.range 128).filter (fun ch => !off.contains ch)).map (fun ch => (ch, 0)), paths := 1 })
                let hand := (snapshot c j').filter (fun r => off.contains (r.2.1 % 128))
                if hand.isEmpty then d else d.arrayScan i hand 0

/-- The reservation of a partition (R220); the device itself has none. -/
def oryxResv (d : Dev) (p : Nat) : Nat := if p < 16 then d.fld (R.partOryx p) F.partOryx_slots else 0
/-- The query slots, of all engines, that a partition's passes hold. -/
def oryxUsed (d : Dev) (p : Nat) : Nat :=
  (d.search.passes.map (fun q => if ((Tab.find d.search.jobs q.2.job).map (·.part)) = some p then q.2.sels.length else 0)).foldl (· + ·) 0
/-- Query slots that a pass of a partition may take in an engine (R220, R327): at most 64; of the 8,192 of the device, what is left
of its reservation and of the slots that no partition reserves. -/
def slotsFor (d : Dev) (p : Nat) : Nat :=
  let shared := 8192 - ((List.range 16).map d.oryxResv).foldl (· + ·) 0
  let taken := ((List.range 17).map (fun q => d.oryxUsed q - d.oryxResv q)).foldl (· + ·) 0
  min 64 ((d.oryxResv p - d.oryxUsed p) + (shared - taken))
/-- An engine begins a pass (R327): its share is scored for as many queries as it has slots. -/
def oryxPass (d : Dev) (ch i : Nat) : Dev :=
  match Tab.find d.search.jobs i with
  | none => d
  | some j =>
    match Tab.find j.chans ch, Tab.find d.search.colls j.coll with
    | some q0, some c =>
      let n := min (d.slotsFor j.part) (j.queries.length - q0)
      if (Tab.find d.search.passes ch).isSome || !d.oryxOn ch || j.handed.contains ch || n = 0 then d else
      let (rs, bad, d) := d.readShare c (some ch) (shareOf c j ch)
      let out : List (Nat × List Cand × Query) := (List.range n).map (fun t => (q0 + t, offer c j ((j.queries[q0 + t]?).getD ⟨[], 0, 0, none, [], [], 0, 0, 0, 0, none⟩) rs bad))
      let more : List Cand := out.flatMap (fun o => o.2.1)
      let d := d.modJob i (fun j => { j with queries := out.foldl (fun l o => l.set o.1 o.2.2) j.queries, big := if j.large then ({ j.big with rest := j.big.rest ++ more } : Sel).advanceBig j.k else j.big })
      let sels := if j.large then out.map (fun _ => (⟨[], [], [], 0, 0⟩ : Sel)) else out.map (fun o => Sel.advance j.k (o.2.1.length) ⟨o.2.1, [], [], 0, 0⟩)
      let d := d.addPair (R.oryxVecLo ch) (rs.length + bad) (R.oryxEvt ch) F.oryxEvt_wrap
      let d := d.addPair (R.oryxBytesLo ch) ((rs.length + bad) * (24 + c.dim)) (R.oryxEvt ch) F.oryxEvt_wrap
      let d := d.setFlds (R.oryxStatus ch) [(F.oryxStatus_active, 1), (F.oryxStatus_slots, n), (F.oryxStatus_ctxId, j.ctx.getD 0), (F.oryxStatus_part, j.part)]
      { d with search := { d.search with passes := Tab.put d.search.passes ch ⟨i, q0, sels, rs.length * (c.dim / 4)⟩ } }
    | _, _ => d
/-- Reselects the slot of a query in the lowest channel where its candidate buffer is full (R341); the scan goes on. -/
def reselectSlot (d : Dev) (i n : Nat) : Dev :=
  match Tab.find d.search.jobs i with
  | none => d
  | some j =>
    let hit := fun (p : Pass) => p.job == i && p.q0 ≤ n && ((p.sels[n - p.q0]?).map (fun s => decide (256 ≤ s.cand.length))) == some true
    match d.search.passes.find? (fun p => hit p.2) with
    | none => d
    | some (ch, p) =>
      match p.sels[n - p.q0]? with
      | none => d
      | some s =>
        let (s, d) := d.reselect j.k 256 s
        let s := Sel.advance j.k s.rest.length s
        ({ d with search := { d.search with passes := Tab.put d.search.passes ch { p with sels := p.sels.set (n - p.q0) s } } } : Dev).count R.srchReselCnt R.srchSelEvt F.srchSelEvt_reselOvf
/-- A pass ends (R340): each slot forms its partial list; the channel's next queries follow. -/
def passDone (d : Dev) (ch : Nat) : Dev :=
  match Tab.find d.search.passes ch with
  | none => d
  | some p =>
    match Tab.find d.search.jobs p.job with
    | none => d
    | some j =>
      if !(p.sels.all (·.rest.isEmpty)) || (j.large && !j.big.rest.isEmpty) then d else
      let d := (List.range p.sels.length).foldl (fun d t => match p.sels[t]? with
        | none => d
        | some s =>
          if j.large then d else
          let (l, d) := d.partOf j.k s
          d.modJob p.job (fun j => { j with queries := match j.queries[p.q0 + t]? with | some q => j.queries.set (p.q0 + t) { q with parts := q.parts ++ [l] } | none => j.queries })) d
      let next := p.q0 + p.sels.length
      let d := d.modJob p.job (fun j => { j with chans := if j.queries.length ≤ next then Tab.del j.chans ch else Tab.put j.chans ch next })
      let d := (d.chargePass j p).count (R.oryxPassCnt ch) (R.oryxEvt ch) F.oryxEvt_passOvf
      let d := d.setFlds (R.oryxStatus ch) [(F.oryxStatus_active, 0), (F.oryxStatus_slots, 0), (F.oryxStatus_ctxId, 0), (F.oryxStatus_part, 0)]
      { d with search := { d.search with passes := Tab.del d.search.passes ch } }
/-- The candidate buffer of a large k is full (R344): it is filtered to k, and θ rises. -/
def largeReselect (d : Dev) (i : Nat) : Dev :=
  match Tab.find d.search.jobs i with
  | none => d
  | some j =>
    if !j.large || j.big.cand.length < 4 * j.k then d else
    let (s, d) := d.reselect j.k (4 * j.k) j.big
    (d.modJob i (fun j => { j with big := s.advanceBig j.k })).count R.srchReselCnt R.srchSelEvt F.srchSelEvt_reselOvf

/-- Shares whose engines will not take them go to the arrays (R326, R331). -/
def handOver (d : Dev) (i : Nat) : Dev :=
  match Tab.find d.search.jobs i with
  | none => d
  | some j =>
    match Tab.find d.search.colls j.coll with
    | none => d
    | some c =>
      (j.chans.filter (fun h => (Tab.find d.search.passes h.1).isNone && (j.handed.contains h.1 || !d.oryxOn h.1))).foldl (fun d h =>
        (d.modJob i (fun j => { j with chans := Tab.del j.chans h.1 })).arrayScan i (shareOf c j h.1) h.2) d

/-- The header and entries of a result (Tables 12-6 and 13-1, R330). -/
def resultBytes (j : SJob) (n : Nat) (q : Query) (st flags : Nat) (l : List Cand) (tied : Nat) : List Byte :=
  let kth := ((l.getLast?).map (·.key)).getD 0
  let sat := fun (m v : Nat) => min v (2 ^ m - 1)
  let ents := l.flatMap (fun x => leBytes 8 x.key ++ leBytes 8 x.id) ++ (List.replicate (j.k - l.length) (leBytes 8 0 ++ leBytes 8 (2 ^ 63 + 0xFFFFFFFFFF))).flatten
  let f := wrapTo 16 q.shift
  (if j.large then
    leBytes 8 (st + flags * 2 ^ 8 + j.dist * 2 ^ 16 + j.paths * 2 ^ 18 + f * 2 ^ 32) ++ leBytes 8 j.gen ++ leBytes 8 (l.length + j.k * 2 ^ 32) ++ leBytes 8 (sat 16 tied) ++
    leBytes 8 q.scanned ++ leBytes 8 q.matched ++ leBytes 8 (sat 32 q.unread) ++ leBytes 8 kth
  else
    leBytes 8 (st + flags * 2 ^ 8 + l.length * 2 ^ 16 + j.k * 2 ^ 24 + f * 2 ^ 32 + j.dist * 2 ^ 48 + j.paths * 2 ^ 50) ++ leBytes 8 j.gen ++ leBytes 8 (sat 16 tied) ++ leBytes 8 q.scanned ++
    leBytes 8 q.matched ++ leBytes 8 (sat 32 q.absent + sat 32 q.unread * 2 ^ 32) ++ leBytes 8 kth ++ leBytes 8 n) ++ ents
/-- STATUS of a query's result (R330, R548). -/
def queryStatus (j : SJob) (q : Query) : Nat :=
  if !j.found then 0x40 else if j.noQuota then 3 else if j.noCore then 0x21 else if q.unread ≠ 0 then 0x09 else 0
/-- Merges the partial lists of a query once every part has ended (R342, R344): its result. -/
def mergeQuery (d : Dev) (i n : Nat) : Dev :=
  let d := d.handOver i
  match Tab.find d.search.jobs i with
  | none => d
  | some j =>
    match j.queries[n]? with
    | none => d
    | some q =>
      let wait := !j.started || q.done.isSome || j.chans.any (fun h => h.2 ≤ n) || d.search.passes.any (fun p => p.2.job == i && (j.large || p.2.q0 ≤ n && n < p.2.q0 + p.2.sels.length)) || (j.large && !j.big.rest.isEmpty)
      if wait then d else
      let (l, tied, d) : List Cand × Nat × Dev :=
        if j.large then
          let (l, d) := d.bestOf j.k j.big.cand
          let kth := ((l.getLast?).map (·.key)).getD 0
          (l, if l.isEmpty then 0 else (j.big.cand.filter (fun x => x.key == kth)).length + (if j.big.theta = kth then j.big.tau else 0), d)
        else d.mergeParts j.k q.parts
      let kth := ((l.getLast?).map (·.key)).getD 0
      let bt := decide ((l.filter (fun x => x.key == kth)).length < tied)
      let fl := q.flags + b2n bt * 4
      d.modJob i (fun j => { j with flags := j.flags ||| (b2n bt * 4), queries := j.queries.set n { q with flags := fl, done := some (resultBytes j n q (queryStatus j q) (fl ||| (j.flags % 2)) l tied) } })
/-- Flags of a header: CLAMPED reports the clamps of the job as a whole. -/
def markClamped (on : Bool) (l : List Byte) : List Byte := if on then l.set 1 (l.getD 1 0#8 ||| 1#8) else l
/-- The results of a job as far as they stand; a query without one has a header of its own (R332). -/
def jobResults (j : SJob) (st : Nat) : List Byte :=
  ((List.range j.queries.length).map (fun n => match j.queries[n]? with
    | some q => markClamped (j.flags % 2 == 1) (q.done.getD (resultBytes j n { q with scanned := 0, matched := 0, absent := 0, unread := 0 } st (q.flags ||| (j.flags % 2)) [] 0))
    | none => [])).flatten
/-- Bytes of one result. -/
def resultSize (j : SJob) : Nat := 64 + 16 * j.k
/-- The results that fit whole (R145, R329). -/
def fitted (j : SJob) (l : List Byte) : List Byte := l.take (min j.queries.length (j.room / resultSize j) * resultSize j)
/-- A cancelled job has written any part of what it could have written outside scratch (R332): each byte its old value or the
result's. What it wrote in scratch was settled when it was cancelled (jobPages). -/
def writeAny (d : Dev) (c : Option Nat) (k : OutKind) (a : W64) (l : List Byte) : Dev :=
  if addrTier a = 0 && c.isSome then d else
  (List.range l.length).foldl (fun d i =>
    let (n, d) := d.choose 2
    if n = 0 then d else (d.putBytes c k (a + BitVec.ofNat 64 i) [l.getD i 0#8]).getD d) d
/-- A job ends (R332, R333): its results, then SD and SS, then its event; or the host's completion. -/
def jobDone (d : Dev) (i : Nat) : Dev :=
  match Tab.find d.search.jobs i with
  | none => d
  | some j =>
    if j.cancelled then
      match j.dst with
      | some a => if !j.started || j.sent then d.dropJob i else
        let d := (List.range j.queries.length).foldl (fun d n => (d.modJob i (fun j => { j with handed := Tab.keys j.chans })).mergeQuery i n) d
        let l := ((Tab.find d.search.jobs i).map (fun j => fitted j (jobResults j 0))).getD []
        (d.writeAny j.ctx (jobKind j) a l).dropJob i
      | none => d.dropJob i
    else if !j.started || !j.queries.all (·.done.isSome) then d
    else
      let l := fitted j (jobResults j 0)
      let out : Option Dev := match j.dst with
        | some a => if l.isEmpty || j.sent then some d else d.putBytes j.ctx (jobKind j) a l
        | none => some d
      match out with
      | none => match j.dst with | some a => d.askWrite a l.length | none => d
      | some d =>
        -- results on another node are performed when their replies have come (R333)
        if j.dst.isSome && !l.isEmpty && d.herd.outs.any (fun o => o.2.kind == jobKind j) then d.modJob i (fun j => { j with sent := true }) else
        let d := d.dropJob i
        match j.who with
        | .ctx c id => d.asyncDone c id 0 j.flags 0 (BitVec.ofNat 64 j.gen)
        | .nvme p sq cid => d.nvmeStatus p sq cid 0 j.flags (j.gen / 2 ^ 32) (BitVec.ofNat 32 j.gen) l
        | _ => d

end Dev

end Sys2Proof.Machine
end

