-- ==== Sys2Proof/Machine/Coll.lean ====
section
/-! DEFINITION. The collection service (R313 to R315), appends and deletes (R347 to R350), compaction (R352). -/
namespace Sys2Proof.Machine

namespace Dev

/-- Counts clamps of collection commands and of search fields. -/
def srchClamp (d : Dev) (n : Nat) : Dev := d.countN R.srchClampCnt R.srchEvt F.srchEvt_clampOvf n
/-- Word 6 of a collection command block (Table 12-2). -/
def collWord6 (st flags id : Nat) (cosine : Bool) (tier : Nat) : W64 :=
  BitVec.ofNat 64 (st + flags % 256 * 2 ^ 8 + id % 1024 * 2 ^ 16 + b2n cosine * 2 ^ 26 + tier % 8 * 2 ^ 28 + 2 ^ 63)
/-- Answers a collection command (R313): word 7, words 4 and 5, then word 6 with VALID. What the spec gives an answer no value
for is free (log 5): words holds the values that it gives. -/
def answerColl (d : Dev) (who : Asker) (st flags : Nat) (id : Option Nat) (c : Option Coll) (live : Option Nat) (gen : Bool) : Dev :=
  let (f, d) := d.draw
  let fb := fun (lo w : Nat) => bits64 f lo w
  let w7 := BitVec.ofNat 64 (match c with | some c => (if gen then c.gen else fb 0 48) | none => fb 0 48)
  let w4 := BitVec.ofNat 64 (live.getD (fb 0 41))
  let w5 := BitVec.ofNat 64 (match c with | some c => (if gen then wrapTo 16 c.hshift else fb 0 16) + c.dim * 2 ^ 16 | none => fb 0 29)
  let w6 := collWord6 st flags (id.getD (fb 0 10)) (match c with | some c => c.cosine | none => bit64 f 0) (match c with | some c => c.home | none => fb 1 3)
  match who with
  | .block k a => ((((d.blockPut a 7 w7).blockPut a 4 w4).blockPut a 5 w5).blockPut a 6 w6).irqDone k
  | .nvme p sq cid => d.nvmeStatus p sq cid st flags 0 0#32 (leBytes 8 w4.toNat ++ leBytes 8 w5.toNat ++ leBytes 8 w6.toNat ++ leBytes 8 w7.toNat)
  | _ => d
/-- The use under which a command's scales are fetched. -/
def askUse (who : Asker) : Nat := match who with | .block k _ => 300 + k | .nvme p sq cid => 400 + (p * 65536 + sq) * 65536 + cid | _ => 333
/-- CREATE (R313, R314): for a partition, by a requester. -/
def collCreate (d : Dev) (r : Req) (p : Nat) (ws : List W64) (who : Asker) (fl : Nat) : Dev :=
  let w := ws.getD 0 0#64
  let kind := bits64 w 18 2
  let t0 := bits64 w 20 3
  let t := if t0 = 1 ∨ t0 = 2 ∨ t0 = 3 then t0 else 3
  let n0 := bits64 w 23 13
  let n := min 4096 (max 16 (ceilDiv n0 16 * 16))
  let a0 := ws.getD 1 0#64
  let a1 := BitVec.ofNat 64 (alignDown a0.toNat 4)
  -- the scales' words are clamped one by one, with one clamp for the operand (R74)
  let p0 := d.clampSteps r false noT4 a1 4
  let pl : Place := if p0.kinds.contains 2 then { p0 with off := addrOff a1 }
    else if d.isHere p0 && d.tierSize p0.tier < p0.off + 4 * n then { p0 with kinds := p0.kinds ++ [2] } else p0
  let clamps := b2n (2 ≤ kind) + b2n (t != t0) + b2n (n != n0) + b2n (a0 != a1)
  let g := d.grab none (askUse who) (placeAddr pl) (4 * n)
  if !g.1 then g.2.2.2 else
  let d := ((g.2.2.2.doneFetch (d.away (placeAddr pl)) none (askUse who)).noteClamps r pl.kinds a1)
  let ss := (f32s n g.2.2.1).map legalScale
  let bad := b2n (ss.any (·.2))
  let d := d.srchClamp (clamps + bad)
  let fl := if clamps + bad + pl.kinds.length = 0 then fl else fl ||| 1
  let id := Tab.firstFree d.search.colls 1024 0
  -- the lowest code of the conditions that fail (R17)
  let fails := if 1024 ≤ id then 0x41 else if t = 3 && d.ftl.retired then 0x58 else 0
  match d.roomFor p t 1 with
  | (.full, d) => d.answerColl who 3 fl none none none false
  | (.later, e) => if fails ≠ 0 then d.answerColl who fails fl none none none false else e
  | (.got b, e) =>
    if fails ≠ 0 then d.answerColl who fails fl none none none false
    else
      let d := e
      let (o, d) := d.runObj p t b 1
      let sc := ss.map (·.1)
      let h := normShift sc
      let c : Coll := { part := p, cosine := kind = 1, dim := n, scales := sc, hshift := h, weights := normWeights sc h, home := t, gen := 0, segs := [], nextSeg := 1,
                        views := [⟨0, []⟩], compact := none, retry := false, pend := [], destroyed := false, obj := o + 1 }
      ({ d with search := { d.search with colls := Tab.put d.search.colls id c } } : Dev).answerColl who 0 fl (some id) (some c) none true
/-- The collection that a command of a partition names; 16 reaches every partition's. -/
def collNamed (d : Dev) (p l : Nat) : Option Coll :=
  (Tab.find d.search.colls l).bind (fun c => if !c.destroyed && (c.part = p || p = 16) then some c else none)
/-- A change that does not become published is answered (Table 13-2): OK, count 0, one clamp. -/
def dropChange (d : Dev) (g : Nat) (q : PendChange) : Dev :=
  match q.who with
  | .ctx c id => (match d.ctx? c with | some _ => (d.modCtx c (fun y => y.clampAt q.pc 1)).trapNow c | none => d).asyncDone c id 0 (q.flags ||| 1) 0 (BitVec.ofNat 64 g)
  | .nvme p sq cid => (d.countN (R.hostClampCnt p) (R.hostEvt p) F.hostEvt_clampOvf 1).nvmeStatus p sq cid 0 (q.flags ||| 1) (g / 2 ^ 32) (BitVec.ofNat 32 g) []
  | _ => d
/-- DESTROY (R313, R315). -/
def collDestroy (d : Dev) (p : Nat) (ws : List W64) (who : Asker) (fl : Nat) : Dev :=
  let l := bits64 (ws.getD 0 0#64) 8 10
  match d.collNamed p l with
  | none => d.answerColl who 0x40 fl (some l) none none false
  | some c =>
    let d := d.modColl l (fun c => { c with destroyed := true, pend := [] })
    (c.pend.foldl (fun d q => d.dropChange c.gen q) d).answerColl who 0 fl (some l) (some c) none false
/-- Live vectors at the current generation. -/
def liveCount (c : Coll) : Nat :=
  match c.views.getLast? with
  | some v => ((viewRecs c v).filter (fun r => r.2.2.live c.gen)).length
  | none => 0
/-- INFO (R313). -/
def collInfo (d : Dev) (p : Nat) (ws : List W64) (who : Asker) (fl : Nat) : Dev :=
  let l := bits64 (ws.getD 0 0#64) 8 10
  match d.collNamed p l with
  | none => d.answerColl who 0x40 fl (some l) none none false
  | some c => d.answerColl who 0 fl (some l) (some c) (some (liveCount c)) true
/-- A collection command of a Chamois core, or with 32 of the Tahr subsystem: OP, after its clamp, must be the row's (Table 12-2). -/
def ccmd (d : Dev) (k : Nat) (a : W64) (op : Nat) (f : Dev → Nat → List W64 → Asker → Nat → Dev) : Dev :=
  let r : Req := if k < 32 then .cham k else .unit 0x10 0
  d.regDo r R.srchCmdLo (fun d =>
    d.withBlock r a (fun e at' ws =>
      let op0 := bits64 (ws.getD 0 0#64) 0 8
      let o := if 1 ≤ op0 ∧ op0 ≤ 3 then op0 else 3
      if o ≠ op then d else f (e.srchClamp (b2n (o != op0))) (d.cmdPart k) ws (.block k at') (b2n (o != op0))))
/-- A destroyed collection with no job left is gone (R315). -/
def collRelease (d : Dev) (l : Nat) : Dev :=
  match Tab.find d.search.colls l with
  | none => d
  | some c =>
    if !c.destroyed || !(d.collJobs l).isEmpty then d else
    let d : Dev := { d with search := { d.search with colls := Tab.del d.search.colls l } }
    (c.objs.filter (· ≠ 0)).foldl (fun d o => d.freeObj (o - 1)) d

/-! ## Changes (R347 to R350) -/

/-- The largest generation (R354). -/
def lastGen : Nat := 2 ^ 48 - 1
/-- Whey records of a collection's current view. -/
def wheyOf (c : Coll) : Nat :=
  match c.views.getLast? with
  | some v => (v.segs.map (fun s => match Tab.find c.segs s with | some g => (if g.whey then g.recs.length else 0) | none => 0)).foldl (· + ·) 0
  | none => 0
/-- Whey records of every segment that stands (SRCH_WHEY_CNT). -/
def wheyAll (c : Coll) : Nat := (c.segs.map (fun g => if g.2.whey then g.2.recs.length else 0)).foldl (· + ·) 0
/-- An ID that the current generation holds live. -/
def isLive (c : Coll) (i : Nat) : Bool :=
  match c.views.getLast? with
  | some v => (viewRecs c v).any (fun r => r.2.2.id == i && r.2.2.live c.gen)
  | none => false
/-- Sets the tombstone of some IDs' live records, in every segment and in the copies of a compaction. -/
def bury (c : Coll) (ids : List Nat) (g : Nat) : Coll :=
  { c with segs := c.segs.map (fun s => (s.1, { s.2 with recs := s.2.recs.map (fun r => if ids.contains r.id && r.dead.isNone then { r with dead := some g } else r) })) }
/-- Answers a change with its status, the generation and the count. -/
def answerChange (d : Dev) (q : PendChange) (st g n : Nat) : Dev :=
  match q.who with
  | .ctx c id => d.asyncDone c id st q.flags n (BitVec.ofNat 64 g)
  | .nvme p sq cid => d.nvmeStatus p sq cid st q.flags (g / 2 ^ 32) (BitVec.ofNat 32 g) []
  | _ => d
/-- A generation has been published (R354): of a collection homed in tier 3 the journal says so (R410). -/
def atGen (d : Dev) (l g : Nat) : Dev :=
  let d := d.modColl l (fun c => { c with gen := g })
  let d := if ((Tab.find d.search.colls l).map (·.home)) = some 3 then d.jot .publish l else d
  if g = lastGen then d.setFld R.srchSelEvt F.srchSelEvt_readOnly 1 else d
/-- The last record of each ID (R348). -/
def lastOfId (rs : List VRec) : List VRec := (List.range rs.length).filterMap (fun i => match rs[i]? with
  | some r => if (rs.drop (i + 1)).any (fun s => s.id == r.id) then none else some r
  | none => none)
/-- Writes records one behind the other into a new object. -/
def putRecs (d : Dev) (t b dim : Nat) (rs : List VRec) : Dev :=
  (List.range rs.length).foldl (fun d i => match rs[i]? with | some r => d.lwrite t (b + i * (24 + dim)) r.bytes | none => d) d
/-- A whey chunk of an append: none where it must wait; some none where there is no room. -/
def storeRecs (d : Dev) (c : Coll) (rs : List VRec) : Option (Option Nat × Dev) :=
  match d.roomFor c.part c.home (rs.length * (24 + c.dim)) with
  | (.later, _) => none
  | (.full, e) => some (none, e)
  | (.got b, e) =>
    if !e.lcanWrite c.home b (rs.length * (24 + c.dim)) then none else
    let (o, e) := e.runObj c.part c.home b (rs.length * (24 + c.dim))
    some (some o, e.putRecs c.home b c.dim rs)
/-- Publishes one of the changes that wait on a collection (R347, R348, R547): which of them comes next is not stated. -/
def publishOne (d : Dev) (l : Nat) : Dev :=
  match Tab.find d.search.colls l with
  | none => d
  | some c =>
    if c.pend.isEmpty || c.destroyed then d else
    let (i, d1) := d.choose c.pend.length
    match c.pend[i]? with
    | none => d
    | some q =>
      let d1 := d1.modColl l (fun c => { c with pend := c.pend.eraseIdx i })
      let g := c.gen + 1
      let last := lastGen ≤ c.gen
      match q.change with
      | .delete ids =>
        let hit := (ids.eraseDups).filter (isLive c)
        if last then d1.answerChange q 6 lastGen 0
        else if hit.isEmpty then d1.answerChange q 0 c.gen 0
        else ((d1.modColl l (fun c => bury c hit g)).atGen l g).answerChange q 0 g hit.length
      | .append recs =>
        let rs := (lastOfId recs).map (fun r => { r with gen := g })
        -- the lowest code of the conditions that fail (R17): no room, no generation, no flash to write
        let other := if last then some (d1.answerChange q 6 lastGen 0) else if c.home = 3 && d.ftl.retired then some (d1.answerChange q 0x58 c.gen 0) else none
        if rs.isEmpty then (if last then d1.answerChange q 6 lastGen 0 else d1.answerChange q 0 c.gen 0)
        else if 0xFFFFFFFF < wheyOf c + rs.length then d1.answerChange q 3 c.gen 0
        else
          match d1.storeRecs c rs with
          | none => other.getD d
          | some (none, e) => e.answerChange q 3 c.gen 0
          | some (some o, e) =>
            other.getD (
              let e := e.modColl l (fun c =>
                let c := bury c (rs.map (·.id)) g
                { c with segs := Tab.put c.segs c.nextSeg ⟨o + 1, true, rs⟩, nextSeg := c.nextSeg + 1,
                         views := (List.range c.views.length).filterMap (fun i => (c.views[i]?).map (fun v => if i + 1 = c.views.length then { v with segs := v.segs ++ [c.nextSeg] } else v)) })
              (e.atGen l g).answerChange q 0 g rs.length)

/-! ## Compaction (R352, Table 13-3) -/

/-- Main segments whose tombstones reach the trigger at the current generation. -/
def tombSegs (c : Coll) (tomb : Nat) : List Nat :=
  match c.views.getLast? with
  | some v => v.segs.filter (fun s => match Tab.find c.segs s with
    | some g => !g.whey && !g.recs.isEmpty && tomb * g.recs.length ≤ 256 * (g.recs.filter (fun r => r.dead.isSome)).length
    | none => false)
  | none => []
/-- Starts a compaction (steps 1 and 2): the records to fold are copied into a new segment. -/
def compactStart (d : Dev) (l : Nat) : Dev :=
  match Tab.find d.search.colls l with
  | none => d
  | some c =>
    let tomb := d.fld R.srchCompactCtrl F.srchCompactCtrl_tomb
    let olds := tombSegs c tomb
    let trig := (d.reg R.srchWheyThresh).toNat ≤ wheyOf c || !olds.isEmpty
    if !d.flag R.srchCompactCtrl F.srchCompactCtrl_en || !trig || c.compact.isSome || c.destroyed || 8 ≤ c.views.length || lastGen - 1 ≤ c.gen then d else
    let wheys := match c.views.getLast? with
      | some v => v.segs.filter (fun s => ((Tab.find c.segs s).map (·.whey)).getD false)
      | none => []
    let chosen := olds ++ wheys
    let rs := (viewRecs c ⟨0, chosen⟩).filterMap (fun r => if r.2.2.live c.gen then some r.2.2 else none)
    let set := fun (d : Dev) (o : Nat) => d.modColl l (fun c => { c with compact := some ⟨c.gen, chosen, c.nextSeg⟩, retry := false, segs := Tab.put c.segs c.nextSeg ⟨o, false, rs⟩, nextSeg := c.nextSeg + 1 })
    if rs.isEmpty then set d 0 else
    match d.storeRecs c rs with
    | none => d
    | some (none, e) => (e.setFld R.srchSelEvt F.srchSelEvt_compactFail 1).modColl l (fun c => { c with retry := true })
    | some (some o, e) => set e (o + 1)
/-- Publishes a compaction (steps 3 to 6): the new view. -/
def compactPublish (d : Dev) (l : Nat) : Dev :=
  match Tab.find d.search.colls l with
  | none => d
  | some c =>
    match c.compact with
    | none => d
    | some k =>
      if c.destroyed then d else
      -- at the last generation compaction no longer runs (R354): what it copied is given up
      if lastGen ≤ c.gen then d.modColl l (fun c => { c with compact := none }) else
      let g := c.gen + 1
      let keep := ((c.views.getLast?).map (·.segs)).getD []
      let v : CView := ⟨g, (keep.filter (fun s => !k.chosen.contains s)) ++ [k.new]⟩
      let d := (d.modColl l (fun c => { c with compact := none, views := c.views ++ [v] })).atGen l g
      (d.count R.srchCompactCnt R.srchSelEvt F.srchSelEvt_compactOvf).pruneViews l
/-- Releases the segments that no view holds any more (step 7, R353): they are set to 0. -/
def compactRelease (d : Dev) (l : Nat) : Dev :=
  let d := d.pruneViews l
  match Tab.find d.search.colls l with
  | none => d
  | some c =>
    let used := fun (s : Nat) => c.views.any (fun v => v.segs.contains s) || (c.compact.map (·.new)) == some s
    let out := c.segs.filter (fun s => !used s.1)
    let d := d.modColl l (fun c => { c with segs := c.segs.filter (fun s => used s.1) })
    out.foldl (fun d s => if s.2.obj = 0 then d else
      (match Tab.find d.tier.objs (s.2.obj - 1) with | some o => d.zeroRange o.tier o.base o.size | none => d).freeObj (s.2.obj - 1)) d

/-! ## Issue of changes by contexts and the host -/

/-- Puts a change in line for its publish. -/
def addChange (d : Dev) (l : Nat) (q : PendChange) : Dev := d.modColl l (fun c => { c with pend := c.pend ++ [q] })
/-- What the registers of the selected collection read as (R355). -/
def srchReg (d : Dev) (r : Req) (a : Nat) : Option W32 :=
  let c := (Tab.find d.search.colls (d.fld R.srchCollSel F.srchCollSel_coll)).bind (fun c => match r.part d with
    | some p => if c.part = p then some c else none
    | none => some c)
  let v := fun (f : Coll → Nat) => some (BitVec.ofNat 32 ((c.map f).getD 0))
  if a = R.srchColl then some (BitVec.ofNat 32 d.search.colls.length)
  else if a = R.srchGenLo then v (fun c => c.gen % 2 ^ 32)
  else if a = R.srchGenHi then v (fun c => c.gen / 2 ^ 32)
  else if a = R.srchCollState then v (fun c => b2n (!c.destroyed) + b2n (c.gen == lastGen) * 2 + b2n c.compact.isSome * 4 + c.views.length * 16 + ((d.collJobs (d.fld R.srchCollSel F.srchCollSel_coll)).filter (·.2.started)).length * 65536)
  else if a = R.srchWheyCnt then v wheyAll
  else none

end Dev

/-- COLL_CREATE (R312 to R314). -/
def execCollCreate (k : Fin 32) (a : W64) (s : State) : Out :=
  .next (s.onDev (fun d => d.ccmd k a 1 (fun d p ws who fl => d.collCreate (.cham k) (if p = 16 then bits64 (ws.getD 0 0#64) 36 4 else p) ws who fl)))
/-- COLL_DESTROY (R313, R315). -/
def execCollDestroy (k : Fin 32) (a : W64) (s : State) : Out :=
  .next (s.onDev (fun d => d.ccmd k a 2 (fun d p ws who fl => d.collDestroy p ws who fl)))
/-- COLL_INFO (R313). -/
def execCollInfo (k : Fin 32) (a : W64) (s : State) : Out :=
  .next (s.onDev (fun d => d.ccmd k a 3 (fun d p ws who fl => d.collInfo p ws who fl)))
/-- COLLECTION_RELEASE (R315). -/
def execCollectionRelease (l : BitVec 10) (s : State) : Out := .next (s.onDev (fun d => d.collRelease l.toNat))
/-- SEARCH_JOB_START (R323, R326, R349, R353, R548). -/
def execSearchJobStart (j : BitVec 32) (s : State) : Out := .next ((s.onDev (fun d => d.startJob j.toNat)).settled)
/-- ORYX_PASS (R320, R321, R324, R327, R339). -/
def execOryxPass (ch : Fin 128) (j : BitVec 32) (s : State) : Out := .next ((s.onDev (fun d => d.oryxPass ch j.toNat)).settled)
/-- RESELECT (R339, R341). -/
def execReselect (j : BitVec 32) (i : BitVec 12) (s : State) : Out := .next (s.onDev (fun d => d.reselectSlot j.toNat i.toNat))
/-- ORYX_PASS_COMPLETE (R340). -/
def execOryxPassComplete (ch : Fin 128) (s : State) : Out := .next (s.onDev (fun d => d.passDone ch))
/-- PARTIAL_LIST_MERGE (R338, R342, R343). -/
def execPartialListMerge (j : BitVec 32) (i : BitVec 12) (s : State) : Out := .next ((s.onDev (fun d => d.mergeQuery j.toNat i.toNat)).settled)
/-- SEARCH_JOB_COMPLETE (R329, R330, R332, R333). -/
def execSearchJobComplete (j : BitVec 32) (s : State) : Out := .next ((s.onDev (fun d => d.jobDone j.toNat)).settled)
/-- LARGE_K_RESELECT (R344). -/
def execLargeKReselect (j : BitVec 32) (s : State) : Out := .next (s.onDev (fun d => d.largeReselect j.toNat))
/-- GENERATION_PUBLISH (R347, R348, R350, R354, R547). -/
def execGenerationPublish (l : BitVec 10) (s : State) : Out := .next (s.onDev (fun d => d.publishOne l.toNat))
/-- COMPACTION_START (R352). -/
def execCompactionStart (l : BitVec 10) (s : State) : Out := .next (s.onDev (fun d => d.compactStart l.toNat))
/-- COMPACTION_PUBLISH (Table 13-3 steps 3 to 6). -/
def execCompactionPublish (l : BitVec 10) (s : State) : Out := .next (s.onDev (fun d => d.compactPublish l.toNat))
/-- COMPACTION_RELEASE (Table 13-3 step 7, R353). -/
def execCompactionRelease (l : BitVec 10) (s : State) : Out := .next (s.onDev (fun d => d.compactRelease l.toNat))
/-- COMPACTION_RETRY (R352): a compaction that found no room starts again. -/
def execCompactionRetry (l : BitVec 10) (s : State) : Out :=
  .next (s.onDev (fun d => if ((Tab.find d.search.colls l.toNat).map (·.retry)).getD false then d.compactStart l.toNat else d))
/-- ORYX_ENABLE_WRITE (R326, R335). -/
def execOryxEnableWrite (r : Req) (ch : Fin 128) (v : W32) (s : State) : Out :=
  .next (s.onDev (fun d => d.regDo r (R.oryxCtrl ch) (fun d => d.setFld (R.oryxCtrl ch) F.oryxCtrl_en (getF v F.oryxCtrl_en))))

end Sys2Proof.Machine
end

