-- ==== Sys2Proof/Machine/Array.lean ====
section
/-! DEFINITION. The stop of a core (R167, R170, R171), writes of the PART and CHAM registers (R219 to R222), steals and swaps (R232,
R233). -/
namespace Sys2Proof.Machine

namespace Dev

/-- KUDU_CTRL.RUN is cleared: the core begins to stop (R167). -/
def coreStop (d : Dev) (k : Nat) : Dev :=
  (d.setFld (R.kuduCtrl k) F.kuduCtrl_run 0).modCore k (fun y => { y with stopping := y.stopping || d.flag (R.kuduCtrl k) F.kuduCtrl_run })
/-- The stop ends: completed results are written, STOPPED is set (R167). -/
def coreStopped (d : Dev) (k : Nat) : Dev :=
  if !(d.core k).stopping || d.isFenced (unitId 1 k) then d else
  let d := match (d.core k).cur with | some c => d.mmStop c | none => d
  (d.setFld (R.kuduStatus k) F.kuduStatus_stopped 1).modCore k (fun y => { y with stopping := false })
/-- KUDU_CTRL.RUN is set: a core that has not stopped goes on, a stopped one runs again (R167, R170). -/
def coreRun (d : Dev) (k : Nat) : Dev :=
  let e := ((d.setFld (R.kuduCtrl k) F.kuduCtrl_run 1).setFld (R.kuduStatus k) F.kuduStatus_stopped 0).modCore k (fun y => { y with stopping := false })
  if d.flag (R.kuduStatus k) F.kuduStatus_stopped then e.mmGo k else e
/-- A register write to the scale file (R171): ignored until the core has stopped. -/
def scaleWrite (d : Dev) (k e : Nat) (hi : Bool) (v : W32) : Dev :=
  if !d.flag (R.kuduStatus k) F.kuduStatus_stopped then d else
  let w := splitScale (d.scaleAt k e)
  d.setScale k e (joinScale (if hi then (w.1, v) else (v, w.2)))

/-! ## Writes of the PART and CHAM registers (R219 to R222, R239, R240) -/

/-- A write of PART_KUDU_OWN (R221). -/
def kuduOwnWrite (d : Dev) (k : Nat) (v : W32) : Dev :=
  let o := getF v F.partKuduOwn_owner
  let o' := if o < 16 then o else 31
  let d := (d.partClamp (b2n (o != o'))).setFld (R.partKuduOwn k) F.partKuduOwn_owner o'
  if o' = d.kuduOwner k then d.setFld (R.partKuduOwn k) F.partKuduOwn_pending 0
  else if (d.core k).resident.isEmpty then d.setFlds (R.partKuduOwn k) [(F.partKuduOwn_effective, o'), (F.partKuduOwn_pending, 0)]
  else d.setFld (R.partKuduOwn k) F.partKuduOwn_pending 1
/-- The new owner of a core takes effect once no context is resident on it (R221). -/
def kuduOwnApply (d : Dev) (k : Nat) : Dev :=
  if !d.flag (R.partKuduOwn k) F.partKuduOwn_pending || !(d.core k).resident.isEmpty then d
  else d.setFlds (R.partKuduOwn k) [(F.partKuduOwn_effective, d.fld (R.partKuduOwn k) F.partKuduOwn_owner), (F.partKuduOwn_pending, 0)]
/-- A write of PART_CHAM_OWN (R221): it waits for the core's next trap. -/
def chamOwnWrite (d : Dev) (n : Nat) (v : W32) : Dev :=
  let o := getF v F.partChamOwn_owner
  let o' := if o ≤ 16 then o else 31
  let d := (d.partClamp (b2n (o != o'))).setFld (R.partChamOwn n) F.partChamOwn_owner o'
  d.setFld (R.partChamOwn n) F.partChamOwn_pending (b2n (o' != d.chamOwner n))
/-- A Chamois core executes: not halted, not fenced. -/
def chamRuns (d : Dev) (n : Nat) : Bool := !d.flag (R.chamCtrl n) F.chamCtrl_halt && !d.isFenced (unitId 2 n)
/-- A Chamois core takes a trap that is due (R221, R240): TRAP clears, the requested owner takes effect. -/
def chamTrapTake (d : Dev) (n : Nat) : Dev :=
  if !d.flag (R.chamCtrl n) F.chamCtrl_trap || !d.chamRuns n then d else
  (d.setFld (R.chamCtrl n) F.chamCtrl_trap 0).setFlds (R.partChamOwn n) [(F.partChamOwn_effective, d.fld (R.partChamOwn n) F.partChamOwn_owner), (F.partChamOwn_pending, 0)]
/-- A write of CHAM_CTRL: HALT as written, TRAP set where a 1 is written (R240). -/
def chamCtrlWrite (d : Dev) (n : Nat) (v : W32) : Dev :=
  let d := d.setFld (R.chamCtrl n) F.chamCtrl_halt (getF v F.chamCtrl_halt)
  (if getF v F.chamCtrl_trap = 1 then d.setFld (R.chamCtrl n) F.chamCtrl_trap 1 else d).chamTrapTake n
/-- Partitions whose PRIV is 1. -/
def privCount (d : Dev) : Nat := ((List.range 16).filter (fun p => d.isPriv p)).length
/-- ADDR_PRIV shows the PRIV bits (R219). -/
def copyPriv (d : Dev) : Dev := d.setFld R.addrPriv F.addrPriv_priv (((List.range 16).filter (fun p => d.isPriv p)).foldl (fun m p => m + 2 ^ p) 0)
/-- A write of PART_CFG (R219). -/
def partCfgWrite (d : Dev) (p : Nat) (v : W32) : Dev :=
  let pv := getF v F.partCfg_priv
  let no := pv == 1 && !d.isPriv p && decide (4 ≤ d.privCount)
  let sl := getF v F.partCfg_slice
  let sl' := clampTo 1 1000 sl
  ((d.partClamp (b2n no + b2n (sl != sl'))).setFlds (R.partCfg p) [(F.partCfg_enable, getF v F.partCfg_enable), (F.partCfg_priv, if no then 0 else pv), (F.partCfg_scrCkpt, getF v F.partCfg_scrCkpt), (F.partCfg_slice, sl')]).copyPriv
/-- A write of PART_ORYX (R220): the sum of the reservations stays within 8,192. -/
def partOryxWrite (d : Dev) (p : Nat) (v : W32) : Dev :=
  let others := (((List.range 16).filter (· ≠ p)).map (fun q => d.fld (R.partOryx q) F.partOryx_slots)).foldl (· + ·) 0
  let n := getF v F.partOryx_slots
  let n' := min n (8192 - others)
  (d.partClamp (b2n (n != n'))).setFld (R.partOryx p) F.partOryx_slots n'

/-! ## Steals and swaps (R232, R233) -/

/-- The contexts that a core may steal (R232). -/
def stealable (d : Dev) (k : Nat) : List (Nat × Ctx) :=
  let p := d.kuduOwner k
  if !(d.placeCores p).contains k || (d.core k).resident.any (fun c => match d.ctx? c with | some x => runnable x | none => false) then [] else
  (d.ctxsOf p).filter (fun c => c.2.st = .savedRunnable &&
    (if c.2.ran then c.2.core / 32 == k / 32 else match d.bestCore c.1 c.2 (d.placeCores p) with | some j => j / 32 == k / 32 | none => false))
/-- A core without work takes the stealable context of highest deficit (R232). -/
def steal (d : Dev) (k : Nat) : Dev :=
  match d.byDeficit (d.stealable k) with
  | [] => d
  | c :: _ =>
    let e := d.placeOn k c.1 []
    if (e.core k).cur = some c.1 then e.count R.partStealCnt R.partEvt F.partEvt_stealOvf else d
/-- The blocked context that has waited longest, ties by lower ID (R233). -/
def longest (l : List (Nat × Ctx)) : Option (Nat × Ctx) :=
  match l with
  | [] => none
  | a :: r => some (r.foldl (fun b c => if c.2.blockedAt < b.2.blockedAt then c else b) a)
/-- Saves blocked residents in order until a context fits: at least one. -/
def swapRoom : Nat → Dev → Nat → Nat → Bool → Dev
  | 0, d, _, _, _ => d
  | n + 1, d, k, need, first =>
    if !first && d.hasRoom k need then d else
    match longest (d.ctxs.filter (fun c => (d.core k).resident.contains c.1 && c.2.st = .residentBlocked)) with
    | none => d
    | some c => swapRoom n (d.preempt c.1) k need false
/-- Swaps on a core whose residents are all blocked (R233). -/
def swap (d : Dev) (k : Nat) : Dev :=
  let p := d.kuduOwner k
  let res := (d.core k).resident
  if res.isEmpty || !(d.placeCores p).contains k || !res.all (fun c => match d.ctx? c with | some x => x.st = .residentBlocked | none => false) then d else
  let ks := d.placeCores p
  let cand := (d.ctxsOf p).filter (fun c => c.2.st = .savedRunnable && !ks.any (fun j => (d.stealable j).any (fun s => s.1 == c.1)))
  match d.byDeficit cand with
  | [] => d
  | c :: _ => ((swapRoom 16 d k c.2.allot true).placeOn k c.1 []).count R.partSwapCnt R.partEvt F.partEvt_swapOvf

/-- Restores a saved context that is placed on a core, and runs it where the core has nothing placed (R235). -/
def restoreOn (d : Dev) (k c : Nat) : Dev :=
  match d.ctx? c with
  | none => d
  | some x =>
    if x.st ≠ .savedRunnable || !(d.placeCores x.part).contains k || !d.hasRoom k x.allot then d else
    let d := d.restore k c
    if (d.core k).cur.isNone then d.switchTo k c else d
/-- Switches a core to another of its resident contexts (R227). -/
def switchOn (d : Dev) (k c : Nat) : Dev :=
  match d.ctx? c with
  | none => d
  | some x =>
    if !(d.core k).resident.contains c || (d.core k).cur = some c || x.st ≠ .residentRunnable || d.isFenced (unitId 1 k) then d else d.switchTo k c

end Dev

end Sys2Proof.Machine
end

