-- ==== Sys2Proof/Machine/CtxReg.lean ====
section
/-! DEFINITION. What the PART registers of a context and of a partition read as (Tables 09-5c to 09-5i), and the write of a
context's share. -/
namespace Sys2Proof.Machine

namespace Dev

/-- The pending reply slots of a context (Table 09-3): one for each beat that waits, one for its scalar access. -/
def pendingSlots (x : Ctx) : Nat :=
  let p := x.slots.filter (fun s => Dev.Slot.pending s)
  min 256 (x.beats.filter (fun b => b.tags.any (fun g => p.any (·.tag == g)))).length + b2n (p.any (fun s => !x.beats.any (fun b => b.tags.contains s.tag)))
/-- PART_CTX_STATE of a context; 0 for a FREE one. -/
def ctxStateReg (d : Dev) (c : Nat) : Nat :=
  match d.ctx? c with
  | none => 0
  | some x => x.st.code + x.part * 16 + x.core * 256 + pendingSlots x * 2 ^ 14
/-- PART_CTX_WIN of a context. -/
def ctxWinReg (d : Dev) (c : Nat) : Nat := ((d.ctx? c).map (fun x => min 0xFFFFFFFF (windowOf x / 1024))).getD 0
/-- PART_CTX_WRAP of a context. -/
def ctxWrapReg (d : Dev) (c : Nat) : Nat := ((d.ctx? c).map (·.wraps)).getD 0
/-- An account of a context as the last switch or slice end brought it up to date (R228). -/
def ctxAcc (d : Dev) (c a : Nat) : Nat := ((d.ctx? c).map (fun x => Tab.getD x.accShown a 0)).getD 0
/-- Writes a context's share (Table 09-5g): 0 becomes 1; it takes effect at the next slice end. -/
def ctxShareWrite (d : Dev) (c v : Nat) : Dev :=
  match d.ctx? c with
  | none => d
  | some _ => (d.partClamp (b2n (v == 0))).modCtx c (fun x => { x with shareNext := max 1 v })
/-- Clears sticky bits of PART_CTX_WRAP. -/
def ctxWrapWrite (d : Dev) (c v : Nat) : Dev := d.modCtx c (fun x => { x with wraps := x.wraps &&& (31 - v % 32) })
/-- PART_INFO of a partition. -/
def partInfo (d : Dev) (p : Nat) : Nat :=
  (d.coresOf p).length + ((List.range 32).filter (fun n => d.chamOwner n = p && !d.isFenced (unitId 2 n))).length * 256 + (d.ctxsOf p).length * 65536
/-- PART_LQ of a partition. -/
def partLq (d : Dev) (p : Nat) : Nat := (Tab.getD d.launchQ p []).length

end Dev

end Sys2Proof.Machine
end

