-- ==== Sys2Proof/Machine/ExecFault.lean ====
section
/-! DEFINITION. The commands of the fault logic and of memory retirement (chapter 17), but reports and scrubs. -/
namespace Sys2Proof.Machine

/-- CORE_STALL_TIMEOUT (R463): a core that holds work has stalled. -/
def execCoreStallTimeout (k : Fin 64) (s : State) : Out :=
  let u := unitId 1 k
  .next (if (s.dev.core k).cur.isNone || s.dev.isFenced u then s
    else (s.onDev (fun d => d.raise ⟨2, 0x0C, u, u, 9, 0#64, 0, false, false, some 0⟩)).settled)

/-- FABRIC_STALL_TIMEOUT (R463): a die's compute fabric has stalled while a core of the die holds work. -/
def execFabricStallTimeout (die : Fin 2) (s : State) : Out :=
  let u := unitId 0x13 die
  let held := (upFrom (32 * die.val) 32).any (fun k => (s.dev.core k).cur.isSome && !s.dev.isFenced (unitId 1 k))
  .next (if !held then s else (s.onDev (fun d => d.raise ⟨2, 0x0C, u, u, 9, 0#64, 0, false, false, some 1⟩)).settled)

/-- FAULT_CAPTURE_ACK (R466). -/
def execFaultCaptureAck (r : Req) (b cls : Fin 3) (s : State) : Out :=
  .next (s.onDev (fun d => d.regDo r (R.fltCapInfo b cls) (fun d => d.setFld (R.fltCapInfo b cls) F.fltCapInfo_valid 0)))

/-- FAULT_INJECT_ARM (R483): KIND 3 is clamped to 0. -/
def execFaultInjectArm (r : Req) (b : Fin 3) (m : BitVec 16) (kind : Fin 4) (s : State) : Out :=
  .next (s.onDev (fun d => d.regDo r (R.fltInj b) (fun d =>
    d.setFlds (R.fltInj b) [(F.fltInj_unit, m.toNat), (F.fltInj_kind, if kind.val = 3 then 0 else kind.val), (F.fltInj_arm, 1)])))

/-- A spare granule of a controller is free: no object holds it, nothing is retired to it (R480). -/
def spareFree (d : Dev) (kind inst g n : Nat) : Bool :=
  let t := Dev.mcTier kind
  !d.tier.objs.any (fun o => o.2.tier == t && (List.range ((o.2.size + 4095) / 4096)).any (fun i =>
      let off := o.2.base + 4096 * i
      ctrlOf t off == (kind, inst) && g ≤ granuleOf t off && granuleOf t off < g + n)) &&
  !d.flt.withheld.any (fun w => w.ctrl == unitId kind inst && w.spare < g + n && g < w.spare + (if w.bank then bankGranules kind else 1))

/-- RET_CMD.GO (R480): the copy from the old place of RET_OLD to the spare of RET_NEW starts, or STATUS says why not. -/
def Dev.retireGo (d : Dev) (lpc : Bool) (i : Nat) : Dev :=
  let kind := if lpc then 4 else 3
  let b := if lpc then R.lpcStatus i else R.hbmcStatus i
  let bank := d.flag (b + 0x20) F.hbmcRetCmd_bank
  let old := d.pair (b + 0x24)
  let spare := d.pair (b + 0x2C)
  let t := Dev.mcTier kind
  let n := if bank then bankGranules kind else 1
  let g := alignDown (granuleOf t old) n
  let h := alignDown (granuleOf t spare) n
  let mine := d.flt.retired.filter (fun x => x.ctrl == unitId kind i)
  let used := (mine.filter (fun x => x.bank == bank)).length
  let cap := if lpc then (if bank then 4 else 256) else (if bank then 8 else 512)
  let st := fun (v : Nat) => d.setFlds (b + 0x20) [(F.hbmcRetCmd_go, 0), (F.hbmcRetCmd_status, v)]
  if d.flt.retiring.any (fun x => x.ctrl == unitId kind i) then d
  else if mine.any (fun x => x.old ≤ g && g < x.old + (if x.bank then bankGranules kind else 1)) then st 4
  else if ctrlOf t old ≠ (kind, i) || ctrlOf t spare ≠ (kind, i) || !spareFree d kind i h n then st 3
  else if cap ≤ used then (st 2).setFld (b + 4) F.hbmcEvt_retFull 1
  else
    let d := (d.setFlds (b + 0x20) [(F.hbmcRetCmd_go, 1), (F.hbmcRetCmd_status, 1)]).withhold ⟨unitId kind i, bank, g, h⟩
    { d with flt := { d.flt with retiring := d.flt.retiring ++ [⟨unitId kind i, bank, g, h⟩] } }

/-- MEMORY_RETIRE (R480): the RET registers take the two offsets and BANK, then GO. -/
def execMemoryRetire (r : Req) (lpc : Bool) (i : Fin 16) (bank : Bool) (old spare : W64) (s : State) : Out :=
  let b := if lpc then R.lpcStatus i else R.hbmcStatus i
  .next (s.onDev (fun d => d.regDo r (b + 0x20) (fun d =>
    let d := (d.setPair (b + 0x24) old.toNat).setPair (b + 0x2C) spare.toNat
    (d.setFld (b + 0x20) F.hbmcRetCmd_bank (b2n bank)).retireGo lpc i)))

/-- MEMORY_RETIRE_COMPLETE (R480, R482): the copy is done, the old addresses are remapped, the retirement is recorded. -/
def execMemoryRetireComplete (lpc : Bool) (i : Fin 16) (s : State) : Out :=
  let kind := if lpc then 4 else 3
  let b := if lpc then R.lpcStatus i else R.hbmcStatus i
  .next (match s.dev.flt.retiring.find? (fun x => x.ctrl == unitId kind i) with
    | none => s
    | some x =>
      let s := s.onDev (fun d => (Dev.addRetired { d with flt := { d.flt with retiring := d.flt.retiring.filter (· ≠ x) } } x).setFlds (b + 0x20)
        [(F.hbmcRetCmd_go, 0), (F.hbmcRetCmd_status, 0)])
      s.onAon (fun a => { a with retired := a.retired ++ [x] }))

end Sys2Proof.Machine
end

