-- ==== Sys2Proof/Machine/HerdEnum.lean ====
section
/-! DEFINITION. Enumeration of a Herd domain (R286 to R289). The spec gives the contents of the link-management messages and not
their layout, nor how a message reaches a device that has no node ID: the layouts below, and the path of links that such a
message carries, are the model's (log 36). A path takes the first 16 bytes of the data: the next hop's number, the number of
hops, and a link for each hop, in whose place each device puts the link on which the message came. -/
namespace Sys2Proof.Machine

namespace Dev

/-- The unit serial of this device (R286). -/
def mySerial (_ : Dev) : W64 := Config.serial
/-- This device may be root. -/
def isRootCfg (d : Dev) : Bool := d.flag R.dirCfg F.dirCfg_root
/-- DIR_ENUM.STATE. -/
def enumSt (d : Dev) : Nat := d.fld R.dirEnum F.dirEnum_state
/-- Sets DIR_ENUM.STATE. -/
def setEnumSt (d : Dev) (v : Nat) : Dev := d.setFld R.dirEnum F.dirEnum_state v
/-- The lowest serial of a root that this device knows of (R287). -/
def lowRoot (d : Dev) : Option W64 :=
  match d.herd.rootSerial with
  | some r => if d.isRootCfg && d.mySerial.toNat < r.toNat then some d.mySerial else some r
  | none => if d.isRootCfg then some d.mySerial else none
/-- Bytes padded to whole units. -/
def padUnits (l : List Byte) : List Byte := l ++ List.replicate ((16 - l.length % 16) % 16) 0#8
/-- Puts a link-management message on a link. -/
def lmp (d : Dev) (h opc tag : Nat) (addr : W64) (data : List Byte) : Dev := d.pushTx h none ⟨opc, 0, d.nodeId, tag, false, false, addr, padUnits data⟩
/-- Sends a link-management message along a path. -/
def lmpPath (d : Dev) (opc tag : Nat) (addr : W64) (path : List Nat) (pay : List Byte) : Dev :=
  match path with
  | [] => d
  | h :: _ => d.lmp h opc tag addr ((leBytes 1 1 ++ leBytes 1 path.length ++ (path.take 14).map (BitVec.ofNat 8 ·) ++ List.replicate (14 - path.length) 0#8) ++ pay)

/-- The contents of HELLO (R286): of the roots, its domain's where it belongs to one, else the lowest that it knows of. -/
def helloData (d : Dev) (pref : Option Nat) (h : Nat) : List Byte :=
  let root := if d.assigned then d.herd.rootSerial else d.lowRoot
  leBytes 8 d.mySerial.toNat ++
  leBytes 1 (b2n d.isRootCfg + b2n pref.isSome * 2 + b2n (d.assigned && d.herd.routed) * 4 + b2n root.isSome * 8) ++ leBytes 1 h ++
  leBytes 2 (pref.getD 0) ++ leBytes 2 d.nodeId ++ leBytes 2 0 ++ leBytes 8 (root.getD 0#64).toNat ++ leBytes 8 0
/-- Sends HELLO on an UNASSIGNED link (R286). -/
def hello (d : Dev) (pref : Option Nat) (h : Nat) : Dev :=
  if d.linkSt h = 2 then d.lmp h 0x50 0 d.mySerial (d.helloData pref h) else d
/-- Links whose two ends hold assignments and routes of one domain become ACTIVE (Table 11-7a step 6, R289). -/
def activate (d : Dev) : Dev :=
  if !d.assigned || !d.herd.routed then d else
  (List.range 36).foldl (fun d h =>
    let l := d.link h
    if d.linkSt h = 2 && l.peerAssigned && l.peerRoot = d.herd.rootSerial then d.setLinkSt h 3 else d) d

/-- This device's links with the serials at their far ends. -/
def myAdj (d : Dev) : List (Nat × W64) :=
  ((List.range 36).filter (fun h => d.carries h && d.flag (R.hlState h) F.hlState_peerValid)).map (fun h => (h, (d.link h).peerSerial))
/-- The root begins to probe a device reached by a path, unless it knows it. -/
def probe (d : Dev) (s : W64) (path : List Nat) : Dev :=
  if s = d.mySerial || 8 < path.length || d.herd.members.any (fun m => m.serial == s) then d
  else ({ d with herd := { d.herd with members := d.herd.members ++ [⟨s, none, none, path, []⟩], probes := Tab.put d.herd.probes s.toNat 1 } } : Dev).lmpPath 0x51 0 s path []

/-- A move from one device to another leads towards the root (R282). -/
def towardsRoot (a b : Member) : Bool := decide (b.path.length < a.path.length) || (b.path.length == a.path.length && decide (b.serial.toNat < a.serial.toNat))
/-- The links between members: from, link, to, by place in the list. -/
def edges (ms : List Member) : List (Nat × Nat × Nat) :=
  (List.range ms.length).flatMap (fun i => match ms[i]? with
    | none => []
    | some m => m.adj.filterMap (fun e => (ms.findIdx? (fun n => n.serial == e.2)).map (fun j => (i, e.1, j))))
/-- One round of a search for distances along some links. -/
def grow (es : List (Nat × Nat × Nat)) (t : Tab Nat) : Tab Nat :=
  es.foldl (fun u e => match Tab.find t e.2.2 with
    | some n => (match Tab.find t e.1, Tab.find u e.1 with
      | none, some k => if n + 1 < k then Tab.put u e.1 (n + 1) else u
      | none, none => Tab.put u e.1 (n + 1)
      | some _, _ => u)
    | none => u) t
/-- The up*/down* routes of every member to one of them (R282): a message goes down where it can, else up. -/
def routesTo (ms : List Member) (es : List (Nat × Nat × Nat)) (dst : Nat) : List (List Nat × Nat) :=
  let up := fun (e : Nat × Nat × Nat) => match ms[e.1]?, ms[e.2.2]? with | some a, some b => towardsRoot a b | _, _ => false
  let downs := es.filter (fun e => !up e)
  let ups := es.filter up
  let dn := (List.range 8).foldl (fun t _ => grow downs t) [(dst, 0)]
  let all := (List.range 8).foldl (fun t _ => grow ups t) dn
  (List.range ms.length).map (fun x => match Tab.find all x with
    | none => ([], 0)
    | some n =>
      let t := if (Tab.find dn x).isSome then dn else all
      let l := if (Tab.find dn x).isSome then downs else ups
      if 8 < n then ([], 0) else (((l.filter (fun e => e.1 == x && (Tab.find t e.2.2).any (fun k => k + 1 == n))).map (·.2.1)).take 4, n))
/-- The route table of each member, by place: node IDs with links and length. -/
def tables (ms : List Member) : List (List (Nat × Route)) :=
  let es := edges ms
  let cols := (List.range ms.length).map (fun j => routesTo ms es j)
  (List.range ms.length).map (fun i => (List.range ms.length).filterMap (fun j => match (ms[j]?).bind (·.id) with
    | none => none
    | some n => let r := (cols.getD j []).getD i ([], 0); some (n, ⟨r.1, r.2⟩)))
/-- DIR_ENUM.NODES: IDs assigned or retired, as known here. -/
def nodeCount (d : Dev) : Dev := d.setFld R.dirEnum F.dirEnum_nodes (d.herd.routes.length + d.herd.retired.length)
/-- Loads route entries; the first of a table replaces the old one, the last completes it (Table 11-7a steps 5 and 6). An entry of 255
hops is a retired ID: the root's table says which are, so that a full re-enumeration frees them at every node (R288, log 79). -/
def loadRoutes (d : Dev) (first last : Bool) (t : List (Nat × Route)) : Dev :=
  let h := d.herd
  let l := t.filter (fun e => e.2.hops != 255)
  let routes := l.foldl (fun t e => Tab.put t e.1 e.2) (if first then [] else h.routes)
  let cut := h.cut.filter (fun n => !l.any (fun e => e.1 == n && (Tab.find h.routes n).isNone))
  let gone := (if first then [] else h.retired) ++ (t.filter (fun e => e.2.hops == 255)).map (·.1)
  let d : Dev := { d with herd := { h with routes := routes, routed := last, cut := cut, retired := gone } }
  if last then ((d.setEnumSt 2).nodeCount).activate else d
/-- A route entry as bytes, and back. -/
def routeBytes (e : Nat × Route) : List Byte := leBytes 2 e.1 ++ leBytes 1 e.2.hops ++ leBytes 1 e.2.links.length ++ (e.2.links.map (BitVec.ofNat 8 ·) ++ List.replicate (4 - e.2.links.length) 0#8)
def routeOf (l : List Byte) : Nat × Route := (leVal (l.take 2) % 4096, ⟨((l.drop 4).take (min 4 (l.getD 3 0#8).toNat)).map (·.toNat % 64), (l.getD 2 0#8).toNat⟩)
/-- Cuts a list into pieces. -/
def chunks {α : Type} : Nat → Nat → List α → List (List α)
  | 0, _, _ => []
  | n + 1, k, l => if l.length ≤ k then [l] else l.take k :: chunks n k (l.drop k)
/-- The root sends every member its routes, and loads its own. -/
def sendRoutes (d : Dev) : Dev :=
  let ms := d.herd.members
  let ts := tables ms
  (List.range ms.length).foldl (fun d i => match ms[i]? with
    | none => d
    | some m =>
      let t := ts.getD i [] ++ d.herd.retired.map (fun n => (n, (⟨[], 255⟩ : Route)))
      if m.id.isNone then d
      else if m.serial = d.mySerial then d.loadRoutes true true t
      else
        let cs := chunks (t.length + 1) 28 t
        (List.range cs.length).foldl (fun d j => d.lmpPath 0x54 0 m.serial m.path (leBytes 1 (b2n (j == 0) + 2 * b2n (j + 1 == cs.length)) ++ leBytes 1 (cs.getD j []).length ++ List.replicate 14 0#8 ++ (cs.getD j []).flatMap routeBytes)) d) d
/-- The ID that the root gives one of the members to be assigned (Table 11-7a step 3): its preferred one where that is free and no lower
serial among them prefers it, else the lowest free one. An ID that two of them prefer is kept for the lower serial (log 79). -/
def idFor (d : Dev) (new : List Member) (m : Member) : Option Nat :=
  let taken := (d.herd.members.filterMap (·.id)) ++ d.herd.retired
  let likes := fun (p : Nat) => new.filter (fun q => q.pref == some p)
  let low := (List.range 4096).find? (fun i => !taken.contains i && (likes i).length < 2)
  match m.pref with
  | some p => if !taken.contains p && !(likes p).any (fun q => q.serial.toNat < m.serial.toNat) then some p else low
  | none => low
/-- Assigns every member that has no ID, in the order reached, and sends the routes. -/
def assignAll (d : Dev) : Dev :=
  let new := d.herd.members.filter (fun m => m.id.isNone)
  let d := new.foldl (fun d m =>
    match d.idFor new m with
    | none => d.lmpPath 0x53 0 m.serial m.path (leBytes 2 0 ++ leBytes 1 1 ++ List.replicate 5 0#8 ++ leBytes 8 d.mySerial.toNat)
    | some i =>
      ({ d with herd := { d.herd with members := d.herd.members.map (fun q => if q.serial = m.serial then { q with id := some i } else q) } } : Dev).lmpPath 0x53 0 m.serial m.path
        (leBytes 2 i ++ leBytes 1 0 ++ List.replicate 5 0#8 ++ leBytes 8 d.mySerial.toNat)) d
  d.sendRoutes
/-- The probes are over: IDs and routes go out. -/
def probesOver (d : Dev) : Dev := if d.herd.probes.isEmpty && d.flag R.dirEnum F.dirEnum_isroot then d.assignAll else d
/-- DIR_CFG.ENUM (R287, R288): taken where ROOT is 1; the device of the lowest serial is the root. -/
def enumStart (d : Dev) (pref : Option Nat) : Dev :=
  if !d.isRootCfg then d
  else if d.lowRoot ≠ some d.mySerial then d.setFld R.dirEnum F.dirEnum_isroot 0
  else
    let i := pref.getD 0
    let d := (d.setFld R.dirEnum F.dirEnum_isroot 1).setEnumSt 1
    let d := d.setFlds R.addrNode [(F.addrNode_nodeId, i), (F.addrNode_assigned, 1)]
    let adj := d.myAdj
    let d : Dev := { d with herd := { d.herd with rootSerial := some d.mySerial, retired := [], probes := [], members := [⟨d.mySerial, pref, some i, [], adj⟩] } }
    (adj.foldl (fun d e => d.probe e.2 [e.1]) d).probesOver
/-- A probe has had no reply for 1 ms (R285): three tries, then the device is left out. -/
def probeTimeout (d : Dev) (s : W64) : Dev :=
  match Tab.find d.herd.probes s.toNat, d.herd.members.find? (fun m => m.serial == s) with
  | some k, some m =>
    if k < 3 then ({ d with herd := { d.herd with probes := Tab.put d.herd.probes s.toNat (k + 1) } } : Dev).lmpPath 0x51 0 s m.path []
    else ({ d with herd := { d.herd with probes := Tab.del d.herd.probes s.toNat, members := d.herd.members.filter (fun m => m.serial != s) } } : Dev).probesOver
  | _, _ => d
/-- A node is gone (R288): it leaves the routes, its ID is retired. -/
def nodeGone (d : Dev) (n : Nat) : Dev :=
  let d : Dev := { d with herd := { d.herd with routes := Tab.del d.herd.routes n, retired := if d.herd.retired.contains n then d.herd.retired else d.herd.retired ++ [n] } }
  ((d.nodeCount).dropNode n).lenderGone n
/-- The root retires a node whose links have all been out of ACTIVE for 1 s, and tells every node (R288). -/
def nodeGoneTimer (d : Dev) (n : Nat) : Dev :=
  if !d.flag R.dirEnum F.dirEnum_isroot || d.enumSt ≠ 2 || n = d.nodeId || !d.herd.members.any (fun m => m.id == some n) then d else
  let d : Dev := { d with herd := { d.herd with members := d.herd.members.filter (fun m => m.id != some n) } }
  let d := d.herd.members.foldl (fun d m => if m.serial = d.mySerial then d else d.lmpPath 0x55 0 m.serial m.path (leBytes 2 n ++ List.replicate 14 0#8)) d
  d.nodeGone n

/-! ## Arrival -/

/-- A message with a path: it goes on, or it is delivered with its payload and the path back. -/
def onPath (d : Dev) (h : Nat) (m : Msg) (f : Dev → List Byte → List Nat → Dev) : Dev :=
  let i := (m.data.getD 0 0#8).toNat
  let n := (m.data.getD 1 0#8).toNat
  let data := m.data.set (2 + (i - 1)) (BitVec.ofNat 8 h)
  if i = 0 || n < i || 14 < n then d.protoErr h
  else if i < n then d.pushTx ((data.getD (2 + i) 0#8).toNat % 36) none { m with data := data.set 0 (BitVec.ofNat 8 (i + 1)) }
  else f d (data.drop 16) (((data.drop 2).take n).map (·.toNat % 36)).reverse
/-- The root learns that a link of a member leads to a device. -/
def learn (d : Dev) (mine : W64) (h : Nat) (s : W64) : Dev :=
  { d with herd := { d.herd with members := d.herd.members.map (fun q => if q.serial = mine && !q.adj.contains (h, s) then { q with adj := q.adj ++ [(h, s)] } else q) } }
/-- HELLO (R286, R288, R289): the far end's identity; a newcomer beside an assigned device is reported to the root. -/
def helloIn (d : Dev) (h : Nat) (m : Msg) : Dev :=
  if m.data.length ≠ 32 then
    d.onPath h m (fun d _ _ => match d.herd.members.find? (fun q => q.serial == m.addr) with
      | some q =>
        let s := BitVec.ofNat 64 (leVal ((m.data.drop 16).take 8))
        if d.flag R.dirEnum F.dirEnum_isroot && d.enumSt = 2 then (d.learn q.serial (m.tag % 36) s).probe s (q.path ++ [m.tag % 36]) else d
      | none => d)
  else
    let b := m.data
    let fl := (b.getD 8 0#8).toNat
    let ser := BitVec.ofNat 64 (leVal (b.take 8))
    let root := if fl.testBit 3 then some (BitVec.ofNat 64 (leVal ((b.drop 16).take 8))) else none
    let d := d.setFlds (R.hlState h) [(F.hlState_peerHl, (b.getD 9 0#8).toNat % 64), (F.hlState_peerValid, 1), (F.hlState_peerNode, leVal ((b.drop 12).take 2) % 4096)]
    let d := d.modLink h (fun l => { l with peerSerial := ser, peerRoot := root, peerAssigned := fl.testBit 2 })
    if d.assigned && d.herd.routed then
      if fl.testBit 2 then d.activate
      else if d.flag R.dirEnum F.dirEnum_isroot then
        if d.enumSt = 2 then (d.learn d.mySerial h ser).probe ser [h] else d
      else d.lmpPath 0x50 h d.mySerial d.herd.rootPath b
    else
      let low := fun (a : Option W64) (b : W64) => match a with | some x => if b.toNat < x.toNat then some b else some x | none => some b
      let r := match root with | some x => low d.herd.rootSerial x | none => d.herd.rootSerial
      let r := if fl.testBit 0 then low r ser else r
      { d with herd := { d.herd with rootSerial := r } }
/-- PROBE (Table 11-7a step 2): the reply lists this device's links with their far-end serials. -/
def probeIn (d : Dev) (pref : Option Nat) (h : Nat) (m : Msg) : Dev :=
  d.onPath h m (fun d _ back =>
    let d : Dev := { d with herd := { d.herd with rootPath := back } }
    let cs := chunks 40 24 d.myAdj
    (List.range cs.length).foldl (fun d j =>
      let c := cs.getD j []
      d.lmpPath 0x52 0 d.mySerial back (leBytes 8 d.mySerial.toNat ++ leBytes 2 (pref.getD 0xFFFF) ++ leBytes 1 (b2n (j + 1 == cs.length)) ++ leBytes 1 c.length ++ List.replicate 4 0#8 ++ c.flatMap (fun e => leBytes 1 e.1 ++ leBytes 8 e.2.toNat))) d)
/-- PROBE_REPLY at the root. -/
def probeReplyIn (d : Dev) (h : Nat) (m : Msg) : Dev :=
  d.onPath h m (fun d b _ =>
    let ser := BitVec.ofNat 64 (leVal (b.take 8))
    match d.herd.members.find? (fun q => q.serial == ser) with
    | none => d
    | some q =>
      if (Tab.find d.herd.probes ser.toNat).isNone then d else
      let pf := leVal ((b.drop 8).take 2)
      let n := (b.getD 11 0#8).toNat
      let es := (List.range n).map (fun i => let e := (b.drop (16 + 9 * i)).take 9; ((e.getD 0 0#8).toNat % 36, BitVec.ofNat 64 (leVal (e.drop 1))))
      let d : Dev := { d with herd := { d.herd with members := d.herd.members.map (fun r => if r.serial = ser then { r with pref := if pf < 4096 then some pf else none, adj := r.adj ++ es } else r) } }
      let d := es.foldl (fun d e => d.probe e.2 (q.path ++ [e.1])) d
      if (b.getD 10 0#8) = 0#8 then d else ({ d with herd := { d.herd with probes := Tab.del d.herd.probes ser.toNat } } : Dev).probesOver)
/-- ASSIGN at a member (Table 11-7a step 4, R289). -/
def assignIn (d : Dev) (h : Nat) (m : Msg) : Dev :=
  d.onPath h m (fun d b back =>
    let d : Dev := { d with herd := { d.herd with rootPath := back } }
    if b.getD 2 0#8 ≠ 0#8 then d.setEnumSt 3
    else
      let d := d.setFlds R.addrNode [(F.addrNode_nodeId, leVal (b.take 2)), (F.addrNode_assigned, 1)]
      ({ d with herd := { d.herd with rootSerial := some (BitVec.ofNat 64 (leVal ((b.drop 8).take 8))) } } : Dev).setFld R.dirEnum F.dirEnum_isroot 0)
/-- ROUTE at a member (Table 11-7a steps 5 and 6). -/
def routeIn (d : Dev) (h : Nat) (m : Msg) : Dev :=
  d.onPath h m (fun d b _ =>
    let fl := (b.getD 0 0#8).toNat
    d.loadRoutes (fl.testBit 0) (fl.testBit 1) ((List.range (b.getD 1 0#8).toNat).map (fun i => routeOf ((b.drop (16 + 8 * i)).take 8))))
/-- NODE_GONE at a member (R288). -/
def nodeGoneIn (d : Dev) (h : Nat) (m : Msg) : Dev := d.onPath h m (fun d b _ => d.nodeGone (leVal (b.take 2) % 4096))

end Dev

end Sys2Proof.Machine
end

