-- ==== Sys2Proof/Machine/Token.lean ====
section
/-! DEFINITION. Expert routing (R300 to R308): the placement and group tables, tokens at their home, rounds, a sender's inbox,
and the gathers of FAB.RECV_TOKENS. -/
namespace Sys2Proof.Machine

/-- An entry of the expert placement table (Table 11-10). -/
structure Expert where
  nrep : Nat
  group : Nat
  cap : Nat
  nodes : List Nat
  deriving DecidableEq, Repr

/-- An entry of the group table (R302), zero values read as stated, a size above the largest as the largest (R14); clamps: how many. -/
structure Group where
  p : Nat
  units : Nat
  mask : W64
  dead : Bool
  clamps : Nat
  deriving DecidableEq, Repr

/-- The token fields of word 1 (Table 11-11). -/
structure TokFld where
  token : Nat
  expert : Nat
  ctx : Nat
  nc : Bool
  replica : Nat
  deriving DecidableEq, Repr

/-- Token fields as word 1, and back. -/
def TokFld.word (t : TokFld) : W64 := BitVec.ofNat 64 (t.token + t.expert * 2 ^ 32 + t.ctx * 2 ^ 48 + b2n t.nc * 2 ^ 60 + t.replica * 2 ^ 61)
def TokFld.of (w : W64) : TokFld := ⟨bits64 w 0 32, bits64 w 32 16, bits64 w 48 12, bit64 w 60, bits64 w 61 2⟩

namespace Dev

/-- The little-endian word at a place of tiers 1 and 2 here; a table in another tier is taken in tier 1 (Table 11-13b). -/
def tableWord (d : Dev) (base : W64) (i : Nat) : Nat :=
  let t := addrTier base
  d.lword (if t = 2 then 2 else 1) (d.memClip (if t = 2 then 2 else 1) (addrOff base + 8 * i)) 8
/-- The entry of an expert, if it is placed (R300). -/
def expertOf (d : Dev) (ex : Nat) : Option Expert :=
  let b := BitVec.ofNat 64 (d.pair R.dirExptLo)
  if b = 0#64 then none else
  let w0 := d.tableWord b (2 * ex)
  let w1 := d.tableWord b (2 * ex + 1)
  if !w0.testBit 0 then none
  else some ⟨bitsOf w0 1 2, bitsOf w0 3 8, bitsOf w0 11 16, (List.range 4).map (fun i => bitsOf w1 (12 * i) 12)⟩
/-- The entry of a group (R302). -/
def groupOf (d : Dev) (g : Nat) : Group :=
  let b := BitVec.ofNat 64 (d.pair R.dirGrpLo)
  let w0 := if b = 0#64 then 0 else d.tableWord b (2 * g)
  let w1 := if b = 0#64 then 0 else d.tableWord b (2 * g + 1)
  let z := fun lo => b2n (bitsOf w0 lo 16 == 0)
  let u := bitsOf w0 32 16
  ⟨max 1 (bitsOf w0 0 16), if u = 0 then 256 else min u 1024, BitVec.ofNat 64 w1, bitsOf w0 0 16 == 0 && w1 == 0, z 0 + z 16 + z 32 + z 48 + b2n (decide (1024 < u))⟩
/-- Counts clamps of group table entries. -/
def dirClamp (d : Dev) (n : Nat) : Dev := d.countN (R.dirClampCnt 0) (R.dirEvt 0) F.dirEvt_clampOvf n
/-- The nodes of a group's mask (R302). -/
def maskNodes (d : Dev) (g : Group) : List Nat :=
  if g.mask = 0#64 then [] else
  (List.range 4096).filter (fun n => (d.tableWord g.mask (n / 64)).testBit (n % 64))

/-! ## Waking and returning -/

/-- The header of a token in memory (Table 05-13). -/
def tokHeader (token ex st node ctx : Nat) : List Byte := leBytes 8 (token + ex * 2 ^ 32 + st * 2 ^ 48) ++ leBytes 8 (node + ctx * 2 ^ 12)
/-- An open round of a group, the oldest. -/
def oldestOpen (d : Dev) (g : Nat) : Option Nat :=
  match d.herd.rounds.filter (fun r => r.group == g && !r.closed) with
  | [] => none
  | r :: l => some (l.foldl (fun b q => if (q.round + 65536 - b) % 65536 < 32768 then b else q.round) r.round)
/-- A round of a group has closed. -/
def roundClosed (d : Dev) (g rd : Nat) : Bool := d.herd.rounds.any (fun r => r.group == g && r.round == rd && r.closed)
/-- A round is behind the rounds that this home holds open, or behind the last that it closed (R305). -/
def roundOld (d : Dev) (g rd : Nat) : Bool :=
  if d.roundClosed g rd then true
  else if d.herd.rounds.any (fun r => r.group == g && r.round == rd) then false
  else match d.oldestOpen g with
    | some o => decide (32768 ≤ (rd + 65536 - o) % 65536)
    | none => match (d.herd.rounds.filter (fun r => r.group == g)).reverse with
      | [] => false
      | r :: _ => decide (32768 ≤ (rd + 65536 - r.round) % 65536)
/-- Tokens of an expert that no gather has taken, of one round. -/
def waiting (d : Dev) (ex : Nat) : List TokIn := d.herd.tokIn.filter (fun t => t.expert == ex && !t.gathered)
/-- The round that a gather of an expert takes (R307): the oldest with tokens, else the oldest open one. -/
def gatherRound (d : Dev) (g ex : Nat) : Option Nat :=
  match d.waiting ex with
  | [] => d.oldestOpen g
  | t :: l => some (l.foldl (fun b q => if (q.round + 65536 - b) % 65536 < 32768 then b else q.round) t.round)
/-- A waiting FAB.RECV_TOKENS has a token to take, or can complete. -/
def gatherReady (d : Dev) (c : Nat) (x : Ctx) (w : W64) (rd : Option Nat) : Bool :=
  if bit64 w 0 then
    match Tab.find d.herd.inboxes c with
    | none => true
    | some b => !b.back.isEmpty || !d.herd.tokOut.any (·.ctx == c)
  else
    let ex := (x.s (bits64 w 22 5)).toNat % 65536
    match d.expertOf ex with
    | none => true
    | some e =>
      match rd.orElse (fun _ => d.gatherRound e.group ex) with
      | none => false
      | some r => (d.waiting ex).any (·.round == r) || d.roundClosed e.group r
/-- Wakes the contexts whose gather can go on (R226). -/
def tokWake (d : Dev) : Dev :=
  d.ctxs.foldl (fun d c => match c.2.wait with
    | .tokens w _ rd => if d.gatherReady c.1 c.2 w rd then d.wake c.1 else d
    | _ => d) d
/-- A token comes back to its sender (R306, R308): its header and data enter the context's inbox. -/
def pushBack (d : Dev) (c : Nat) (hdr data : List Byte) (room : Nat) (bad : Bool := false) : Dev :=
  ({ d with herd := { d.herd with inboxes := Tab.modify d.herd.inboxes c (fun b => { b with back := b.back ++ [(hdr, data, room, bad)] }) } } : Dev)
/-- Drops the receipts request of a send whose receipts are all in. -/
def receiptsIn (d : Dev) (c id : Nat) : Dev :=
  if d.sendPending c id then d
  else { d with herd := { d.herd with outs := d.herd.outs.filter (fun o => o.2.kind != .receipts c id) } }
/-- The token sent that a receipt or reply names. -/
def tokSent (d : Dev) (f : TokFld) : Option TokOut := d.herd.tokOut.find? (fun t => t.ctx == f.ctx && t.token == f.token && t.expert == f.expert)
/-- Changes or drops a token sent. -/
def setSent (d : Dev) (f : TokFld) (st : Option Nat) : Dev :=
  let hit := fun (t : TokOut) => t.ctx == f.ctx && t.token == f.token && t.expert == f.expert
  { d with herd := { d.herd with tokOut := match st with
      | none => d.herd.tokOut.filter (fun t => !hit t)
      | some v => d.herd.tokOut.map (fun t => if hit t then { t with st := v } else t) } }
/-- A RECEIPT for a token of this node (R306). -/
def receiptIn (d : Dev) (f : TokFld) (node die : Nat) : Dev :=
  match d.tokSent f with
  | none => d.late die
  | some t =>
    if t.st = 1 then d.late die
    else if t.st = 2 then (d.setSent f none).receiptsIn t.ctx t.send
    else if f.nc then (((d.setSent f none).pushBack f.ctx (tokHeader f.token f.expert 5 node f.ctx) [] t.bytes).receiptsIn t.ctx t.send).tokWake
    else (d.setSent f (some 1)).receiptsIn t.ctx t.send
/-- A TOKEN_REPLY for a token of this node (R308); poisoned data stays so until it is gathered (R457). -/
def returnIn (d : Dev) (f : TokFld) (node die : Nat) (data : List Byte) (bad : Bool) : Dev :=
  match d.tokSent f with
  | none => d.late die
  | some t =>
    if t.st = 2 then d.late die
    else
      let d := d.setSent f (if t.st = 0 then some 2 else none)
      (d.pushBack f.ctx (tokHeader f.token f.expert (if f.nc then 5 else 0) node f.ctx) (if f.nc then [] else data.take t.bytes) t.bytes (bad && !f.nc)).tokWake

/-! ## The home of an expert -/

/-- Binds an expert to a partition with its inbox (R307): none where the inbox cannot be made. The replicas that this node homes are
bound together, with room for each (log 41). -/
def bindExpert (d : Dev) (ex p : Nat) (e : Expert) (u : Nat) : Dev :=
  if 262144 ≤ d.tier.objs.length then d else
  let size := roundSize 2 (((e.nodes.take (e.nrep + 1)).filter (· == d.nodeId)).length * (4 * e.cap * (16 + 16 * u)))
  match d.alloc p 2 size 0 with
  | (.got b, d) =>
    let (i, d) := d.placeObj (newObj p 2 b size 0 false 0 0#64 .plain 1)
    { d with herd := { d.herd with bound := Tab.put d.herd.bound ex ⟨p, i, size⟩ } }
  | (_, d) => d
/-- Binds an expert when its first token comes: to which enabled partition is the run-time's choice (log 41). -/
def autoBind (d : Dev) (ex : Nat) (e : Expert) (u : Nat) : Dev :=
  if (Tab.find d.herd.bound ex).isSome then d else
  let ps := (List.range 16).filter (fun p => d.flag (R.partCfg p) F.partCfg_enable)
  if ps.isEmpty then d else
  let (i, d) := d.choose ps.length
  d.bindExpert ex (ps.getD i 0) e u
/-- Closes a round (R305). -/
def closeRound (d : Dev) (g rd : Nat) : Dev :=
  ({ d with herd := { d.herd with rounds := d.herd.rounds.map (fun r => if r.group = g && r.round = rd then { r with closed := true } else r) } } : Dev).tokWake
/-- Opens a round at its first TOK message; a fifth closes the oldest first (R305). Closed rounds are kept as long as they may
tell a late message. -/
def openRound (d : Dev) (g rd : Nat) : Dev :=
  if d.herd.rounds.any (fun r => r.group == g && r.round == rd) then d else
  let d := if 4 ≤ (d.herd.rounds.filter (fun r => r.group == g && !r.closed)).length then (match d.oldestOpen g with | some o => d.closeRound g o | none => d) else d
  let old := d.herd.rounds.filter (fun r => !(r.group == g && r.closed && decide (32768 ≤ (r.round + 65536 - rd + 8) % 65536) && !d.herd.tokIn.any (fun t => t.group == g && t.round == r.round)))
  { d with herd := { d.herd with rounds := old ++ [⟨g, rd, 0, false, []⟩] } }
/-- Counts a token returned over capacity or after the close (R304, R305). -/
def countNc (d : Dev) (ex : Nat) : Dev :=
  let die := match (Tab.find d.herd.bound ex).bind (fun b => Tab.find d.tier.objs b.obj) with
    | some o => dieOf o.tier o.base
    | none => 0
  d.count (R.dirTokncCnt die) (R.dirEvt die) F.dirEvt_tokncOvf
/-- A token reaches this home (R301, R304, R305): answers whether it is returned NOT_COMPUTED. -/
def landToken (d : Dev) (f : TokFld) (rd src : Nat) (data : List Byte) (poison : Bool) : Bool × Dev :=
  match d.expertOf f.expert with
  | none => (true, d)
  | some e =>
    let g := d.groupOf e.group
    if e.nrep < f.replica || e.nodes.getD f.replica 0 ≠ d.nodeId || g.dead then (true, d) else
    let d := d.autoBind f.expert e g.units
    if (Tab.find d.herd.bound f.expert).isNone then (true, d)
    else if d.roundOld e.group rd then (true, d.countNc f.expert)
    else
      let fresh := !d.herd.rounds.any (fun r => r.group == e.group && r.round == rd)
      let d := (if fresh then d.dirClamp g.clamps else d).openRound e.group rd
      let n := ((d.herd.rounds.find? (fun r => r.group == e.group && r.round == rd)).map (fun r => Tab.getD r.taken (4 * f.expert + f.replica) 0)).getD 0
      if e.cap ≤ n then (true, d.countNc f.expert)
      else
        (false, ({ d with herd := { d.herd with rounds := d.herd.rounds.map (fun r => if r.group = e.group && r.round = rd then { r with taken := Tab.put r.taken (4 * f.expert + f.replica) (n + 1) } else r), tokIn := d.herd.tokIn ++ [⟨e.group, rd, f.expert, src, f.ctx, f.token, f.replica, data, poison, false⟩] } } : Dev).tokWake)
/-- A CLOSE reaches this home (R305); link: where it came from. -/
def landClose (d : Dev) (g rd : Nat) (link : Option Nat) : Dev :=
  if d.roundOld g rd then (match link with | some h => d.protoErr h | none => d)
  else
    let ge := d.groupOf g
    let fresh := !d.herd.rounds.any (fun r => r.group == g && r.round == rd)
    let d := (if fresh then d.dirClamp ge.clamps else d).openRound g rd
    let d : Dev := { d with herd := { d.herd with rounds := d.herd.rounds.map (fun r => if r.group = g && r.round = rd then { r with closes := r.closes + 1 } else r) } }
    if d.herd.rounds.any (fun r => r.group == g && r.round == rd && decide (ge.p ≤ r.closes)) then d.closeRound g rd else d
/-- Returns a token to the context that sent it (R308). -/
def sendReturn (d : Dev) (t : TokIn) (nc : Bool) (data : List Byte) : Dev :=
  let f : TokFld := ⟨t.token, t.expert, t.ctx, nc, t.replica⟩
  if t.src = d.nodeId then d.returnIn f d.nodeId 0 data false
  else (d.send none ⟨0x42, t.src, d.nodeId, t.round, false, false, f.word, padUnits data⟩).2
/-- The serve timer of a closed round (R308): its unreplied tokens go back NOT_COMPUTED. -/
def serveOver (d : Dev) (g rd : Nat) : Dev :=
  if !d.roundClosed g rd then d else
  let l := d.herd.tokIn.filter (fun t => t.group == g && t.round == rd)
  let d : Dev := { d with herd := { d.herd with tokIn := d.herd.tokIn.filter (fun t => !(t.group == g && t.round == rd)) } }
  (l.foldl (fun d t => d.sendReturn t true []) d).tokWake
/-- The reply timer of an accepted token (R308). -/
def replyOver (d : Dev) (f : TokFld) : Dev :=
  match d.tokSent f with
  | none => d
  | some t =>
    if t.st ≠ 1 then d else
    let die := match d.ctx? f.ctx with | some x => x.core / 32 | none => 0
    let d := d.count (R.dirToklostCnt die) (R.dirEvt die) F.dirEvt_toklostOvf
    ((d.setSent f none).pushBack f.ctx (tokHeader f.token f.expert 5 t.node f.ctx) [] t.bytes).tokWake
/-- DIR_GRP_RESET (R303): the counters of a group start again; the home's rounds of the group with them. -/
def grpReset (d : Dev) (g : Nat) : Dev :=
  { d with herd := { d.herd with roundCtr := d.herd.roundCtr.filter (fun t => t.1 % 256 != g), rounds := d.herd.rounds.filter (fun r => r.group != g) } }

/-! ## The instructions of a context -/

/-- The inbox of a context, made at its first token instruction: a status, 0 where it stands (R306). -/
def needInbox (d : Dev) (c part : Nat) : Nat × Dev :=
  if (Tab.find d.herd.inboxes c).isSome then (0, d)
  else
    let size := d.fld R.dirTokin F.dirTokin_mib * 2 ^ 20
    match d.alloc part 2 size 0 with
    | (.got b, d) =>
      if 262144 ≤ d.tier.objs.length then (0x28, d) else
      let (i, d) := d.placeObj (newObj part 2 b size 0 false 0 0#64 .plain 1)
      (0, { d with herd := { d.herd with inboxes := Tab.put d.herd.inboxes c ⟨i, size, 0, []⟩ } })
    | (_, d) => (3, if d.pooled 2 then d.countFull else d)
/-- Scratch places of the header and of the data of column n of a tensor. -/
def tokPlaces (z : Tensor) (n len : Nat) : List Nat := (List.range len).map (fun (i : Nat) => z.at' (z.rowOff n 0 0 + (i : Int)))
/-- Sends one token (R301, R306): answers the clamps that it made. -/
def sendToken (d : Dev) (c xid g rd units tok ex : Nat) (data : List Byte) : Nat × Dev :=
  let bytes := min data.length (16 * units)
  let nc := fun (d : Dev) => d.pushBack c (tokHeader tok ex 5 d.nodeId c) [] bytes
  match d.expertOf ex with
  | none => (0, nc d)
  | some e =>
    if e.group ≠ g then (1, nc d)
    else if d.herd.tokOut.any (fun t => t.ctx == c && t.token == tok && t.expert == ex) then (1, nc d)
    else if (d.groupOf g).dead then (0, nc d)
    else
      let rep := tok % (e.nrep + 1)
      let node := e.nodes.getD rep 0
      let f : TokFld := ⟨tok, ex, c, false, rep⟩
      let d : Dev := { d with herd := { d.herd with tokOut := d.herd.tokOut ++ [⟨c, xid, tok, ex, node, rd, bytes, 0⟩] } }
      if node = d.nodeId then
        let (bad, d) := d.landToken f rd d.nodeId (padUnits (data.take bytes)) false
        (0, d.receiptIn { f with nc := bad } d.nodeId 0)
      else
        match d.send ((d.ctx? c).map (·.part)) ⟨0x40, node, d.nodeId, rd, false, false, f.word, padUnits (data.take bytes)⟩ with
        | (true, d) => (0, d)
        | (false, d) => (0, nc (d.setSent f none))
/-- Sends CLOSE of a round to every home of the group (R303). -/
def sendCloses (d : Dev) (c g rd part : Nat) : Dev :=
  (d.maskNodes (d.groupOf g)).foldl (fun d n =>
    if n = d.nodeId then d.landClose g rd none
    else (d.send (some part) ⟨0x41, n, d.nodeId, rd, false, false, (TokFld.mk g 0 c false 0).word, []⟩).2) d

/-! ## Token transfers (R205, R306, R308) -/

/-- The header and the data of a column whose bytes have all come. -/
def wholeCol (t : Xfer) (n : Nat) : Option (List Byte × List Byte) :=
  let l := (upFrom (n * t.colBytes) t.colBytes).map (fun j => Tab.find t.held j)
  if l.all (·.isSome) then some ((l.take 16).map (·.getD 0#8), (l.drop 16).map (·.getD 0#8)) else none
/-- The gathered token that a header names (R308). -/
def tokOf (d : Dev) (h : List Byte) : Option TokIn :=
  let f := fun (i n : Nat) => leVal ((h.drop i).take n)
  d.herd.tokIn.find? (fun t => t.gathered && t.token == f 0 4 && t.expert == f 4 2 && t.src == f 8 8 % 4096 && t.ctx == f 8 8 / 4096 % 4096)
/-- A column's token is sent, or its reply: the clamps that it makes, the tokens that it adds to the count. -/
def tokGo (d : Dev) (c : Nat) (t : Xfer) (h data : List Byte) : Nat × Nat × Dev :=
  let tok := leVal (h.take 4)
  let ex := leVal ((h.drop 4).take 2)
  if t.kind = .reply then
    match d.tokOf h with
    | none => (0, 0, d)
    | some k =>
      let d : Dev := { d with herd := { d.herd with tokIn := d.herd.tokIn.erase k } }
      (b2n (decide (k.data.length < data.length)), 1, d.sendReturn k false (data.take k.data.length))
  else match t.tok.group with
    | some g => let q := d.sendToken c t.id g t.tok.round t.tok.units tok ex data; (q.1, 0, q.2)
    | none => (0, 0, d.pushBack c (tokHeader tok ex 5 d.nodeId c) [] data.length)
/-- Sends the columns of a context's token transfers that are whole, each once. -/
def tokFlush (d : Dev) (c : Nat) : Dev :=
  match d.ctx? c with
  | none => d
  | some x =>
    let ts := x.xfers.filter (fun t => !t.streams)
    if ts.isEmpty then d else
    (ts.foldl (fun d t =>
      (List.range (t.total / max 1 t.colBytes)).foldl (fun d n =>
        match wholeCol t n with
        | none => d
        | some q =>
          let r := d.tokGo c t q.1 q.2
          let d := r.2.2.modXfer c t.id (fun t => { t with held := t.held.filter (fun p => !(n * t.colBytes ≤ p.1 && p.1 < (n + 1) * t.colBytes)), toks := t.toks + r.2.1, clamped := t.clamped || r.1 != 0 })
          if r.1 = 0 then d else (d.modCtx c (fun x => x.clampAt t.pc r.1)).trapNow c) d) d).tokWake
/-- Waits for the receipts that have not come, under one TAG (log 38). -/
def awaitReceipts (d : Dev) (c xid tag : Nat) : Dev :=
  match d.herd.tokOut.find? (fun t => t.ctx == c && t.send == xid && t.st != 1) with
  | none => d
  | some t => { d with herd := { d.herd with outs := Tab.put d.herd.outs tag ⟨t.node, mkAddr t.node 0 0, .receipts c xid⟩ } }
/-- All tokens of a context's oldest send are out: its CLOSE messages go, and its receipts are awaited (R303, R306). -/
def tokClose (d : Dev) (c e : Nat) : Dev :=
  match d.ctx? c with
  | none => d
  | some x =>
    match x.xfers.find? (·.eng == e) with
    | none => d
    | some t =>
      if t.tok.closed || t.landed < t.total || !d.isRes c x then d else
      match d.freeTag (x.core / 32) with
      | none => d
      | some tag =>
        let d := match t.tok.group with | some g => d.sendCloses c g t.tok.round x.part | none => d
        (d.modXfer c t.id (fun t => { t with tok := { t.tok with closed := true } })).awaitReceipts c t.id tag

/-- The operands of FAB.RECV_TOKENS, FAB.SEND_TOKENS and FAB.REPLY_TOKENS: headers and activations. -/
def tokOpnds (d : Dev) (c : Nat) (x : Ctx) (w : W64) : Opnd × Opnd :=
  (d.operandOf c only0 (tensorOf (x.td (bits64 w 43 6))), d.operandOf c only0 (tensorOf (x.td (bits64 w 37 6))))
/-- The expert number of FAB.RECV_TOKENS is above 65,535 (Table 05-12). -/
def bigExpert (x : Ctx) (w : W64) : Bool := !bit64 w 0 && decide (65535 < (x.s (bits64 w 22 5)).toNat)
/-- The flag byte of a gather's status word: whether its issue was clamped. -/
def gatherFlags (d : Dev) (c : Nat) (x : Ctx) (w : W64) : Nat :=
  let o := d.tokOpnds c x w
  b2n (opndClamps [o.1, o.2] != 0 || bigExpert x w || bit64 w 53)
/-- What a gather leaves: a wait, nothing more, or an aborted task. -/
inductive Gathered where
  | more (v : Wait) (d : Dev)
  | done (d : Dev)
  | bad (d : Dev)
/-- Takes what a gather may take now, and completes it where it can (R144, R307). -/
def gather (d : Dev) (c : Nat) (w : W64) (n : Nat) (rd : Option Nat) : Gathered :=
  match d.ctx? c with
  | none => .done d
  | some x =>
    let tx := (tensorOf (x.td (bits64 w 43 6))).1
    let ty := (tensorOf (x.td (bits64 w 37 6))).1
    let cap := min tx.d1 ty.d1
    let put := fun (d : Dev) (i : Nat) (h dat : List Byte) =>
      let ps := tokPlaces ty i (min (ty.rowBytes ty.d0) dat.length)
      d.scrWrite c ((List.range 16).map (fun j => ⟨(tokPlaces tx i 16).getD j 0, h.getD j 0#8, 0xFF#8⟩) ++ (List.range ps.length).map (fun j => ⟨ps.getD j 0, dat.getD j 0#8, 0xFF#8⟩))
    let done := fun (d : Dev) (st k : Nat) => Gathered.done (d.putStatus c (bits64 w 27 5) st (d.gatherFlags c x w) k)
    if bit64 w 0 then
      match Tab.find d.herd.inboxes c with
      | none => done d 0 n
      | some b =>
        let now := b.back.take (cap - n)
        let rest := b.back.drop (cap - n)
        if now.any (·.2.2.2) then .bad (d.abortTask c 0 0 0#64) else
        let d := (List.range now.length).foldl (fun d i => match now[i]? with | some q => put d (n + i) q.1 q.2.1 | none => d) d
        let d : Dev := { d with herd := { d.herd with inboxes := Tab.put d.herd.inboxes c { b with back := rest, used := b.used - (now.map (fun q => 16 + q.2.2.1)).foldl (· + ·) 0 } } }
        let k := n + now.length
        if k = cap then done d (if rest.isEmpty then 0 else 0x18) k
        else if d.herd.tokOut.any (·.ctx == c) then .more (.tokens w k none) d
        else done d 0 k
    else
      let ex := (x.s (bits64 w 22 5)).toNat % 65536
      match d.expertOf ex with
      | none => done d 0 n
      | some e =>
        match rd.orElse (fun _ => d.gatherRound e.group ex) with
        | none => if cap = n then done d 0 n else .more (.tokens w n none) d
        | some r =>
          let all := (d.waiting ex).filter (·.round == r)
          let now := all.take (cap - n)
          if now.any (·.poison) then .bad (d.abortTask c 0 0 0#64) else
          let d := (List.range now.length).foldl (fun d i => match now[i]? with | some q => put d (n + i) (tokHeader q.token q.expert 0 q.src q.ctx) q.data | none => d) d
          let d : Dev := { d with herd := { d.herd with tokIn := d.herd.tokIn.map (fun t => if now.contains t then { t with gathered := true } else t) } }
          let k := n + now.length
          if k = cap then done d (if (d.waiting ex).isEmpty || (d.roundClosed e.group r && !(d.waiting ex).any (·.round == r)) then 0 else 0x18) k
          else if d.roundClosed e.group r then done d 0 k
          else .more (.tokens w k (some r)) d

end Dev

end Sys2Proof.Machine
end

