-- ==== Sys2Proof/Machine/ExecHerd.lean ====
section
/-! DEFINITION. The commands of the Herd fabric (chapter 11). -/
namespace Sys2Proof.Machine

namespace Dev

/-- A message is the oldest of its virtual channel in a link's receive buffer. -/
def rxFirst (d : Dev) (h : Nat) (m : Msg) (opc : Nat) : Bool :=
  m.opc == opc && (d.link h).rx.find? (fun q => vcOf q.opc == vcOf opc) == some m
/-- Takes a message out of a link's receive buffer; its credits are owed to the sender (R273). -/
def rxTake (d : Dev) (h : Nat) (m : Msg) : Dev :=
  (d.modLink h (fun l => { l with rx := l.rx.erase m })).owe h ((vcOf m.opc).getD 0) (credOf m)
/-- Handles the oldest message of its channel on a link, if it has the opcode (R272). -/
def msgDo (d : Dev) (h : Nat) (m : Msg) (opc : Nat) (f : Dev → Dev) : Dev :=
  if d.rxFirst h m opc then f (d.rxTake h m) else d
/-- A request for a line (R293): clamped by this home (R76), then served in its turn. -/
def lineReq (d : Dev) (h : Nat) (m : Msg) : Dev :=
  let p := d.arrive m stay 128
  p.1.serve ⟨p.2, h⟩
/-- A TOKEN (R304): it lands, or it is returned NOT_COMPUTED; the receipt says which. -/
def tokenIn (d : Dev) (m : Msg) : Dev :=
  let f := TokFld.of m.addr
  let p := d.landToken f m.tag m.src m.data m.poison
  (p.2.send none ⟨0x27, m.src, p.2.nodeId, m.tag, false, false, ({ f with nc := p.1 } : TokFld).word, []⟩).2
/-- The die of a context of this node. -/
def ctxDie (d : Dev) (c : Nat) : Nat := match d.ctx? c with | some x => x.core / 32 | none => 0

end Dev

/-- The preferred node ID of the settings (R286). -/
def State.prefNode (s : State) : Option Nat := (Tab.find s.aon.setVals setPrefNode).map (fun v => v.toNat % 4096)

/-- CAPTURED_REPLY_LAND (R234, R235). -/
def execCapturedReplyLand (c : BitVec 12) (i : BitVec 9) (good : Bool) (e : List Byte) (s : State) : Out := .next ((s.onDev (fun d => d.slotLand c.toNat i.toNat good e)).settled)
/-- HERD_FLIT_RECEIVE (R270 to R273). -/
def execHerdFlitReceive (h : Fin 36) (e : List Byte) (s : State) : Out := .next ((s.onDev (fun d => d.flitIn h e)).settled)
/-- HERD_NAK_RECEIVE (R271). -/
def execHerdNakReceive (h : Fin 36) (ack : BitVec 12) (s : State) : Out := .next ((s.onDev (fun d => if d.carries h then d.nakTake h ack.toNat else d)).settled)
/-- HERD_NAK_REPEAT (R271). -/
def execHerdNakRepeat (h : Fin 36) (s : State) : Out := .next (s.onDev (fun d => d.modLink h (fun l => { l with nakDue := l.nakDue || l.nakOut })))
/-- HERD_LINK_TRANSMIT (R273, R284): the next flit of a direction. -/
def execHerdLinkTransmit (h : Fin 36) (s : State) : Out := .next (s.onDev (fun d => d.transmit h))
/-- HL_SIGNAL_DETECT (Table 11-3). -/
def execHlSignalDetect (h : Fin 36) (s : State) : Out := .next (s.onDev (fun d => (d.modLink h (fun l => { l with signal := true })).train h))
/-- HL_SIGNAL_LOSS (Table 11-3): a link that is ACTIVE loses its lock instead (R276). -/
def execHlSignalLoss (h : Fin 36) (s : State) : Out := .next (s.onDev (fun d => let e := d.modLink h (fun l => { l with signal := false }); if d.linkSt h = 1 || d.linkSt h = 2 then e.linkDown h else e))
/-- HL_TRAINING_COMPLETE (Table 11-3). -/
def execHlTrainingComplete (h : Fin 36) (s : State) : Out := .next (s.onDev (fun d => d.trainDone h))
/-- HL_TRAINING_TIMEOUT (Table 11-3). -/
def execHlTrainingTimeout (h : Fin 36) (s : State) : Out := .next (s.onDev (fun d => if d.linkSt h = 1 then d.setLinkSt h 0 else d))
/-- HL_TRAINING_RETRY (Table 11-3). -/
def execHlTrainingRetry (h : Fin 36) (s : State) : Out := .next (s.onDev (fun d => d.train h))
/-- HL_RETRAIN_ENTER (R276). -/
def execHlRetrainEnter (h : Fin 36) (lost : Bool) (s : State) : Out := .next ((s.onDev (fun d => d.retrainEnter h lost)).settled)
/-- HL_RETRAIN_COMPLETE (R277). -/
def execHlRetrainComplete (h : Fin 36) (s : State) : Out := .next (s.onDev (fun d => d.retrainDone h))
/-- HL_RETRAIN_TIMEOUT (R276, R277). -/
def execHlRetrainTimeout (h : Fin 36) (s : State) : Out := .next ((s.onDev (fun d => d.retrainFail h)).settled)
/-- HL_DISABLE (R309). -/
def execHlDisable (r : Req) (h : Fin 36) (on : Bool) (s : State) : Out := .next (s.onDev (fun d => d.regDo r (R.hlCtrl h) (fun d => d.hlCtrlWrite h (BitVec.ofNat 32 (b2n on)))))
/-- RD_SHARED (R293, R294). -/
def execRdShared (h : Fin 36) (m : Msg) (s : State) : Out := .next (s.onDev (fun d => d.msgDo h m 2 (fun d => d.lineReq h m)))
/-- RD_OWN (R293). -/
def execRdOwn (h : Fin 36) (m : Msg) (s : State) : Out := .next (s.onDev (fun d => d.msgDo h m 3 (fun d => d.lineReq h m)))
/-- UPGRADE (R293, R295). -/
def execUpgrade (h : Fin 36) (m : Msg) (s : State) : Out := .next (s.onDev (fun d => d.msgDo h m 4 (fun d => d.lineReq h m)))
/-- EVICT (R293). -/
def execEvict (h : Fin 36) (m : Msg) (s : State) : Out := .next (s.onDev (fun d => d.msgDo h m 9 (fun d => d.lineReq h m)))
/-- WB (R292, R293, R295). -/
def execWb (h : Fin 36) (m : Msg) (s : State) : Out := .next (s.onDev (fun d => d.msgDo h m 7 (fun d => let p := d.arrive m Dev.stay 128; p.1.writeBack p.2)))
/-- LEND_REQ (R255, R299). -/
def execLendReq (h : Fin 36) (m : Msg) (s : State) : Out := .next (s.onDev (fun d => d.msgDo h m 0x0A (fun d => d.lend m)))
/-- LEND_FREE (R299). -/
def execLendFree (h : Fin 36) (m : Msg) (s : State) : Out := .next (s.onDev (fun d => d.msgDo h m 0x0B (fun d => d.lendFreed m)))
/-- RECALL (R256, R299). -/
def execRecall (h : Fin 36) (m : Msg) (s : State) : Out := .next ((s.onDev (fun d => d.msgDo h m 0x0C (fun d => d.recalled m))).settled)
/-- DATA (R280). -/
def execData (h : Fin 36) (m : Msg) (s : State) : Out := .next ((s.onDev (fun d => d.msgDo h m 0x20 (fun d => d.replyIn m))).settled)
/-- DATA_S (R280, R293). -/
def execDataS (h : Fin 36) (m : Msg) (s : State) : Out := .next ((s.onDev (fun d => d.msgDo h m 0x21 (fun d => d.replyIn m))).settled)
/-- DATA_E (R280, R293). -/
def execDataE (h : Fin 36) (m : Msg) (s : State) : Out := .next ((s.onDev (fun d => d.msgDo h m 0x22 (fun d => d.replyIn m))).settled)
/-- ACK (R280). -/
def execAck (h : Fin 36) (m : Msg) (s : State) : Out := .next ((s.onDev (fun d => d.msgDo h m 0x23 (fun d => d.replyIn m))).settled)
/-- ACK_E (R280, R293). -/
def execAckE (h : Fin 36) (m : Msg) (s : State) : Out := .next ((s.onDev (fun d => d.msgDo h m 0x24 (fun d => d.replyIn m))).settled)
/-- LEND_GRANT (R299). -/
def execLendGrant (h : Fin 36) (m : Msg) (s : State) : Out := .next ((s.onDev (fun d => d.msgDo h m 0x28 (fun d => d.replyIn m))).settled)
/-- INV_ACK (R280, R293). -/
def execInvAck (h : Fin 36) (m : Msg) (s : State) : Out := .next (s.onDev (fun d => d.msgDo h m 0x25 (fun d => match d.takeSnp m with | some (t, d) => d.dirAck t.line m.src true | none => d.late (m.tag / 32768))))
/-- FWD_DATA (R293, R295). -/
def execFwdData (h : Fin 36) (m : Msg) (s : State) : Out := .next (s.onDev (fun d => d.msgDo h m 0x26 (fun d => d.fwdData m)))
/-- RECEIPT (R306). -/
def execReceipt (h : Fin 36) (m : Msg) (s : State) : Out := .next (s.onDev (fun d => d.msgDo h m 0x27 (fun d => d.receiptIn (TokFld.of m.addr) m.src (d.ctxDie (TokFld.of m.addr).ctx))))
/-- INV (R293, R295). -/
def execInv (h : Fin 36) (m : Msg) (s : State) : Out := .next (s.onDev (fun d => d.msgDo h m 0x30 (fun d => d.invIn m)))
/-- FWD_S (R293). -/
def execFwdS (h : Fin 36) (m : Msg) (s : State) : Out := .next (s.onDev (fun d => d.msgDo h m 0x31 (fun d => d.fwdIn m true)))
/-- FWD_I (R293). -/
def execFwdI (h : Fin 36) (m : Msg) (s : State) : Out := .next (s.onDev (fun d => d.msgDo h m 0x32 (fun d => d.fwdIn m false)))
/-- TOKEN (R301, R304, R305). -/
def execToken (h : Fin 36) (m : Msg) (s : State) : Out := .next (s.onDev (fun d => d.msgDo h m 0x40 (fun d => d.tokenIn m)))
/-- CLOSE (R303, R305). -/
def execClose (h : Fin 36) (m : Msg) (s : State) : Out := .next (s.onDev (fun d => d.msgDo h m 0x41 (fun d => d.landClose ((TokFld.of m.addr).token % 256) m.tag (some h))))
/-- TOKEN_REPLY (R308). -/
def execTokenReply (h : Fin 36) (m : Msg) (s : State) : Out := .next (s.onDev (fun d => d.msgDo h m 0x42 (fun d => d.returnIn (TokFld.of m.addr) m.src (d.ctxDie (TokFld.of m.addr).ctx) m.data m.poison)))
/-- HELLO (R286, R288, R289). -/
def execHello (h : Fin 36) (m : Msg) (s : State) : Out := .next (s.onDev (fun d => d.msgDo h m 0x50 (fun d => d.helloIn h m)))
/-- PROBE (Table 11-7a step 2). -/
def execProbe (h : Fin 36) (m : Msg) (s : State) : Out := .next (s.onDev (fun d => d.msgDo h m 0x51 (fun d => d.probeIn s.prefNode h m)))
/-- PROBE_REPLY (Table 11-7a step 2). -/
def execProbeReply (h : Fin 36) (m : Msg) (s : State) : Out := .next (s.onDev (fun d => d.msgDo h m 0x52 (fun d => d.probeReplyIn h m)))
/-- ASSIGN (Table 11-7a step 4, R289). -/
def execAssign (h : Fin 36) (m : Msg) (s : State) : Out := .next (s.onDev (fun d => d.msgDo h m 0x53 (fun d => d.assignIn h m)))
/-- ROUTE (Table 11-7a steps 5 and 6). -/
def execRoute (h : Fin 36) (m : Msg) (s : State) : Out := .next (s.onDev (fun d => d.msgDo h m 0x54 (fun d => d.routeIn h m)))
/-- NODE_GONE (R288). -/
def execNodeGone (h : Fin 36) (m : Msg) (s : State) : Out := .next (s.onDev (fun d => d.msgDo h m 0x55 (fun d => d.nodeGoneIn h m)))
/-- HELLO_PERIOD (R286). -/
def execHelloPeriod (h : Fin 36) (s : State) : Out := .next (s.onDev (fun d => d.hello s.prefNode h))
/-- ENUMERATION_START (R287, R288). -/
def execEnumerationStart (r : Req) (s : State) : Out := .next (s.onDev (fun d => d.regDo r R.dirCfg (fun d => d.enumStart s.prefNode)))
/-- PROBE_TIMEOUT (Table 11-6). -/
def execProbeTimeout (t : W64) (s : State) : Out := .next (s.onDev (fun d => d.probeTimeout t))
/-- NODE_GONE_TIMER (R288). -/
def execNodeGoneTimer (n : BitVec 12) (s : State) : Out := .next (s.onDev (fun d => d.nodeGoneTimer n.toNat))
/-- HERD_REQUEST_TIMEOUT (R143, R210, R235, R297). -/
def execHerdRequestTimeout (tag : BitVec 16) (s : State) : Out := .next ((s.onDev (fun d => d.timeout tag.toNat)).settled)
/-- TAG_REUSE_GUARD (R280). -/
def execTagReuseGuard (tag : BitVec 16) (s : State) : Out := .next (s.onDev (fun d => { d with herd := { d.herd with guarded := d.herd.guarded.filter (· ≠ tag.toNat) } }))
/-- SNP_RESEND (R296). -/
def execSnpResend (n : BitVec 12) (a : W64) (s : State) : Out := .next (s.onDev (fun d => d.snpResend n.toNat a))
/-- SNP_CUTOFF (R296). -/
def execSnpCutoff (n : BitVec 12) (a : W64) (s : State) : Out := .next (s.onDev (fun d => d.cutOff n.toNat a))
/-- ROUTE_LOSS (R257, R297). -/
def execRouteLoss (n : BitVec 12) (s : State) : Out := .next (s.onDev (fun d => d.routeLoss n.toNat))
/-- ROUND_TIMER (R305). -/
def execRoundTimer (g : BitVec 8) (rd : BitVec 32) (s : State) : Out := .next (s.onDev (fun d => d.closeRound g.toNat (rd.toNat % 65536)))
/-- SERVE_TIMER (R308). -/
def execServeTimer (g : BitVec 8) (rd : BitVec 32) (s : State) : Out := .next (s.onDev (fun d => d.serveOver g.toNat (rd.toNat % 65536)))
/-- REPLY_TIMER (R308). -/
def execReplyTimer (c : BitVec 12) (tok : BitVec 32) (ex : BitVec 16) (s : State) : Out := .next (s.onDev (fun d => d.replyOver ⟨tok.toNat, ex.toNat, c.toNat, false, 0⟩))
/-- DIR_GRP_RESET (R303). -/
def execDirGrpReset (r : Req) (g : BitVec 8) (s : State) : Out := .next (s.onDev (fun d => d.regDo r R.dirGrpReset (fun d => d.grpReset g.toNat)))

end Sys2Proof.Machine
end

