-- ==== Sys2Proof/Machine/Bus.lean ====
section
/-! DEFINITION. The register bus: what each register reads as, what a write of each does, pairs (R82), widths and alignment (R81). -/
namespace Sys2Proof.Machine

namespace Dev

/-! ## Reads -/

/-- A die's time-stamp counter now, before it wraps (R62). -/
def tsNow (d : Dev) (i : Nat) : Nat := d.now + Config.tsAhead i % 5
/-- The counter of a die as it has crossed into a domain, at most n ns old: a free age, but never behind what has crossed before
(R53, R62). -/
def heldTs (d : Dev) (i key n : Nat) : Nat × Dev :=
  if !d.flag (R.tsStatus i) F.tsStatus_running then (0, d) else
  let (o, d) := d.choose (n + 1)
  let v := max (Tab.getD d.tsHeld key 0) (d.tsNow i - o)
  (v % 2 ^ 64, { d with tsHeld := Tab.put d.tsHeld key v })
/-- A time-stamp as a register read gets it: the value that mclk holds, at most 7 ns old (R63). -/
def sampleTs (d : Dev) (i : Nat) : Nat × Dev := d.heldTs i i 7
/-- A time-stamp as the self-timed logic of a die gets it: at most 2 steps + 2 ns old, 3 ns at the nominal point (R62). -/
def stepTs (d : Dev) (i : Nat) : Nat × Dev := d.heldTs i (16 + i) 3

/-- A word of a retire table (R485): pages first, then banks. -/
def retireWord (d : Dev) (kind i e : Nat) (hi : Bool) : W32 :=
  let n := if kind = 3 then 512 else 256
  let l := d.flt.retired.filter (fun x => x.ctrl == unitId kind i && x.bank == decide (n ≤ e))
  match l[if n ≤ e then e - n else e]? with
  | none => 0#32
  | some x => BitVec.ofNat 32 (if hi then x.spare % 2 ^ 25 else x.old % 2 ^ 25 + b2n x.bank * 2 ^ 30 + 2 ^ 31)
/-- DIR_ROUTE of a node: its route links in use and its length. -/
def routeWord (d : Dev) (n : Nat) : W32 :=
  let ls := (d.routeLinks n).take 4
  BitVec.ofNat 32 (((List.range ls.length).map (fun i => ls.getD i 0 * 2 ^ (6 * i))).foldl (· + ·) 0 + ls.length * 2 ^ 24 +
    (if ls.isEmpty then 0 else (Tab.getD d.herd.routes n ⟨[], 0⟩).hops) * 2 ^ 27)
/-- A word of a fault log ring (R470). -/
def ringWord (d : Dev) (b o : Nat) : W32 :=
  match Tab.find d.flt.ring (b * 256 + o / 0x20) with
  | none => 0#32
  | some e =>
    let w := ([e.w0, e.w1, e.w2, e.w3].getD (o % 0x20 / 8) 0#64).toNat
    BitVec.ofNat 32 (if o % 8 = 0 then w else w / 2 ^ 32)

/-- What a register holds as a requester reads it: the computed ones from the state that they describe, the others as stored.
A register of a fenced unit is as it stood (R80). -/
def liveReg (d : Dev) (aon : AonSt) (r : Req) (ts : Nat) (x : RegAt) (a : Nat) : W32 :=
  let n := fun (v : Nat) => BitVec.ofNat 32 v
  let i := x.inst
  let o := x.spec.off
  let sel := d.fld R.partCtxSel F.partCtxSel_ctx
  if x.row.blk = .kudu && (o = 0x8000 || o = 0x8004) then
    let w := splitScale (d.scaleAt i x.idx)
    if o = 0x8000 then w.1 else w.2
  else if (blkUnit x.row.blk i).any (fun u => d.isFenced u) && (x.row.blk != .oryx || o < 0x800) && (x.row.blk != .press || o < 0x800) then d.reg a
  else match x.row.blk with
  | .cap =>
    if 0x80 ≤ o && x.idx = 5 then (if o % 8 = 0 then n (d.tierSize 5) else n (d.tierSize 5 / 2 ^ 32)) else d.reg a
  | .ts => if o = 0 then n ts else if o = 4 then n (ts / 2 ^ 32) else d.reg a
  | .flt => if 0x2000 ≤ o then d.ringWord i (a - x.row.base - i * x.row.stride - 0x2000) else d.reg a
  | .part =>
    if o = 0x20C then n (d.partInfo x.idx) else if o = 0x210 then n (d.partLq x.idx)
    else if o = 0x1008 then (match d.ctx? sel with | some c => n c.shareNext | none => 0#32)
    else if o = 0x100C then n (d.ctxStateReg sel) else if o = 0x1010 then n (d.ctxWinReg sel)
    else if o = 0x1014 then n (d.ctxWrapReg sel)
    else if o = 0x1020 then n (d.ctxAcc sel x.idx) else if o = 0x1024 then n (d.ctxAcc sel x.idx / 2 ^ 32)
    else d.reg a
  | .tier => (d.tierReg a).getD (d.reg a)
  | .dir =>
    if o = 0x24 then d.routeWord (d.fld R.dirRouteSel F.dirRouteSel_node)
    else if o = 0x100 then n ((d.herd.dir.filter (fun e => dirDie e.1 == i)).length)
    else d.reg a
  | .cham => if o = 0 then d.chamStatusNow i else d.reg a
  | .press | .wbc => (d.ftlReg a).getD (d.reg a)
  | .sec | .tahr => ((⟨d, aon, []⟩ : State).secReg a).getD (d.reg a)
  | .hbmc => if 0x1000 ≤ o then d.retireWord 3 i x.idx (o % 8 == 4) else d.reg a
  | .lpc => if 0x1000 ≤ o then d.retireWord 4 i x.idx (o % 8 == 4) else d.reg a
  | .oryx => (d.srchReg r a).getD (d.reg a)
  | .kudu =>
    if o = 4 then d.kuduStatusNow i else if o = 0x2000 then d.seStatusNow i x.idx
    else if o = 0x3000 then d.scrValidNow i x.idx else d.reg a
  | .addr | .d2d | .pwr | .tempo | .hl | .host | .fch => d.reg a

/-- One of the two words of a time-stamp pair (R63). -/
def isTs (x : RegAt) : Bool := x.row.blk == .ts && (x.spec.off == 0 || x.spec.off == 4)

/-- One 4-byte read at an aligned offset (R12, R79, R80, R82): value, CLAMPED, what it leaves. -/
def busRead (d : Dev) (aon : AonSt) (r : Req) (a : Nat) : W32 × Bool × Dev :=
  match regAt a with
  | none => (0#32, true, d.addrClamp r 3 (d.regAddr a))
  | some x =>
    if d.busAns r a false = .hole then (0#32, true, d.addrClamp r 3 (d.regAddr a)) else
    let h := regHome x a
    match x.spec.pair with
    | .none =>
      let v := d.liveReg aon r 0 x h
      (readValue x.spec.fields v, false, if x.spec.fields.any (fun f => f.acc == .rc) then d.setReg h (clearRc x.spec.fields v) else d)
    | .low =>
      let (ts, d) := if isTs x then d.sampleTs x.inst else (0, d)
      let v := readValue x.spec.fields (d.liveReg aon r ts x h)
      let w := match regAt (a + 4) with | some y => readValue y.spec.fields (d.liveReg aon r ts y (h + 4)) | none => 0#32
      (v, false, { d with shadow := Tab.put d.shadow h w })
    | .high =>
      match Tab.find d.shadow (h - 4) with
      | some w => (w, false, { d with shadow := Tab.del d.shadow (h - 4) })
      | none =>
        let (ts, d) := if isTs x then d.sampleTs x.inst else (0, d)
        (readValue x.spec.fields (d.liveReg aon r ts x h), false, d)

/-! ## Writes -/

/-- Applies an object command's doorbell (R245): the command block's OP says which command it is. -/
def ocmdBell (d : Dev) (k : Nat) (a : W64) : Dev :=
  let r : Req := if k < 32 then .cham k else .unit 0x10 0
  (upFrom 1 7).foldl (fun d op => d.ocmd k a op (fun d p ws who fl => match op with
    | 1 => d.createObj r p ws who
    | 2 => d.objFree p ws who fl
    | 3 => d.objMove r p ws who fl
    | 4 => d.objPin p ws who fl
    | 5 => d.objUnpin p ws who fl
    | 6 => d.objAck p who fl
    | _ => d.objQuery p ws who fl)) d
/-- Applies a collection command's doorbell (R313). -/
def ccmdBell (d : Dev) (k : Nat) (a : W64) : Dev :=
  let r : Req := if k < 32 then .cham k else .unit 0x10 0
  (upFrom 1 3).foldl (fun d op => d.ccmd k a op (fun d p ws who fl => match op with
    | 1 => d.collCreate r (if p = 16 then bits64 (ws.getD 0 0#64) 36 4 else p) ws who fl
    | 2 => d.collDestroy p ws who fl
    | _ => d.collInfo p ws who fl)) d

/-- The address of a DIR table (Table 11-13b): a tier other than 1 or 2 becomes 1, with a clamp; 0 stays. -/
def dirAddr (v : Nat) : Nat × Nat :=
  let t := v / 2 ^ 49 % 8
  if v = 0 || t = 1 || t = 2 then (v, 0) else (withBits v 49 3 1, 1)
/-- A ring base of a flash queue (R361): tier 1 or 2, else 2; 64-byte aligned, each change a clamp. -/
def ringBase (v : Nat) : Nat × Nat :=
  let t := v / 2 ^ 49 % 8
  let u := if t = 1 || t = 2 then v else withBits v 49 3 2
  (alignDown u 64, b2n (u != v) + b2n (u % 64 != 0))

/-- A write of both words of a pair on one edge (R82). -/
def pairWrite (d : Dev) (r : Req) (x : RegAt) (h : Nat) (lo hi : W32) : Dev :=
  let v := lo.toNat + hi.toNat * 2 ^ 32
  let a := BitVec.ofNat 64 v
  let put := fun (d : Dev) (v : Nat) => d.setPair h v
  match x.row.blk, x.spec.off with
  | .part, 0x800 => (put d v).launchDoorbell r a
  | .tier, 0x200 => match r with | .cham k => (put d v).ocmdBell k a | .unit 0x10 _ => (put d v).ocmdBell 32 a | _ => put d v
  | .oryx, 0x800 => match r with | .cham k => (put d v).ccmdBell k a | .unit 0x10 _ => (put d v).ccmdBell 32 a | _ => put d v
  | .dir, _ => let p := dirAddr v; (put d p.1).dirClamp p.2
  | .fch, _ => let p := ringBase v; (put d p.1).fchClamp x.inst p.2
  | _, _ => if x.spec.fields.any (fun f => f.acc == .rw) then put d v else d

/-- A write of the run-time's tail of a fault log ring (R471). -/
def ringTail (d : Dev) (b v : Nat) : Dev :=
  let un := Tab.getD d.flt.unTail b 0
  let t := v % 256
  let adv := (t + 256 - d.fld (R.fltRingTail b) F.fltRingTail_tail) % 256
  let un' := if adv ≤ un then un - adv else (d.fld (R.fltRingHead b) F.fltRingHead_head + 256 - t) % 256
  { d.setFld (R.fltRingTail b) F.fltRingTail_tail t with flt := { d.flt with unTail := Tab.put d.flt.unTail b un' } }
/-- A write of FCH_Q_CFG (Table 14-9f): PART and RAW_EN are queue 7's alone. -/
def fchCfgWrite (d : Dev) (ch q : Nat) (v : W32) : Dev :=
  let a := R.fchQCfg ch q
  let dep := getF v F.fchQCfg_depth
  let dep' := clampTo 4 10 dep
  let w := getF v F.fchQCfg_weight
  let d := (d.fchClamp ch (b2n (dep != dep') + b2n (w == 0))).setFlds a
    [(F.fchQCfg_depth, dep'), (F.fchQCfg_prio, getF v F.fchQCfg_prio), (F.fchQCfg_weight, max 1 w), (F.fchQCfg_en, getF v F.fchQCfg_en)]
  if q = 7 then d.setFlds a [(F.fchQCfg_part, getF v F.fchQCfg_part), (F.fchQCfg_rawEn, getF v F.fchQCfg_rawEn)] else d
/-- A write of KUDU_CTRL (R167, R170). -/
def kuduCtrlWrite (d : Dev) (k : Nat) (v : W32) : Dev :=
  let d := if getF v F.kuduCtrl_run = 1 then d.coreRun k else d.coreStop k
  d.setFlds (R.kuduCtrl k) [(F.kuduCtrl_dummyEn, getF v F.kuduCtrl_dummyEn), (F.kuduCtrl_packMax, getF v F.kuduCtrl_packMax)]
/-- A write of PART_CTX_CTRL for the selected context (R100, R111, R234, R236). -/
def ctxCtrlWrite (d : Dev) (v : W32) : Dev :=
  let c := d.fld R.partCtxSel F.partCtxSel_ctx
  let d := if getF v F.partCtxCtrl_clrClamp = 1 then d.clearClamp c else d
  let d := if getF v F.partCtxCtrl_preempt = 1 then d.preempt c else d
  if getF v F.partCtxCtrl_end = 1 then d.endRequest c else d

/-- A write of one register that is no half of a pair: by its block and its offset there, else by its fields' access codes. -/
def regWrite (d : Dev) (x : RegAt) (h : Nat) (v : W32) : Dev :=
  let i := x.inst
  let plain := d.setReg h (writeFields x.spec.fields (d.reg h) v)
  match x.row.blk, x.spec.off with
  | .tempo, 0x0 =>
    let e := d.setFlds h [(F.tempoCtrl_en, getF v F.tempoCtrl_en), (F.tempoCtrl_window, min 10 (getF v F.tempoCtrl_window))]
    if getF v F.tempoCtrl_clrCount = 1 then e.setReg (R.tempoBelow i) 0#32 else e
  | .flt, 0x30 =>
    let kd := getF v F.fltInj_kind
    let e := d.setFlds h [(F.fltInj_unit, getF v F.fltInj_unit), (F.fltInj_kind, if kd = 3 then 0 else kd)]
    if getF v F.fltInj_arm = 1 then e.setFld h F.fltInj_arm 1 else e
  | .flt, 0x24 => d.ringTail i v.toNat
  | .part, 0x0 => d.kuduOwnWrite x.idx v
  | .part, 0x100 => d.chamOwnWrite x.idx v
  | .part, 0x200 => d.partCfgWrite x.idx v
  | .part, 0x204 => d.partOryxWrite x.idx v
  | .part, 0x1004 => d.ctxCtrlWrite v
  | .part, 0x1008 => d.ctxShareWrite (d.fld R.partCtxSel F.partCtxSel_ctx) (v.toNat % 65536)
  | .part, 0x1014 => d.ctxWrapWrite (d.fld R.partCtxSel F.partCtxSel_ctx) v.toNat
  | .tier, 0x0 =>
    let lo := getF v F.tierCtrl_low
    let hi := getF v F.tierCtrl_high
    (d.tierClamp (b2n (hi < lo))).setFlds h [(F.tierCtrl_mode, getF v F.tierCtrl_mode), (F.tierCtrl_low, lo), (F.tierCtrl_high, max lo hi)]
  | .dir, 0x0 => d.setFld h F.dirCfg_root (getF v F.dirCfg_root)
  | .dir, 0x18 => d.grpReset (v.toNat % 256)
  | .dir, 0x1C =>
    let m := getF v F.dirTokin_mib
    (d.dirClamp (b2n (m == 0))).setFld h F.dirTokin_mib (max 1 m)
  | .cham, 0x4 => d.chamCtrlWrite i v
  | .wbc, 0x4 =>
    let w := getF v F.wbcCtrl_hiwat
    let e := (d.fchClamp 0 (b2n (w == 0))).setFld h F.wbcCtrl_hiwat (max 1 w)
    if getF v F.wbcCtrl_drain = 1 then e.drain else e
  | .press, 0x810 =>
    let c := max 64 (getF v F.ftlGcLim0_crit)
    let l := min 4095 (max (c + 64) (getF v F.ftlGcLim0_low))
    (d.fchClamp 0 (b2n (getF v F.ftlGcLim0_crit != c) + b2n (getF v F.ftlGcLim0_low != l))).setFlds h [(F.ftlGcLim0_crit, c), (F.ftlGcLim0_low, l)]
  | .press, 0x814 =>
    let g := max (d.fld R.ftlGcLim0 F.ftlGcLim0_low) (getF v F.ftlGcLim1_high)
    let m := getF v F.ftlGcLim1_idleMs
    (d.fchClamp 0 (b2n (getF v F.ftlGcLim1_high != g) + b2n (m == 0))).setFlds h [(F.ftlGcLim1_high, g), (F.ftlGcLim1_idleMs, max 1 m)]
  | .press, 0x818 =>
    let p := getF v F.ftlHeat_promote
    let t := getF v F.ftlHeat_decayS
    (d.fchClamp 0 (b2n (p == 0) + b2n (t == 0))).setFlds h [(F.ftlHeat_promote, max 1 p), (F.ftlHeat_decayS, max 1 t)]
  | .tahr, 0x10 =>
    let w := getF v F.tahrTempLim_warn
    let c := getF v F.tahrTempLim_crit
    d.setFlds h [(F.tahrTempLim_warn, w), (F.tahrTempLim_crit, if signedOf 12 c < signedOf 12 w then w else c)]
  | .hbmc, 0x20 =>
    let e := d.setFld h F.hbmcRetCmd_bank (getF v F.hbmcRetCmd_bank)
    if getF v F.hbmcRetCmd_go = 1 then e.retireGo false i else e
  | .lpc, 0x20 =>
    let e := d.setFld h F.hbmcRetCmd_bank (getF v F.hbmcRetCmd_bank)
    if getF v F.hbmcRetCmd_go = 1 then e.retireGo true i else e
  | .hl, 0x0 => d.hlCtrlWrite i v
  | .host, 0x0 =>
    let m := getF v F.hostPortcfg_next
    d.setFld h F.hostPortcfg_next (if m = 3 then 0 else m)
  | .fch, 0x8 =>
    let m := getF v F.fchSusp_minRun
    let o := getF v F.fchSusp_hold
    (d.fchClamp i (b2n (m == 0) + b2n (o == 0))).setFlds h [(F.fchSusp_minRun, max 1 m), (F.fchSusp_hold, max 1 o), (F.fchSusp_maxSusp, getF v F.fchSusp_maxSusp)]
  | .fch, 0x80 =>
    let t := getF v F.fchRaww_target
    let b := getF v F.fchRaww_block
    (d.fchClamp i (b2n (11 < t) + b2n (2541 < b))).setFlds h [(F.fchRaww_target, min 11 t), (F.fchRaww_block, min 2541 b), (F.fchRaww_valid, getF v F.fchRaww_valid)]
  | .fch, 0x100 => d.fchCfgWrite i x.idx v
  | .fch, 0x114 => d.fchSubmit i x.idx (v.toNat % 1024)
  | .fch, 0x11C => d.fchFree i x.idx (v.toNat % 1024)
  | .fch, 0x124 => if getF v F.fchQCtrl_reset = 1 then d.fchReset i x.idx else d
  | .oryx, 0x818 =>
    let t := getF v F.srchCompactCtrl_tomb
    (d.srchClamp (b2n (t == 0))).setFlds h [(F.srchCompactCtrl_en, getF v F.srchCompactCtrl_en), (F.srchCompactCtrl_tomb, max 1 t)]
  | .oryx, 0x81C => (d.srchClamp (b2n (v == 0#32))).setReg h (if v = 0#32 then 1#32 else v)
  | .kudu, 0x0 => d.kuduCtrlWrite i v
  | .kudu, 0x2800 => d.setFld h F.strCtrl_starve (max 16 (getF v F.strCtrl_starve))
  | .kudu, 0x8000 => d.scaleWrite i x.idx false v
  | .kudu, 0x8004 => d.scaleWrite i x.idx true v
  | _, _ => plain

/-- One 4-byte write at an aligned offset (R12, R79, R80, R82): CLAMPED, and what it leaves. -/
def busWrite (d : Dev) (r : Req) (a : Nat) (v : W32) : Bool × Dev :=
  match regAt a with
  | none => (true, d.addrClamp r 3 (d.regAddr a))
  | some x =>
    match d.busAns r a true with
    | .hole => (true, d.addrClamp r 3 (d.regAddr a))
    | .frozen => (false, d)
    | .ok =>
      let h := regHome x a
      match x.spec.pair with
      | .none => (false, d.regWrite x h v)
      | .high => (false, { d with shadow := Tab.del d.shadow (h - 4), held := Tab.put d.held (h - 4) v })
      | .low =>
        let hi := (Tab.find d.held h).getD (d.reg (h + 4))
        (false, ({ d with shadow := Tab.del d.shadow h, held := Tab.del d.held h } : Dev).pairWrite r x h v hi)

/-! ## Widths (R81) -/

/-- A register pair's low word lies at an offset aligned to 8 bytes that a requester can reach. -/
def pairAt (d : Dev) (r : Req) (a : Nat) (wr : Bool) : Option RegAt :=
  match regAt a with
  | some x => if x.spec.pair = .low && d.busAns r a wr != .hole then some x else none
  | none => none
/-- Both registers of an access of 8 bytes exist for a requester. -/
def twoRegs (d : Dev) (r : Req) (a : Nat) (wr : Bool) : Bool := d.busAns r a wr != .hole && d.busAns r (a + 4) wr != .hole

/-- A read of 2^n bytes at an offset (R81): what one 4-byte access does not bring is open (log 46). The clamp of a mis-sized
access is counted and captured before the access itself, which then finds it there: the order is open (R66; DESIGN CHOICE,
log 72). -/
def busReadN (d : Dev) (aon : AonSt) (r : Req) (a n : Nat) : W64 × Bool × Dev :=
  let cham := match r with | .cham _ => true | _ => false
  if n = 2 && a % 4 = 0 then
    let (v, c, d) := d.busRead aon r a
    (v.setWidth 64, c, d)
  else if cham && n = 3 && a % 8 = 0 && (d.pairAt r a false).isSome then
    match d.pairAt r a false, regAt (a + 4) with
    | some x, some y =>
      let h := regHome x a
      let (ts, d) := if isTs x then d.sampleTs x.inst else (0, d)
      (joinScale (readValue x.spec.fields (d.liveReg aon r ts x h), readValue y.spec.fields (d.liveReg aon r ts y (h + 4))), false, d)
    | _, _ => (0#64, false, d)
  else if cham && n = 3 && a % 8 = 0 && d.twoRegs r a false then
    let (v, c, d) := d.busRead aon r a
    let (w, e, d) := d.busRead aon r (a + 4)
    (joinScale (v, w), c || e, d)
  else
    let d := d.addrClamp r 4 (d.regAddr a)
    let (v, _, d) := d.busRead aon r (alignDown a 4)
    let o := a % 4
    let w := 8 * 2 ^ n
    let got := 8 * (4 - o)
    let (f, d) := if got < w then d.draw else (0#64, d)
    (BitVec.ofNat 64 (if w ≤ got then v.toNat / 2 ^ (8 * o) % 2 ^ w else v.toNat / 2 ^ (8 * o) + f.toNat / 2 ^ got * 2 ^ got), true, d)

/-- A write of 2^n bytes at an offset (R81). -/
def busWriteN (d : Dev) (r : Req) (a n : Nat) (v : W64) : Bool × Dev :=
  let cham := match r with | .cham _ => true | _ => false
  let lo := BitVec.ofNat 32 v.toNat
  let hi := BitVec.ofNat 32 (v.toNat / 2 ^ 32)
  if n = 2 && a % 4 = 0 then d.busWrite r a lo
  else if cham && n = 3 && a % 8 = 0 && (d.pairAt r a true).isSome then
    match d.pairAt r a true with
    | some x =>
      if d.busAns r a true = .frozen then (false, d) else
      let h := regHome x a
      (false, ({ d with held := Tab.del d.held h } : Dev).pairWrite r x h lo hi)
    | none => (false, d)
  else if cham && n = 3 && a % 8 = 0 && d.twoRegs r a true then
    let (c, d) := d.busWrite r a lo
    let (e, d) := d.busWrite r (a + 4) hi
    (c || e, d)
  else
    let d := d.addrClamp r 4 (d.regAddr a)
    (true, (d.busWrite r (alignDown a 4) (BitVec.ofNat 32 (v.toNat % 2 ^ (8 * 2 ^ n) * 2 ^ (8 * (a % 4))))).2)

end Dev

/-! ## Writes whose effect reaches beyond the main rails -/

/-- A 4-byte write of a register at an aligned offset, those of the standby rail and of enumeration among them. -/
def State.busWrite (s : State) (r : Req) (a : Nat) (v : W32) : State :=
  let pass := s.onDev (fun d => (d.busWrite r a v).2)
  match regAt a with
  | none => pass
  | some x =>
    if s.dev.busAns r a true ≠ .ok then pass else
    match x.row.blk, x.spec.off with
    | .tahr, 0x4 => if getF v F.tahrSetCtrl_save = 1 then s.saveSettings else s
    | .pwr, 0x0 => s.writeCap (getF v F.pwrCap_w)
    | .pwr, 0x8 => if getF v F.pwrCtrl_reset = 1 then s.deviceReset 4 else s
    | .dir, 0x0 =>
      if getF v F.dirCfg_enum = 1 then pass.onDev (fun d => d.enumStart s.prefNode) else pass
    | _, _ => pass
/-- A write of 2^n bytes of a requester; one of 4 bytes at an aligned offset, and what R81 makes one. -/
def State.busWriteN (s : State) (r : Req) (a n : Nat) (v : W64) : State :=
  let cham := match r with | .cham _ => true | _ => false
  let lo := BitVec.ofNat 32 v.toNat
  if n = 2 && a % 4 = 0 then s.busWrite r a lo
  else if cham && n = 3 && a % 8 = 0 then
    if (s.dev.pairAt r a true).isSome || !s.dev.twoRegs r a true then s.onDev (fun d => (d.busWriteN r a n v).2)
    else (s.busWrite r a lo).busWrite r (a + 4) (BitVec.ofNat 32 (v.toNat / 2 ^ 32))
  else
    (s.onDev (fun d => d.addrClamp r 4 (d.regAddr a))).busWrite r (alignDown a 4) (BitVec.ofNat 32 (v.toNat % 2 ^ (8 * 2 ^ n) * 2 ^ (8 * (a % 4))))

end Sys2Proof.Machine
end

