-- ==== Sys2Proof/Machine/ExecBus.lean ====
section
/-! DEFINITION. The commands of the register bus, the uncached requests of other nodes, and the accesses of Chamois cores. -/
namespace Sys2Proof.Machine

namespace Dev

/-- Gives a read's answer to its requester. -/
def gave (p : W64 × Bool × Dev) : Dev := p.2.2.gives p.1 p.2.1
/-- The offset is a half of a register pair that a requester can reach: low or high. -/
def halfOf (d : Dev) (r : Req) (a : Nat) (wr : Bool) (h : PairHalf) : Bool :=
  match regAt a with
  | some x => x.spec.pair == h && d.busAns r a wr != .hole
  | none => false

/-! ## Uncached requests of other nodes -/

/-- The answer of one register read to an RD (R81): the register's bytes, then bytes that nothing states (log 46). -/
def regRead (d : Dev) (aon : AonSt) (m : Msg) : Dev :=
  let a := addrOff m.addr
  let o := alignDown a 16
  let n := 16 * (a % 16 + 1)
  let r : Req := .remote m.src
  let (v, _, d) := (d.addrClamp r 4 (d.regAddr o)).busRead aon r o
  let (fs, d) := d.freeWords (n / 8)
  d.reply { m with clamped := true } 0x20 0 (leBytes 4 v.toNat ++ (fs.flatMap (fun w => leBytes 8 w.toNat)).drop 4) false
/-- The register write that a WR or a WRP makes (R81): offset, value, whether its width is a register's; none writes nothing. -/
def regStore (m : Msg) : Option (Nat × W32 × Bool) :=
  let lo := alignDown (addrOff m.addr) 16
  if m.opc = 5 then some (lo, BitVec.ofNat 32 (leVal (m.data.take 4)), false)
  else
    let mask := leVal (m.data.take 2)
    match (List.range 16).find? (fun i => mask.testBit i) with
    | none => none
    | some i =>
      let w := alignDown i 4
      let b := (List.range 4).map (fun j => if mask.testBit (w + j) then m.data.getD (16 + w + j) 0#8 else 0#8)
      some (lo + w, BitVec.ofNat 32 (leVal b), mask == 0xF * 2 ^ w)
/-- Bytes that a request reaches. -/
def reqSize (m : Msg) : Nat := match m.opc with | 1 => 16 * (addrOff m.addr % 16 + 1) | 5 => m.data.length | 6 => 16 | _ => 8

end Dev

/-- RD, WR, WRP or AMO at its home (R76, R279, R293): of memory in its turn at the directory, of a register as one access;
a write that finds no room in the write buffer is not taken yet (R402). -/
def State.uncached (s : State) (h : Nat) (m : Msg) (opc : Nat) : State :=
  if !s.dev.rxFirst h m opc then s else
  let p := (s.dev.rxTake h m).arrive m (if opc = 8 then Dev.noT34 else Dev.stay) (Dev.reqSize m)
  let d := p.1
  let m := p.2
  if addrTier m.addr = 4 then
    if opc = 1 then { s with dev := d.regRead s.aon m }
    else
      match Dev.regStore m with
      | none => { s with dev := d.reply m 0x23 0 [] false }
      | some (a, v, ok) =>
        let r : Req := .remote m.src
        let d := if ok then d else d.addrClamp r 4 (d.regAddr a)
        let cl := m.clamped || !ok || (d.busWrite r a v).1
        (({ s with dev := d } : State).busWrite r a v).onDev (fun d => d.reply { m with clamped := cl } 0x23 0 [] false)
  else
    let g := Dev.reqRange m
    let rs := d.homeRuns (addrTier m.addr) g.1 g.2
    if opc ≠ 1 && !rs.all (fun r => d.lcanWrite (addrTier m.addr) r.1 r.2) && !d.ftl.retired then s
    else { s with dev := (if opc = 1 then d else rs.foldl (fun d r => d.roStore (addrTier m.addr) r.1 r.2) d).serve ⟨m, h⟩ }

/-! ## Accesses of Chamois cores (R22, R35, R72, R74, R81, R106 to R108) -/

namespace Dev

/-- The runs of n bytes from a place on: bytes beyond the tier lie in its last line (R74). -/
def spanRuns (d : Dev) (p : Place) (n : Nat) : List (Nat × Nat) :=
  let z := d.tierSize p.tier
  if p.off + n ≤ z || z ≤ p.off then [(p.off, n)] else [(p.off, z - p.off), (z - 128, n - (z - p.off))]
/-- An exception of a Chamois core (R72): load access fault 5, store access fault 7; misaligned atomics 4 and 6. -/
def chamFault (d : Dev) (k cause : Nat) : Dev := { d with chamExc := Tab.put d.chamExc k cause }
/-- What a Chamois atomic does to memory or to a cached line, once it may. -/
inductive ChamRun where
  | wait (d : Dev)
  | fault (cause : Nat) (d : Dev)
  | bytes (l : List Byte) (d : Dev)

/-- The outstanding requests of a core's own accesses. -/
def chamOuts (d : Dev) (k : Nat) : List Nat :=
  (d.herd.outs.filter (fun o => match o.2.kind with | .chamRd n _ _ | .chamSt n | .chamAmo n _ _ _ _ _ => n == k | _ => false)).map (·.1)
/-- A core's later accesses wait for some of its requests (R107, R283). -/
def chamFence (d : Dev) (k : Nat) (tags : List Nat) : Dev := { d with herd := { d.herd with fences := d.herd.fences ++ tags.map (fun t => (k, t)) } }
/-- A core waits at a fence. -/
def chamHeld (d : Dev) (k : Nat) : Bool := d.herd.fences.any (fun f => f.1 == k)
/-- The lines of this node that runs of a place lie in and that caches may hold (R290). -/
def hereLines (d : Dev) (tier : Nat) (runs : List (Nat × Nat)) : List Nat :=
  runs.flatMap (fun r => (pieces r.1 r.2).flatMap (fun p => let q := d.resolve tier p.1; if q.1 = 1 || q.1 = 2 then linesOf q.1 q.2 p.2.2 else []))
/-- Makes a local access of a core: f gives the bytes to write from those read. Its lines are held in the caches of its die after it. -/
def chamHere (d : Dev) (k : Nat) (p : Place) (n : Nat) (rd : Bool) (f : Option (List Byte → List Byte)) : ChamRun :=
  let runs := d.spanRuns p n
  let wr := f.isSome
  let holds := runs.flatMap (fun r => d.lholds p.tier r.1 r.2 wr)
  if !holds.isEmpty then .wait (d.dirAsk wr holds)
  else if wr && !runs.all (fun r => d.lcanWrite p.tier r.1 r.2) then .wait d
  else
    let ks := d.hereLines p.tier runs
    let d := (ks.filter d.noRoom).foldl (fun d k => d.freeWay k) d
    if ks.any d.noRoom then .wait d else
    let was := d
    let l := runs.map (fun r => d.lread p.tier r.1 r.2)
    let old := l.flatMap (·.1)
    let d := if rd then runs.foldl (fun d r => d.lmeet (unitId 2 k) p.tier r.1 r.2) d else d
    if rd && l.any (·.2) then .fault (if wr then 7 else 5) d
    else match f with
      | none => .bytes old (cacheHere was (k / 16) false ks d)
      | some g =>
        let new := g old
        let at' := fun (i : Nat) => ((runs.take i).map (·.2)).foldl (· + ·) 0
        .bytes old (cacheHere was (k / 16) true ks ((List.range runs.length).foldl (fun d i => match runs[i]? with
          | some r => d.lwrite p.tier r.1 ((new.drop (at' i)).take r.2)
          | none => d) d))
/-- The lines of another node that an access touches. -/
def farLines (a n : Nat) : List Nat := if a / 128 = (a + n - 1) / 128 then [a / 128] else [a / 128, a / 128 + 1]
/-- Makes an access to another node's tiers 1 and 2 through this node's cached lines (R290, R293): a line that is not held as
needed is asked for once. -/
def chamCached (d : Dev) (k : Nat) (p : Place) (n : Nat) (f : Option (List Byte → List Byte)) : ChamRun :=
  let a := (placeAddr p).toNat
  let wr := f.isSome
  let ls := farLines a n
  let ok := fun (l : Nat) => match Tab.find d.herd.cache l with | some c => !wr || c.st == 2 | none => false
  match ls.find? (fun l => !ok l) with
  | some l =>
    let la := BitVec.ofNat 64 (128 * l)
    if d.herd.outs.any (fun o => match o.2.kind with | .chamLine _ _ => o.2.addr == la | _ => false) then .wait d
    else
      let opc := if !wr then 2 else if (Tab.find d.herd.cache l).isSome then 4 else 3
      match d.request (k / 16) ((Req.cham k).part d) opc la [] (.chamLine k wr) with
      | .sent _ d => .wait d
      | .wait => .wait d
      | .no d => .fault (if wr then 7 else 5) { d with rstatus := 0x0B }
  | none =>
    let line := fun (l : Nat) => match Tab.find d.herd.cache l with | some c => c.data | none => []
    let old := ((ls.flatMap line).drop (a % 128)).take n
    match f with
    | none => .bytes old d
    | some g =>
      let new := g old
      let d : Dev := (List.range n).foldl (fun d i =>
        let b := a + i
        { d with herd := { d.herd with cache := Tab.modify d.herd.cache (b / 128) (fun c => { c with data := c.data.set (b % 128) (new.getD i 0#8), dirty := true }) } }) d
      .bytes old { d with resv := d.resv.filter (fun q => !(ls.map (2 ^ 60 + ·)).contains q.2.2) }
/-- Asks another node for an access that no cache may serve (tiers 0, 3 and 4, R290): the answer is in its reply. -/
def chamUncached (d : Dev) (k : Nat) (p : Place) (op : MemOp) (n : Nat) (v : W64) : Dev :=
  let part := (Req.cham k).part d
  let o := p.off
  let fail := fun (c : Nat) (d : Dev) => ({ d with rstatus := 0x0B } : Dev).chamFault k c
  match op with
  | .load =>
    let lo := alignDown o 16
    match d.request (k / 16) part 1 (mkAddr p.node p.tier (lo + ((o + n + 15) / 16 - lo / 16 - 1))) [] (.chamRd k (o - lo) n) with
    | .sent _ d => d
    | .wait => d
    | .no d => fail 5 d
  | .lr | .lrAq =>
    -- a place that no cache holds takes no reservation
    let lo := alignDown o 16
    match d.request (k / 16) part 1 (mkAddr p.node p.tier lo) [] (.chamRd k (o - lo) n) with
    | .sent _ d => { d with resv := Tab.del d.resv k }
    | .wait => d
    | .no d => fail 5 d
  | .sc | .scRl => ({ d with resv := Tab.del d.resv k } : Dev).gives 1#64 false
  | .fence => d
  | .store =>
    let b := leBytes n v.toNat
    let u0 := o / 16
    (List.range ((o + n + 15) / 16 - u0)).foldl (fun d i =>
      let lo := 16 * (u0 + i)
      let hit := fun (j : Nat) => o ≤ lo + j && lo + j < o + n
      let mask := ((List.range 16).map (fun j => if hit j then 2 ^ j else 0)).foldl (· + ·) 0
      let dat := (List.range 16).map (fun j => if hit j then b.getD (lo + j - o) 0#8 else 0#8)
      match d.request (k / 16) part 6 (mkAddr p.node p.tier lo) (leBytes 16 mask ++ dat) (.chamSt k) with
      | .sent _ d => d
      | .wait => d
      | .no d => fail 7 d) d
  | .amo f | .amoOrd f _ _ =>
    let lo := o % 8
    let op := if n = 8 then f.val else 10
    match d.request (k / 16) part 8 (mkAddr p.node p.tier (o - lo)) (leBytes 8 v.toNat ++ leBytes 8 0 ++ leBytes 16 op) (.chamAmo k f n lo v none) with
    | .sent _ d => d
    | .wait => d
    | .no d => fail 7 d

/-- The reservation key of a place: its line here, or another node's line (R106). -/
def resvKey (d : Dev) (p : Place) : Nat :=
  if d.isHere p then (let q := d.resolve p.tier p.off; memKey q.1 (alignDown q.2 128)) else farResv (placeAddr p)

/-- An access of a Chamois core to anything but this device's registers: whether it was made (else it must wait), and what it
leaves: its answer or its exception. -/
def chamAccess (d : Dev) (k : Nat) (p : Place) (op : MemOp) (n : Nat) (v : W64) (cl : Bool) : Bool × Dev :=
  let part := fun (l : List Byte) => BitVec.ofNat 64 (leVal l)
  let put : List Byte → List Byte := fun _ => leBytes n v.toNat
  let go := fun (d : Dev) (rd : Bool) (f : Option (List Byte → List Byte)) => if d.isHere p then d.chamHere k p n rd f else d.chamCached k p n f
  let key := d.resvKey p
  let overs : ChamRun → (List Byte → Dev → Dev) → Bool × Dev := fun r ok => match r with
    | .wait d => (false, d)
    | .fault c d => (true, d.chamFault k c)
    | .bytes l d => (true, ok l d)
  if !d.isHere p && p.tier ≠ 1 && p.tier ≠ 2 then
    if d.assigned && (d.freeTag (k / 16)).isNone then (false, d) else
    let e := d.chamUncached k p op n v
    (true, if op.acquires then e.chamFence k ((e.chamOuts k).filter (fun t => !(d.chamOuts k).contains t)) else e)
  else match op with
    | .load => overs (go d true none) (fun l d => d.gives (part l) cl)
    | .store => overs (go d false (some put)) (fun _ d => d.flags (b2n cl))
    | .fence => (true, d)
    | .amo f | .amoOrd f _ _ => overs (go d true (some (fun old => leBytes n (amoVal f n (leVal old) v.toNat)))) (fun l d => d.gives (part l) cl)
    | .lr | .lrAq => overs (go d true none) (fun l d => { d.gives (part l) cl with resv := Tab.put d.resv k (placeAddr p, key) })
    | .sc | .scRl =>
      match Tab.find d.resv k with
      | some q =>
        if q.2 = key then overs (go d false (some put)) (fun _ d => { d.gives 0#64 cl with resv := Tab.del d.resv k })
        else (true, { d.gives 1#64 cl with resv := Tab.del d.resv k })
      | none => (true, d.gives 1#64 cl)

end Dev

/-- An access of a Chamois core (R35): clamped (R74), then made at the home of its address; the registers of this device by
the register bus; a store to tier 3 is not performed and raises a store access fault (R72). A fence makes the core's later accesses
wait for the replies to its earlier ones, a release form waits for them itself, an acquire form has later accesses wait for its own
(R107, R283). -/
def State.chamAccess (s : State) (k : Nat) (a : W64) (op : MemOp) (n : Nat) (v : W64) : State :=
  let d := s.dev
  if !d.chamRuns k then s else
  let r : Req := .cham k
  if op = .fence then { s with dev := d.chamFence k (d.chamOuts k) } else
  if d.chamHeld k || (op.releases && !(d.chamOuts k).isEmpty) then s else
  let w := 2 ^ n
  let atomic := op.atomic
  let d : Dev := { d with chamExc := Tab.del d.chamExc k }
  if atomic && n < 2 then s
  else if atomic && a.toNat % w ≠ 0 then { s with dev := d.chamFault k (if op.isLr then 4 else 6) }
  else
    let p := d.clampSteps r false (if atomic then Dev.noT34 else Dev.stay) a w
    let ks := if d.isHere p && p.tier ≠ 4 && !p.kinds.contains 2 && d.tierSize p.tier < p.off + w then p.kinds ++ [2] else p.kinds
    if op = .store && p.tier = 3 then { s with dev := (d.noteClamps r ks a).chamFault k 7 }
    else if d.isHere p && p.tier = 4 then
      let e := d.noteClamps r ks a
      let s : State := { s with dev := e }
      if op = .store then
        let c := (e.busWriteN r p.off n v).1
        (s.busWriteN r p.off n v).onDev (fun d => d.flags (b2n (c || !ks.isEmpty)))
      else
        let g := e.busReadN s.aon r p.off n
        { s with dev := g.2.2.gives g.1 (g.2.1 || !ks.isEmpty) }
    else
      let out := d.chamAccess k p op w v (!ks.isEmpty)
      -- an access that must wait counts nothing yet
      { s with dev := if out.1 then out.2.noteClamps r ks a else out.2 }

/-- REGISTER_WRITE (R12, R13, R79 to R82). -/
def execRegisterWrite (r : Req) (a : BitVec 24) (n : Fin 4) (v : W64) (s : State) : Out :=
  let c := (s.dev.busWriteN r a.toNat n v).1
  .next (((s.busWriteN r a.toNat n v).onDev (fun d => d.flags (b2n c))).settled)
/-- REGISTER_HOLE_ACCESS (R79). -/
def execRegisterHoleAccess (r : Req) (a : BitVec 24) (wr : Bool) (s : State) : Out :=
  .next (s.onDev (fun d => if d.busAns r a.toNat wr = .hole then d.holeAccess r a.toNat else d))
/-- CHAMOIS_8BYTE_PAIR_ACCESS (R81). -/
def execChamois8bytePairAccess (k : Fin 32) (a : BitVec 24) (wr : Bool) (v : W64) (s : State) : Out :=
  let r : Req := .cham k
  if a.toNat % 8 ≠ 0 || (s.dev.pairAt r a.toNat wr).isNone then .next s
  else if wr then .next (((s.busWriteN r a.toNat 3 v).onDev (fun d => d.flags 0)).settled)
  else .next (s.onDev (fun d => Dev.gave (d.busReadN s.aon r a.toNat 3)))
/-- PAIR_LOW_WORD_READ (R82). -/
def execPairLowWordRead (r : Req) (a : BitVec 24) (s : State) : Out :=
  .next (s.onDev (fun d => if d.halfOf r a.toNat false .low then Dev.gave (d.busReadN s.aon r a.toNat 2) else d))
/-- PAIR_HIGH_WORD_WRITE (R82). -/
def execPairHighWordWrite (r : Req) (a : BitVec 24) (v : W32) (s : State) : Out :=
  .next (if s.dev.halfOf r a.toNat true .high then (s.busWrite r a.toNat v).onDev (fun d => d.flags 0) else s)
/-- PAIR_LOW_WORD_WRITE (R82). -/
def execPairLowWordWrite (r : Req) (a : BitVec 24) (v : W32) (s : State) : Out :=
  .next ((if s.dev.halfOf r a.toNat true .low then (s.busWrite r a.toNat v).onDev (fun d => d.flags 0) else s).settled)
/-- CHAMOIS_MEMORY_ACCESS (R35, R72, R74, R106, R107). -/
def execChamoisMemoryAccess (k : Fin 32) (a : W64) (op : MemOp) (n : Fin 4) (v : W64) (s : State) : Out :=
  .next ((s.chamAccess k a op n v).settled)
/-- RD (R279, R293). -/
def execRd (h : Fin 36) (m : Msg) (s : State) : Out := .next ((s.uncached h m 1).settled)
/-- WR (R279, R293). -/
def execWr (h : Fin 36) (m : Msg) (s : State) : Out := .next ((s.uncached h m 5).settled)
/-- WRP (R279, R293). -/
def execWrp (h : Fin 36) (m : Msg) (s : State) : Out := .next ((s.uncached h m 6).settled)
/-- AMO (R106, R279, R293). -/
def execAmo (h : Fin 36) (m : Msg) (s : State) : Out := .next (s.uncached h m 8)

end Sys2Proof.Machine
end

