-- ==== Sys2Proof/Machine/ExecCross.lean ====
section
/-! DEFINITION. The commands of the tempo monitors, the time-stamps, the dual-clock queues and the die-to-die links
(chapters 01 to 03). -/
namespace Sys2Proof.Machine

/-- TEMPO_WINDOW_COMPLETE (R50). -/
def execTempoWindowComplete (i : Fin 32) (rate : BitVec 12) (s : State) : Out :=
  .next (s.onDev (fun d =>
    if !d.flag (R.tempoCtrl i) F.tempoCtrl_en then d else
    let r := rate.toNat
    let m := d.fld (R.tempoMin i) F.tempoMin_min
    let lowT := d.fld (R.tempoLow i) F.tempoLow_lowThresh
    let d := d.setFlds (R.tempoRate i) [(F.tempoRate_rate, r), (F.tempoRate_valid, 1)]
    let d := d.setFld (R.tempoMin i) F.tempoMin_min (if m = 0 then r else min m r)
    if lowT ≠ 0 && r < lowT then
      (d.setFld (R.tempoStatus i) F.tempoStatus_below 1).count (R.tempoBelow i) (R.tempoStatus i) F.tempoStatus_ovf
    else d))

/-- TEMPO_CLR_COUNT (R50, Table 02-2a). -/
def execTempoClrCount (r : Req) (i : Fin 32) (s : State) : Out :=
  .next (s.onDev (fun d => d.regDo r (R.tempoCtrl i) (fun d => d.setReg (R.tempoBelow i) 0#32)))

/-- TEMPO_MIN_READ (R66): the read returns the field and clears it. -/
def execTempoMinRead (r : Req) (i : Fin 32) (s : State) : Out :=
  .next (s.onDev (fun d =>
    if d.busAns r (R.tempoMin i) false = .ok then
      { d.setReg (R.tempoMin i) 0#32 with rdata := (d.reg (R.tempoMin i)).setWidth 64, rflags := 0 }
    else d.holeAccess r (R.tempoMin i)))

/-- ADDR_CLAMP_CNT_READ (R66). -/
def execAddrClampCntRead (r : Req) (j : Fin 19) (s : State) : Out :=
  .next (s.onDev (fun d =>
    if d.busAns r (R.addrClampCnt j) false = .ok then
      { d.setReg (R.addrClampCnt j) 0#32 with rdata := (d.reg (R.addrClampCnt j)).setWidth 64, rflags := 0 }
    else d.holeAccess r (R.addrClampCnt j)))

/-- The counter of a die minus the Vat die's, as a signed byte (R62, R63). -/
def tsSkewOf (i : Nat) : Nat := wrapTo 8 ((Config.tsAhead i % 5 : Nat) - (Config.tsAhead 2 % 5 : Nat))

/-- TS_SKEW_COMPARE (R63): each die compares its counter with the Vat die's, whose own difference is 0.
The differences are those of the counters themselves, whatever the command says was read. -/
def execTsSkewCompare (_d0 _d1 : BitVec 8) (s : State) : Out :=
  .next (s.onDev (fun d => (List.range 3).foldl (fun d i => d.setFld (R.tsSkew i) F.tsSkew_skew (tsSkewOf i)) d))

/-- DCQ_WRITE (R54). -/
def execDcqWrite (q : Fin 17) (i : BitVec 8) (up : Bool) (e : List Byte) (s : State) : Out :=
  .next (s.onDev (fun d => d.dcqPut q i.toNat up e))

/-- DCQ_READ (R55). -/
def execDcqRead (q : Fin 17) (i : BitVec 8) (up : Bool) (s : State) : Out := .next (s.onDev (fun d => d.dcqGet q i.toNat up))

/-- CLOCK_STOP (R58). -/
def execClockStop (dom : Fin 10) (i : BitVec 8) (s : State) : Out :=
  .next (s.onDev (fun d => if domCount dom ≤ i.toNat || d.stopped.contains (dom.val * 256 + i.toNat) then d else { d with stopped := (dom.val * 256 + i.toNat) :: d.stopped }))

/-- CLOCK_RESTART (R58). -/
def execClockRestart (dom : Fin 10) (i : BitVec 8) (s : State) : Out :=
  .next (s.onDev (fun d => { d with stopped := d.stopped.filter (· ≠ dom.val * 256 + i.toNat) }))

/-- A transfer has a beat in flight to or from memory controller i of a kind (R71). -/
def Dev.beatOnPath (d : Dev) (kind i : Nat) (b : Beat) : Bool :=
  match (d.ctx? b.ctx).bind (fun x => x.xfers.find? (·.id == b.xid)) with
  | none => false
  | some t =>
    let tier := addrTier t.far.base
    !d.farAway t && (tier == 1 || tier == 2) && (d.farRuns t (upFrom b.lo b.n)).any (fun r => let q := d.resolve tier r.2.1; (q.1 == 1 || q.1 == 2) && ctrlOf q.1 q.2 == (kind, i))
/-- Entries of a memory controller's crossing have been discarded (R60): the stream engines abort the tasks whose transfers have
beats on that path (R210). -/
def Dev.pathLost (d : Dev) (kind i : Nat) : Dev :=
  (List.range 64).foldl (fun d k =>
    ((d.core k).inflight.filter (d.beatOnPath kind i)).foldl (fun d b =>
      match (d.ctx? b.ctx).bind (fun x => x.xfers.find? (·.id == b.xid)) with
      | some t => d.abortTask b.ctx 3 b.eng t.far.base
      | none => d) d) d
/-- QUEUE_RESYNC (R59, R60): the block that owns the crossing handles what the handshake discards. -/
def execQueueResync (q : Fin 17) (i : BitVec 8) (up wr rd : Bool) (s : State) : Out :=
  .next (s.onDev (fun d =>
    let n := (d.dcq (dcqKey q i.toNat up)).items.length
    let d := d.dcqResync q i.toNat up wr rd
    if n ≠ 0 && (d.dcq (dcqKey q i.toNat up)).items.isEmpty && (q.val = 3 || q.val = 4) then d.pathLost q i.toNat else d)).settled

/-- D2D_FLIT_RECEIVE (R28, R30). The virtual channel goes on with the flit. -/
def execD2dFlitReceive (l : Fin 3) (up : Bool) (m : Fin 16) (sq : BitVec 16) (vc : BitVec 4) (good : Bool) (e : List Byte) (s : State) : Out :=
  .next (s.onDev (fun d => d.d2dReceive l up m sq.toNat vc.toNat good e)).settled

/-- D2D_MODULE_RETRAIN (R31). -/
def execD2dModuleRetrain (l : Fin 3) (m : Fin 16) (lanes : Bool) (s : State) : Out :=
  .next (s.onDev (fun d => d.d2dRetrain l m lanes)).settled

/-- D2D_RETRAIN_COMPLETE (R31, R32). -/
def execD2dRetrainComplete (l : Fin 3) (m : Fin 16) (good : Bool) (s : State) : Out :=
  .next (s.onDev (fun d => d.d2dRetrained l m good)).settled

end Sys2Proof.Machine
end

