-- ==== Sys2Proof/Machine/Itnum.lean ====
section
/-! DEFINITION. An ITNUM instruction: its word's fields (R116, Table 05-2), the checks before it executes (R117 to R120, R125), how
it leaves its context (R112, R130), and the scalar accesses that it makes (R69 to R76, R122). -/
namespace Sys2Proof.Machine

/-! ## Fields -/

/-- An instruction word has an extension word behind it. -/
def iExt (w : W64) : Bool := bit64 w 53
/-- The extension word as an instruction takes it: zeros where there is none (R118). -/
def extOf (w x : W64) : W64 := if iExt w then x else 0#64
/-- Bits [n − 1:0] of a word as a signed number. -/
def simm (w : W64) (n : Nat) : W64 := BitVec.ofInt 64 (signedOf n (bits64 w 0 n))
/-- Format A. -/
def aSd (w : W64) : Nat := bits64 w 44 5
def aSa (w : W64) : Nat := bits64 w 39 5
def aSb (w : W64) : Nat := bits64 w 34 5
def aIs (w : W64) : Bool := bit64 w 33
/-- IMM of format A where it is used: the extension word in its place where there is one (R118). -/
def aImm (w x : W64) : W64 := if iExt w then x else simm w 33
/-- Format B: OFF, in bytes. -/
def bOff (w : W64) : W64 := simm w 32 * 8#64
/-- Format D. -/
def dTdn (w : W64) : Nat := bits64 w 43 6
def dSx (w : W64) : Nat := bits64 w 38 5
def dWord (w : W64) : Nat := bits64 w 35 3
/-- Format E. -/
def eEv (w : W64) : Nat := bits64 w 43 6
def eSa (w : W64) : Nat := bits64 w 32 5
def eSb (w : W64) : Nat := bits64 w 27 5
def eSd (w : W64) : Nat := bits64 w 22 5
/-- Format F. -/
def fTdx (w : W64) : Nat := bits64 w 43 6
def fTdy (w : W64) : Nat := bits64 w 37 6
def fSd (w : W64) : Nat := bits64 w 32 5
def fSs (w : W64) : Nat := bits64 w 27 5
def fSa (w : W64) : Nat := bits64 w 22 5
def fSb (w : W64) : Nat := bits64 w 17 5
def fEv (w : W64) : Nat := bits64 w 11 6
def fMod (w : W64) : Nat := bits64 w 0 7
/-- Format T. -/
def tTdd (w : W64) : Nat := bits64 w 43 6
def tTda (w : W64) : Nat := bits64 w 37 6
def tTdb (w : W64) : Nat := bits64 w 31 6
def tTdc (w : W64) : Nat := bits64 w 25 6
def tEv (w : W64) : Nat := bits64 w 19 6
def tMod (w : W64) : Nat := bits64 w 0 18

/-- The operations that Table 05-3 defines. -/
def definedOp (cls op : Nat) : Bool :=
  match cls with
  | 0 => op ≤ 6
  | 1 => op ≤ 3
  | 2 => op ≤ 7
  | 3 => op ≤ 0x13 || (0x20 ≤ op && op ≤ 0x25)
  | 4 | 6 => op == 0
  | 5 | 7 | 9 | 10 => op ≤ 4
  | 8 => op ≤ 0xC
  | _ => false

/-! ## Execution -/

/-- What an instruction says of extension words (R118). -/
inductive ExtKind where
  | none | opt | req
  deriving DecidableEq, Repr

/-- How an instruction leaves its context. -/
inductive Leave where
  /-- it cannot execute yet: nothing of it has happened -/
  | wait (d : Dev)
  /-- the next instruction follows -/
  | next (d : Dev)
  /-- a branch is taken -/
  | goto (a : W64) (d : Dev)
  /-- the context blocks, or waits at a task boundary, behind the instruction -/
  | block (b : Wait) (d : Dev)
  /-- the instruction is held until a reply -/
  | hold (tag : Nat) (d : Dev)
  /-- the context ends with a status -/
  | fin (st : Nat) (d : Dev)
  /-- the task was aborted -/
  | overs (d : Dev)

namespace Dev

/-- A context executes: it is RUNNING, waits for nothing, and its core runs and is not fenced. -/
def execs (d : Dev) (x : Ctx) : Bool :=
  x.st == .running && x.wait == .none && !x.fenced && !d.isFenced (unitId 1 x.core) && d.flag (R.kuduCtrl x.core) F.kuduCtrl_run
/-- An address lies in the code (R97). -/
def inCode (x : Ctx) (a : W64) : Bool := decide ((a - x.launch.codeLo).toNat < (x.launch.codeHi - x.launch.codeLo).toNat)
/-- The address behind an instruction (R117). -/
def behind' (x : Ctx) (w : W64) : W64 := x.arch.pc + (if iExt w then 16#64 else 8#64)
/-- An instruction has executed. -/
def leaveBy (d : Dev) (c : Nat) (next : W64) (n : Nat) (l : Leave) : Dev :=
  match l with
  | .wait _ => d
  | .next e => ((e.clampC c n).modCtx c (fun x => x.setPc next)).trapNow c
  | .goto a e => ((e.clampC c n).modCtx c (fun x => x.setPc a)).trapNow c
  | .block b e => match b with
    | .boundary => (e.clampC c n).modCtx c (fun x => { x.setPc next with wait := b })
    | _ => (e.clampC c n).blockCtx c b next
  | .hold tag e => (e.clampC c n).modCtx c (fun x => { x with wait := .remote tag next })
  | .fin st e => ((e.clampC c n).trapNow c).endCtx c st
  | .overs e => e.clampC c n
/-- What is left where the instruction could not execute yet. -/
def waited (d : Dev) (l : Leave) : Dev := match l with | .wait e => e | _ => d
/-- A context executes an instruction of a class and operation (R116 to R120, R125): f is its effect, given the context, the
extension word and the clamps that the extension rule counts. -/
def run (d : Dev) (c : Nat) (w xw : W64) (cls op : Nat) (k : ExtKind) (uses : List Nat) (f : Dev → Ctx → W64 → Nat → Leave) : Dev :=
  match d.ctx? c with
  | none => d
  | some x =>
    if !d.execs x || bits64 w 60 4 ≠ cls || bits64 w 54 6 ≠ op || !inCode x x.arch.pc || (iExt w && !inCode x (x.arch.pc + 8#64)) then d
    else if x.p (bits64 w 50 3) == bit64 w 49 then d.modCtx c (fun x => x.setPc (behind' x w))
    else if uses.any (fun r => r != 0 && x.pendingRegs.contains r) then d
    else
      let n := match k with | .none => b2n (iExt w) | .opt => 0 | .req => b2n (!iExt w)
      let e := if iExt w && k ≠ .none then xw else 0#64
      match f d x e n with
      | .wait e => e
      | l => d.leaveBy c (behind' x w) n l

/-- A branch target (R130): rounded down to 8, not below the first instruction; clamps. -/
def target (x : Ctx) (a : W64) : W64 × Nat :=
  let b := BitVec.ofNat 64 (alignDown a.toNat 8)
  let low := decide (b.toNat < x.launch.codeLo.toNat)
  (if low then x.launch.codeLo else b, b2n (b != a) + b2n low)
/-- Takes a branch. -/
def jump (d : Dev) (c : Nat) (x : Ctx) (a : W64) : Leave := let t := target x a; .goto t.1 (d.clampC c t.2)
/-- A release follows every earlier access of its context (R101): those still outstanding hold it. -/
def released (d : Dev) (c : Nat) (x : Ctx) (on : Bool) (l : Leave) : Leave := if on && !d.boundaryReady c x then .wait d else l

/-! ## Scalar accesses -/

/-- The place of an operand of more than one word: its offset as it stands, one clamp for words beyond the tier (R74, R111). -/
def widePlace (d : Dev) (c : Nat) (redirect : Nat → Nat) (a : W64) (n : Nat) : Place :=
  let p := d.clampSteps (.ctx c) true redirect a 1
  let ks := p.kinds.filter (· ≠ 2)
  let out := d.isHere p && decide (d.sizeFor (.ctx c) true p.tier < addrOff a + n)
  { p with off := addrOff a, kinds := if out then ks ++ [2] else ks }
/-- The words of an access: offset, place in the access, bytes. -/
def itWords (d : Dev) (p : Place) (n : Nat) : List (Nat × Nat × Nat) :=
  if n ≤ 8 then [(d.memClip p.tier p.off, 0, n)] else (List.range (n / 8)).map (fun i => (d.memClip p.tier (p.off + 8 * i), 8 * i, 8))

/-- Reads of registers by a context's instruction (R81): an access of 4 aligned bytes each; of a wider word the other bytes are
open (log 46). Answers the kinds of the clamps that they count, once for the instruction (R111). -/
def regWords (d : Dev) (aon : AonSt) (c : Nat) (ws : List (Nat × Nat × Nat)) : List Byte × List Nat × Dev :=
  ws.foldl (fun acc w =>
    let d := acc.2.2
    let a := alignDown w.1 4
    let exact := w.2.2 = 4 && w.1 % 4 = 0
    let hole := d.busAns (.ctx c) a false = .hole
    let (v, _, d) := if hole then (0#32, true, d) else d.busRead aon (.ctx c) a
    let (f, d) := if exact then (0#64, d) else d.draw
    let l := ((leBytes 4 v.toNat ++ leBytes 8 f.toNat).drop (w.1 % 4)).take w.2.2
    (acc.1 ++ l, acc.2.1 ++ (if exact then [] else [4]) ++ (if hole then [3] else []), d)) ([], [], d)
/-- Writes of registers by a context's instruction: the register of each word's first byte (R81). -/
def regPuts (d : Dev) (c : Nat) (ws : List (Nat × Nat × Nat)) (l : List Byte) : List Nat × Dev :=
  ws.foldl (fun acc w =>
    let d := acc.2
    let a := alignDown w.1 4
    let exact := w.2.2 = 4 && w.1 % 4 = 0
    let v := leVal ((l.drop w.2.1).take w.2.2) * 2 ^ (8 * (w.1 % 4))
    let hole := d.busAns (.ctx c) a true = .hole
    (acc.1 ++ (if exact then [] else [4]) ++ (if hole then [3] else []), if hole then d else (d.busWrite (.ctx c) a (BitVec.ofNat 32 v)).2)) ([], d)

/-- How an access of this device went. -/
inductive Got where
  | wait (d : Dev)
  | bad (d : Dev)
  | got (l : List Byte) (d : Dev)

/-- Reads n bytes of this device for a context, with the kinds of the clamps that the places make and whether an invalid page was
read. -/
def readRaw (d : Dev) (aon : AonSt) (c : Nat) (x : Ctx) (p : Place) (n : Nat) : Got × List Nat × Bool :=
  if p.tier = 0 then
    if x.mm.isSome then (.wait d, [], false) else
    let os := upFrom p.off n
    if d.scrBad c x os then (.bad d, [], false) else (.got (os.map (fun o => d.scrByte c x o)) d, [], scrInvalid x os)
  else
    let ws := d.itWords p n
    if p.tier = 4 then
      let r := d.regWords aon c ws
      (.got r.1 r.2.2, r.2.1.eraseDups, false)
    else
      let holds := ws.flatMap (fun w => d.lholds p.tier w.1 w.2.2 false)
      if !holds.isEmpty then (.wait (d.dirAsk false holds), [], false)
      else
        let l := ws.map (fun w => d.lread p.tier w.1 w.2.2)
        let d := ws.foldl (fun d w => d.lmeet (unitId 1 x.core) p.tier w.1 w.2.2) d
        (if l.any (·.2) then .bad d else .got (l.flatMap (·.1)) d, [], false)
/-- Reads n bytes of this device for a context's instruction; the clamps of its address are counted where it is made. -/
def readHere (d : Dev) (aon : AonSt) (c : Nat) (x : Ctx) (p : Place) (n : Nat) (a : W64) : Got :=
  let r := d.readRaw aon c x p n
  let note := fun (d : Dev) => d.noteClamps (.ctx c) (p.kinds ++ r.2.1) a
  match r.1 with
  | .wait d => .wait d
  | .bad d => .bad (note d)
  | .got l d => .got l (if r.2.2 then (note d).noteInvalid c else note d)
/-- Writes bytes of this device for a context. -/
def writeHere (d : Dev) (c : Nat) (x : Ctx) (p : Place) (l : List Byte) (a : W64) : Got :=
  let note := fun (d : Dev) (ks : List Nat) => d.noteClamps (.ctx c) ks a
  if p.tier = 0 then
    if x.mm.isSome then .wait d
    else .got [] ((note d p.kinds).scrWrite c ((List.range l.length).map (fun i => ⟨p.off + i, l.getD i 0#8, 0xFF#8⟩)))
  else
    let ws := d.itWords p l.length
    if p.tier = 4 then
      let r := d.regPuts c ws l
      .got [] (note r.2 (p.kinds ++ r.1.eraseDups))
    else
      let holds := ws.flatMap (fun w => d.lholds p.tier w.1 w.2.2 true)
      if !holds.isEmpty then .wait (d.dirAsk true holds)
      else if !ws.all (fun w => d.lcanWrite p.tier w.1 w.2.2) then .wait d
      else .got [] (note (ws.foldl (fun d w => d.lwrite p.tier w.1 ((l.drop w.2.1).take w.2.2)) d) p.kinds)

/-- An address rounded down to a multiple of n; 1 where that changes it. -/
def rounded (a : W64) (n : Nat) : W64 × Nat := (BitVec.ofNat 64 (alignDown a.toNat n), b2n (a.toNat % n != 0))
/-- The partition's request of a context to another node. -/
def ask (d : Dev) (x : Ctx) (opc : Nat) (a : W64) (data : List Byte) (k : OutKind) : Sent := d.request (x.core / 32) (some x.part) opc a data k
/-- Reads a word of n bytes at an address into a register (LDS, LDS4, LDA). -/
def loadInto (d : Dev) (aon : AonSt) (c : Nat) (x : Ctx) (sd n : Nat) (a0 : W64) : Leave :=
  let (a, k) := rounded a0 n
  let p := d.clampSteps (.ctx c) true stay a n
  if d.isHere p then
    match d.readHere aon c x p n a with
    | .wait d => .wait d
    | .bad d => .overs ((d.clampC c k).abortTask c 0 0 (placeAddr p))
    | .got l d => .next ((d.clampC c k).modCtx c (fun x => x.setS sd (BitVec.ofNat 64 (leVal l))))
  else
    let lo := alignDown p.off 16
    match d.ask x 1 (mkAddr p.node p.tier lo) [] (.load c sd n (p.off - lo)) with
    | .sent t d => .hold t ((d.clampC c k).noteClamps (.ctx c) p.kinds a)
    | .wait => .wait d
    | .no d => .next ((d.clampC c k).noteClamps (.ctx c) p.kinds a)
/-- Sends bytes of a context to another node; none while a TAG is missing. -/
def sendBytes (d : Dev) (x : Ctx) (node tier off : Nat) (l : List Byte) (k : OutKind) : Sent := d.sendUnits (x.core / 32) (some x.part) node tier off l k
/-- Writes bytes at an address (STS, STS4, STREL): to another node without waiting for the reply. -/
def storeAt (d : Dev) (c : Nat) (x : Ctx) (l : List Byte) (a0 : W64) : Leave :=
  let (a, k) := rounded a0 l.length
  let p := d.clampSteps (.ctx c) true noT3 a l.length
  if d.isHere p then
    match d.writeHere c x p l a with
    | .wait d => .wait d
    | .bad d | .got _ d => .next (d.clampC c k)
  else
    match d.sendBytes x p.node p.tier p.off l (.store c x.arch.pc) with
    | .sent _ d | .no d => .next ((d.clampC c k).noteClamps (.ctx c) p.kinds a)
    | .wait => .wait d

end Dev

end Sys2Proof.Machine
end

