-- ==== Sys2Proof/Machine/ExecCtl.lean ====
section
/-! DEFINITION. CTL and QRY instructions (Table 05-4), the end of the code (R97), undefined operations (R119), SYN instructions
(Table 05-5) and the waits that they leave. -/
namespace Sys2Proof.Machine

namespace Dev

/-! ## CTL and QRY -/

/-- The end of a program (R92 items 1 and 2): held until the context's transfers and stores are over. -/
def endWith (d : Dev) (c : Nat) (x : Ctx) (st : Nat) : Leave := if d.boundaryReady c x then .fin st d else .wait d
/-- An instruction at the last word of the code whose extension word would lie beyond it (R117): the word as it stands in this
device's memory; of code on another node, a free choice. -/
def extBeyond (d : Dev) (x : Ctx) : Bool × Dev :=
  let a := x.arch.pc
  if inCode x (a + 8#64) then (false, d)
  else if addrNode a = d.nodeId then (iExt (BitVec.ofNat 64 (d.lword (addrTier a) (addrOff a) 8)), d)
  else (let r := d.choose 2; (r.1 == 1, r.2))
/-- A fetch at or beyond the end of the code is a program end and counts one clamp (R97, R117). -/
def fetchEnd (d : Dev) (c : Nat) : Dev :=
  match d.ctx? c with
  | none => d
  | some x =>
    if !d.execs x || !d.boundaryReady c x then d else
    let (beyond, d) := if inCode x x.arch.pc then d.extBeyond x else (true, d)
    if beyond then (((d.clampC c 1).trapNow c).endCtx c 0) else d
/-- QRY.CAP (R109): a word of the CAP block as the context's own die holds it. -/
def capWord (d : Dev) (aon : AonSt) (c : Nat) (i : Nat) : W32 :=
  let a := 0x4000 + 4 * i
  match regAt a with
  | some y => if y.row.blk = .cap then readValue y.spec.fields (d.liveReg aon (.ctx c) 0 y (regHome y a)) else 0#32
  | none => 0#32
/-- QRY.SELF (R110, R127). -/
def selfItem (d : Dev) (c : Nat) (x : Ctx) (i : Nat) : W64 :=
  match i with
  | 0 => BitVec.ofNat 64 c
  | 1 => BitVec.ofNat 64 x.part
  | 2 => if d.assigned then BitVec.ofNat 64 d.nodeId else 0xFFFFFFFFFFFFFFFF#64
  | 3 => BitVec.ofNat 64 (x.clamps + b2n x.clampOvf * 2 ^ 32)
  | 4 => BitVec.ofNat 64 (x.launch.retryLimit - x.retries)
  | 5 => BitVec.ofNat 64 (x.flags % 8)
  | _ => 0#64

/-! ## SYN -/

/-- v of Table 05-5. -/
def synV (x : Ctx) (w : W64) : Nat := if eSa w = 0 then bits64 w 0 16 else (x.s (eSa w)).toNat
/-- SYN.SIGNAL (R90, R131). -/
def signal (d : Dev) (c : Nat) (x : Ctx) (w : W64) : Leave :=
  let v := synV x w
  d.released c x (bit64 w 37) (.next ((d.clampC c (b2n (decide (65535 < v)))).addEvent c (eEv w) (min 65535 v)))
/-- SYN.WAIT (R90, R91, R131). -/
def waitEvent (d : Dev) (c : Nat) (x : Ctx) (w : W64) : Leave :=
  let v := synV x w
  let m := clampTo 1 65535 v
  let d := d.clampC c (b2n (m != v))
  if m ≤ x.evt (eEv w) then .next (d.modCtx c (fun x => x.setEvt (eEv w) (x.evt (eEv w) - m))) else .block (.event (eEv w) m) d
/-- A blocked or woken SYN.WAIT whose count has been reached (R90, R226): it wakes, and where it executes it takes its count. -/
def eventGo (d : Dev) (c : Nat) : Dev :=
  match d.ctx? c with
  | none => d
  | some x => match x.wait with
    | .event e v =>
      if x.evt e < v then d else
      let d := d.wake c
      match d.ctx? c with
      | some y => if y.st = .running && !y.fenced then (d.modCtx c (fun y => { y.setEvt e (y.evt e - v) with wait := .none })).trapNow c else d
      | none => d
    | _ => d
/-- SYN.FENCE (R104): a fence that orders anything waits for the accesses that are outstanding. -/
def fence (d : Dev) (c : Nat) (x : Ctx) (w : W64) : Leave := d.released c x (bits64 w 39 4 != 0) (.next d)
/-- A task boundary whose waits are over is recorded (R92). -/
def boundaryGo (d : Dev) (c : Nat) : Dev :=
  match d.ctx? c with
  | none => d
  | some x =>
    if x.wait = .boundary && x.st = .running && !x.fenced && d.boundaryReady c x then
      ((d.modCtx c (fun x => { x with wait := .none })).recordBoundary c).trapNow c
    else d

/-- A watched word is read here again (R132): the instruction's clamps were counted when it was issued (R111). -/
def watchHere (d : Dev) (aon : AonSt) (c : Nat) (x : Ctx) (a : W64) : Got := (d.readRaw aon c x ⟨addrNode a, addrTier a, addrOff a, []⟩ 8).1
/-- Asks for the watched word of another node, once: as a sharer of its line (R298), or, of a tier that no cache holds, uncached. -/
def pollFar (d : Dev) (c : Nat) (x : Ctx) (a : W64) (pc : Option W64) : Dev :=
  if d.herd.outs.any (fun o => match o.2.kind with | .poll c' _ _ => c' == c | _ => false) then d else
  let lo := if farCached a then alignDown a.toNat 128 else alignDown a.toNat 16
  match d.ask x (if farCached a then 2 else 1) (BitVec.ofNat 64 lo) [] (.poll c (a.toNat - lo) pc) with
  | .sent _ d => d
  | _ => d
/-- The watched word is read again (R132, R298): poll is true for the words that are read every 1 µs. A context that no core holds
reads through the device alike (R226). -/
def watch (d : Dev) (aon : AonSt) (c : Nat) (poll : Bool) : Dev :=
  match d.ctx? c with
  | none => d
  | some x => match x.wait with
    | .word a _ _ =>
      let t := addrTier a
      if poll != (t == 0 || t == 3 || t == 4) then d
      else if x.fenced || x.st = .replyWait || x.st = .ending then d
      else if !d.away a then
        match d.watchHere aon c x a with
        | .wait d => d
        | .bad d => d.abortTask c 0 0 a
        | .got l d => d.watched c (BitVec.ofNat 64 (leVal l))
      else
        match (if farCached a then Tab.find d.herd.cache (farLine a) else none) with
        | some l => d.watched c (BitVec.ofNat 64 (leVal ((l.data.drop (a.toNat % 128)).take 8)))
        | none => d.pollFar c x a none
    | _ => d
/-- SYN.WAITM (R131, R132): a word here is compared at once; another node's word is asked for. -/
def waitm (d : Dev) (aon : AonSt) (c : Nat) (x : Ctx) (w : W64) : Leave :=
  let k0 := bits64 w 0 3
  let k := if 5 < k0 then 0 else k0
  let (a, r) := rounded (x.s (eSa w)) 8
  let n := r + b2n (5 < k0)
  let p := d.clampSteps (.ctx c) true stay a 8
  let at' := placeAddr p
  let b := x.s (eSb w)
  if d.isHere p then
    match d.readHere aon c x p 8 a with
    | .wait d => .wait d
    | .bad d => .overs ((d.clampC c n).abortTask c 0 0 at')
    | .got l d => if waitCmp k (BitVec.ofNat 64 (leVal l)) b then .next (d.clampC c n) else .block (.word at' k b) (d.clampC c n)
  else if d.noNode p then .next ((d.clampC c n).noteClamps (.ctx c) p.kinds a)
  else .block (.word at' k b) (((d.clampC c n).noteClamps (.ctx c) p.kinds a).pollFar c x at' (some x.arch.pc))
/-- The place of an atomic of a context (R106), its word rounded down; how many clamps the rounding counts. -/
def atomicPlace (d : Dev) (c : Nat) (a0 : W64) : Place × W64 × Nat := let r := rounded a0 8; (d.clampSteps (.ctx c) true noT34 r.1 8, r.1, r.2)
/-- Performs an atomic here (R106): the old bytes, with the new value written, be it the same, where the old one lets it write. -/
def atomicHere (d : Dev) (aon : AonSt) (c : Nat) (x : Ctx) (p : Place) (a : W64) (f : Nat → Option Nat) : Got :=
  if p.tier ≠ 0 && !d.lready p.tier p.off 8 true then .wait (d.dirAsk true (d.lholds p.tier p.off 8 true))
  else match d.readHere aon c x p 8 a with
    | .got l d =>
      (match f (leVal l) with
       | none => .got l d
       | some v => (match d.writeHere c x { p with kinds := [] } (leBytes 8 v) a with
         | .got _ d => .got l d
         | g => g))
    | g => g
/-- SYN.BAR (R131, R132): the release atomic, then the wait. -/
def bar (d : Dev) (aon : AonSt) (c : Nat) (x : Ctx) (w : W64) : Leave :=
  if !d.boundaryReady c x then .wait d else
  let (p, a, r) := d.atomicPlace c (x.s (eSa w))
  let b := x.s (eSb w)
  let at' := placeAddr p
  if d.isHere p then
    match d.atomicHere aon c x p a (fun v => some ((v + 1) % 2 ^ 64)) with
    | .wait d => .wait d
    | .bad d => .overs ((d.clampC c r).abortTask c 0 0 at')
    | .got l d =>
      let v := BitVec.ofNat 64 (leVal l + 1)
      if waitCmp 2 v b then .next (d.clampC c r) else .block (.word at' 2 b) (d.clampC c r)
  else
    match d.ask x 8 at' (leBytes 8 1 ++ leBytes 8 0 ++ leBytes 16 0) (.bar c w) with
    | .sent t d => .hold t ((d.clampC c r).noteClamps (.ctx c) p.kinds a)
    | .wait => .wait d
    | .no d => .next ((d.clampC c r).noteClamps (.ctx c) p.kinds a)

end Dev

/-! ## The commands -/

/-- INSTRUCTION_FETCH_END (R97, R117). -/
def execInstructionFetchEnd (c : BitVec 12) (s : State) : Out := .next (s.onDev (fun d => d.fetchEnd c.toNat))
/-- UNDEFINED_OPCODE (R119). -/
def execUndefinedOpcode (c : BitVec 12) (w x : W64) (s : State) : Out :=
  .next (s.onDev (fun d => if definedOp (bits64 w 60 4) (bits64 w 54 6) then d else
    d.run c.toNat w x (bits64 w 60 4) (bits64 w 54 6) .opt [] (fun d _ _ _ => .next (d.clampC c.toNat 1))))
/-- CTL.NOP (R129). -/
def execCtlNop (c : BitVec 12) (w x : W64) (s : State) : Out := .next (s.onDev (fun d => d.run c.toNat w x 0 0 .none [] (fun d _ _ _ => .next d)))
/-- CTL.END (R129). -/
def execCtlEnd (c : BitVec 12) (w x : W64) (s : State) : Out :=
  .next (s.onDev (fun d => d.run c.toNat w x 0 1 .none [] (fun d y _ _ => d.endWith c.toNat y (if bit64 w 0 then 0x19 else 0))))
/-- CTL.BR (R129, R130). -/
def execCtlBr (c : BitVec 12) (w x : W64) (s : State) : Out :=
  .next (s.onDev (fun d => d.run c.toNat w x 0 2 .none [] (fun d y _ _ => d.jump c.toNat y (y.arch.pc + bOff w))))
/-- CTL.JR (R129, R130). -/
def execCtlJr (c : BitVec 12) (w x : W64) (s : State) : Out :=
  .next (s.onDev (fun d => d.run c.toNat w x 0 3 .opt [aSa w] (fun d y e _ => d.jump c.toNat y (y.s (aSa w) + aImm w e))))
/-- CTL.CALL (R129, R130). -/
def execCtlCall (c : BitVec 12) (w x : W64) (s : State) : Out :=
  .next (s.onDev (fun d => d.run c.toNat w x 0 4 .none [aSd w] (fun d y _ _ =>
    (d.modCtx c.toNat (fun z => z.setS (aSd w) (Dev.behind' y w))).jump c.toNat y (y.arch.pc + bOff w))))
/-- CTL.CALLR (R129, R130). -/
def execCtlCallr (c : BitVec 12) (w x : W64) (s : State) : Out :=
  .next (s.onDev (fun d => d.run c.toNat w x 0 5 .opt [aSa w, aSd w] (fun d y e _ =>
    (d.modCtx c.toNat (fun z => z.setS (aSd w) (Dev.behind' y w))).jump c.toNat y (y.s (aSa w) + aImm w e))))
/-- CTL.LOOP (R129, R130). -/
def execCtlLoop (c : BitVec 12) (w x : W64) (s : State) : Out :=
  .next (s.onDev (fun d => d.run c.toNat w x 0 6 .none [aSa w] (fun d y _ _ =>
    let v := y.s (aSa w)
    if v = 0#64 then .next d
    else
      let d := d.modCtx c.toNat (fun z => z.setS (aSa w) (v - 1#64))
      if v - 1#64 = 0#64 then .next d else d.jump c.toNat y (y.arch.pc + bOff w))))
/-- QRY.CAP (R109, R129). -/
def execQryCap (c : BitVec 12) (w x : W64) (s : State) : Out :=
  .next (s.onDev (fun d => d.run c.toNat w x 1 0 .opt [aSa w, aSd w] (fun d y e _ =>
    let i := (y.s (aSa w) + aImm w e).toNat
    .next ((d.clampC c.toNat (b2n (decide (4095 < i)))).modCtx c.toNat (fun z => z.setS (aSd w) (if 4095 < i then 0#64 else (d.capWord s.aon c.toNat i).setWidth 64))))))
/-- QRY.SELF (R110, R129). -/
def execQrySelf (c : BitVec 12) (w x : W64) (s : State) : Out :=
  .next (s.onDev (fun d => d.run c.toNat w x 1 1 .none [aSd w] (fun d y _ _ => .next (d.modCtx c.toNat (fun z => z.setS (aSd w) (d.selfItem c.toNat y (bits64 w 0 4)))))))
/-- QRY.TIME (R62, R129). -/
def execQryTime (c : BitVec 12) (w x : W64) (s : State) : Out :=
  .next (s.onDev (fun d => d.run c.toNat w x 1 2 .none [aSd w] (fun d y _ _ =>
    let t := d.stepTs (y.core / 32)
    .next (t.2.modCtx c.toNat (fun z => z.setS (aSd w) (BitVec.ofNat 64 t.1))))))
/-- QRY.EVENT (R129). -/
def execQryEvent (c : BitVec 12) (w x : W64) (s : State) : Out :=
  .next (s.onDev (fun d => d.run c.toNat w x 1 3 .none [aSd w] (fun d y _ _ =>
    .next ((d.clampC c.toNat (b2n (bits64 w 6 27 != 0))).modCtx c.toNat (fun z => z.setS (aSd w) (BitVec.ofNat 64 (y.evt (bits64 w 0 6))))))))
/-- SYN.SIGNAL (R131). -/
def execSynSignal (c : BitVec 12) (w x : W64) (s : State) : Out :=
  .next (s.onDev (fun d => d.run c.toNat w x 2 0 .none [eSa w] (fun d y _ _ => d.signal c.toNat y w)))
/-- SYN.WAIT (R131). -/
def execSynWait (c : BitVec 12) (w x : W64) (s : State) : Out :=
  .next (s.onDev (fun d => d.run c.toNat w x 2 1 .none [eSa w] (fun d y _ _ => d.waitEvent c.toNat y w)))
/-- EVENT_WAIT_SATISFIED (R90). -/
def execEventWaitSatisfied (c : BitVec 12) (s : State) : Out := .next (s.onDev (fun d => d.eventGo c.toNat))
/-- SYN.FENCE (R104). -/
def execSynFence (c : BitVec 12) (w x : W64) (s : State) : Out :=
  .next (s.onDev (fun d => d.run c.toNat w x 2 2 .none [] (fun d y _ _ => d.fence c.toNat y w)))
/-- SYN.TASK (R92). -/
def execSynTask (c : BitVec 12) (w x : W64) (s : State) : Out :=
  .next (s.onDev (fun d => d.run c.toNat w x 2 3 .none [] (fun d _ _ _ => .block .boundary d)))
/-- TASK_BOUNDARY_RECORD (R92, R238). -/
def execTaskBoundaryRecord (c : BitVec 12) (s : State) : Out := .next (s.onDev (fun d => d.boundaryGo c.toNat))
/-- SYN.LDA (R131). -/
def execSynLda (c : BitVec 12) (w x : W64) (s : State) : Out :=
  .next ((s.onDev (fun d => d.run c.toNat w x 2 4 .none [eSa w, eSd w] (fun d y _ _ => d.loadInto s.aon c.toNat y (eSd w) 8 (y.s (eSa w) + simm w 16)))).settled)
/-- SYN.STREL (R131). -/
def execSynStrel (c : BitVec 12) (w x : W64) (s : State) : Out :=
  .next ((s.onDev (fun d => d.run c.toNat w x 2 5 .none [eSa w, eSb w] (fun d y _ _ =>
    d.released c.toNat y true (d.storeAt c.toNat y (leBytes 8 (y.s (eSb w)).toNat) (y.s (eSa w) + simm w 16))))).settled)
/-- SYN.WAITM (R131, R132). -/
def execSynWaitm (c : BitVec 12) (w x : W64) (s : State) : Out :=
  .next ((s.onDev (fun d => d.run c.toNat w x 2 6 .none [eSa w, eSb w] (fun d y _ _ => d.waitm s.aon c.toNat y w))).settled)
/-- SYN.BAR (R131, R132). -/
def execSynBar (c : BitVec 12) (w x : W64) (s : State) : Out :=
  .next ((s.onDev (fun d => d.run c.toNat w x 2 7 .none [eSa w, eSb w] (fun d y _ _ => d.bar s.aon c.toNat y w))).settled)
/-- WAITM_RECHECK (R132, R298). -/
def execWaitmRecheck (c : BitVec 12) (s : State) : Out := .next ((s.onDev (fun d => d.watch s.aon c.toNat false)).settled)
/-- WAITM_POLL (R132). -/
def execWaitmPoll (c : BitVec 12) (s : State) : Out := .next ((s.onDev (fun d => d.watch s.aon c.toNat true)).settled)

end Sys2Proof.Machine
end

