-- ==== Sys2Proof/Machine/Compute.lean ====
section
/-! DEFINITION. Compute instructions (R123): their operands in scratch, the broadcast of extents (R134), the writing of results
(R175 to R181, R190), scale entries (R87, R184, R188), and how they execute. -/
namespace Sys2Proof.Machine

/-- Descriptor words with another FMT. -/
def refmt (ws : List W64) (f : Fmt) : List W64 := ws.set 6 ((ws.getD 6 0#64 &&& ~~~0xF#64) ||| BitVec.ofNat 64 f.code)
/-- A tensor read as another format where no clamp is named for that. -/
def tensorRead (ws : List W64) (f : Fmt) : Tensor × Nat := tensorOf (refmt ws f)
/-- A tensor taken as a format: one clamp where its FMT is another, one more for a reserved code (R89, R111). -/
def tensorAs (ws : List W64) (f : Fmt) : Tensor × Nat :=
  let f0 := bits64 (ws.getD 6 0#64) 0 4
  let r := tensorRead ws f
  (r.1, r.2 + b2n (12 ≤ f0) + b2n (fmtOf f0 != f))

/-- What a compute instruction does, formed whole at its issue: its operands and other clamps, the flags it raises, the scratch
places it reads, its writes, the register and count of its status word, scale entries, free words used, and the steps that it takes,
where the rates of Tables 05-10 and 06-1 fix them (R45; log 35). -/
structure Work where
  ops : List Opnd
  clamps : Nat
  flags : Nat
  reads : List Nat
  writes : List SWrite
  status : Option (Nat × Nat)
  scales : List (Nat × W64)
  draws : Nat
  steps : Option Nat := none
  deriving DecidableEq, Repr

/-- Steps at a rate of n a step. -/
def paced (n k : Nat) : Option Nat := some (ceilDiv k n)
/-- The lanes of the vector unit for some formats (Table 06-1). -/
def vecLanes (fs : List Fmt) : Nat := if fs.all (fun f => decide (f.bits ≤ 16)) then 256 else 128
/-- The steps that lists of some lengths sort in (Table 05-10): n · ⌈log2 n⌉ / 32 each. -/
def sortSteps (ls : List Nat) : Nat := (ls.map (fun n => ceilDiv (n * (if n ≤ 1 then 0 else Nat.log2 (n - 1) + 1)) 32)).foldl (· + ·) 0

namespace Dev

/-- An operand of a compute instruction (R123). -/
def tdOp (d : Dev) (c : Nat) (x : Ctx) (i : Nat) : Opnd := d.operandOf c only0 (tensorOf (x.td i))
/-- The n-th free word from here. -/
def freeAt (d : Dev) (n : Nat) : W64 := Config.freeWord (d.draws + n)
/-- The clamps and flags of a compute instruction; an uncorrectable read aborts the task (R210), an invalid page counts one clamp
(R212); n clamps are counted by the extension rule. -/
def noted (d : Dev) (c : Nat) (x : Ctx) (w : Work) : Dev :=
  let e := (d.noteOpnds c w.ops).clampC c w.clamps
  (if scrInvalid x w.reads then e.noteInvalid c else e).flagC c w.flags
/-- The flag byte of a compute instruction's own status word (R127). -/
def workFlags (x : Ctx) (w : Work) (n : Nat) : Nat :=
  b2n (n + opndClamps w.ops + w.clamps != 0 || scrInvalid x w.reads) ||| w.flags
/-- A compute instruction executes: not while matrix work is in progress. -/
def doWork (d : Dev) (c : Nat) (x : Ctx) (n : Nat) (w : Work) : Leave :=
  if x.mm.isSome then .wait d
  else match w.reads.find? (fun o => d.scrBad c x [o]) with
    | some o => .overs (((d.noteOpnds c w.ops).clampC c w.clamps).abortTask c 0 0 (mkAddr d.nodeId 0 (scrKey x (scrClip x o))))
    | none =>
      let e := d.noted c x w
      let e := Dev.scrWrite { e with draws := e.draws + w.draws } c w.writes
      let e := w.scales.foldl (fun e s => e.setScale x.core s.1 s.2) e
      let e := match w.steps with
        | some k => e.charge' c 1 k
        | none => let r := e.draw; r.2.charge' c 1 r.1.toNat
      match w.status with
      | some (sd, k) => .next (e.putStatus c sd 0 (workFlags x w n) k)
      | none => .next e

/-! ## Extents and elements -/

/-- An index of an operand in a dimension whose extent is TDD's; else 0 (R134). -/
def bcIdx (t z : Tensor) (k i : Nat) : Nat := if t.dim k = z.dim k then i else 0
/-- One clamp where an operand's extent equals neither TDD's nor 1 in one of some dimensions. -/
def bcBad (t z : Tensor) (ks : List Nat) : Nat := b2n (ks.any (fun k => t.dim k != z.dim k && t.dim k != 1))
/-- The element that an operand supplies at an index of TDD: 0 where it holds none (R134). -/
def bcAt (d : Dev) (c : Nat) (x : Ctx) (t z : Tensor) (p : Nat × Nat × Nat × Nat) : FV :=
  if t.count = 0 then .fin false 0 0 else d.elemAt c x t (bcIdx t z 0 p.1) (bcIdx t z 1 p.2.1) (bcIdx t z 2 p.2.2.1) (bcIdx t z 3 p.2.2.2)
/-- All scratch places of a tensor. -/
def allPlaces (t : Tensor) : List Nat := extentPlaces t t.d0 t.d1 t.d2 t.d3
/-- The places of an operand that R134 reads. -/
def bcPlaces (t z : Tensor) : List Nat :=
  let e := fun k => if t.dim k = z.dim k then t.dim k else 1
  if t.count = 0 || z.count = 0 then [] else extentPlaces t (e 0) (e 1) (e 2) (e 3)
/-- All indices of a tensor. -/
def idxs (t : Tensor) : List (Nat × Nat × Nat × Nat) := indices t.d0 t.d1 t.d2 t.d3
/-- A component of an index, and an index with a component replaced. -/
def idxGet (p : Nat × Nat × Nat × Nat) (k : Nat) : Nat := match k with | 0 => p.1 | 1 => p.2.1 | 2 => p.2.2.1 | _ => p.2.2.2
def idxSet (p : Nat × Nat × Nat × Nat) (k i : Nat) : Nat × Nat × Nat × Nat :=
  match k with
  | 0 => (i, p.2) | 1 => (p.1, i, p.2.2) | 2 => (p.1, p.2.1, i, p.2.2.2) | _ => (p.1, p.2.1, p.2.2.1, i)
/-- An element of an integer format as an integer. -/
def asInt (v : FV) : Int := v.toInt.getD 0
/-- An element in FP32. -/
def as32 (v : FV) : W32 := enc32 v

/-! ## Results -/

/-- The code of a new element e, rounded stochastically where SR directs so (R179 to R181). -/
def putCode (f : Fmt) (sr : Option W64) (e : Nat) (v : FV) : Nat :=
  match sr with
  | some k => if f.srOk then encSR f.fk (rndG k e) v else elemCode f v
  | none => elemCode f v
/-- One clamp for SR on a format that it does not round (R179). -/
def srBad (f : Fmt) (on : Bool) : Nat := b2n (on && !f.srOk)
/-- A block of an MX tensor in which elements are written (R190): its scale and its elements, formed again. -/
def putBlock (d : Dev) (c : Nat) (x : Ctx) (t : Tensor) (sr : Option W64) (lo i1 i2 i3 : Nat) (new : List (Option FV)) : List SWrite :=
  let l := (List.range new.length).map (fun i => (lo + i, new.getD i none))
  let v := fun (p : Nat × Option FV) => p.2.getD (d.elemAt c x t p.1 i1 i2 i3)
  let s := mxBlockScale t.fmt (l.map v)
  let code := fun (p : Nat × Option FV) => match sr, p.2 with
    | some k, some v => if t.fmt.srOk then mxCodeSR t.fmt (rndG k (linOf t p.1 i1 i2 i3)) v s else mxCode t.fmt v s
    | _, _ => mxCode t.fmt (v p) s
  scalePut t (lo / 32) i1 i2 i3 s :: l.flatMap (fun p => elemPut t p.1 i1 i2 i3 (code p))
/-- The new elements of block b of a row; the element that an odd DIM0 added is not written. -/
def blockNew (t : Tensor) (vals : List (Option FV)) (p : Nat × Nat × Nat × Nat) : List (Option FV) :=
  let lo := 32 * p.1
  (List.range (min 32 (t.d0 - lo))).map (fun i => if t.odd0 && lo + i + 1 == t.d0 then none else vals.getD (linOf t (lo + i) p.2.1 p.2.2.1 p.2.2.2) none)
/-- The blocks of an MX tensor. -/
def blocksOf (t : Tensor) : List (Nat × Nat × Nat × Nat) := indices (ceilDiv t.d0 32) t.d1 t.d2 t.d3
/-- The writes of new values of a tensor's elements, in linear index order; none leaves an element as it is. Each write, or each
block of an MX tensor, stands beside the index of its first element. -/
def putAt (d : Dev) (c : Nat) (x : Ctx) (t : Tensor) (sr : Option W64) (vals : List (Option FV)) : List ((Nat × Nat × Nat × Nat) × List SWrite) :=
  if t.fmt.isMx then
    (blocksOf t).filterMap (fun p =>
      let new := blockNew t vals p
      if new.all (·.isNone) then none
      else some ((32 * p.1, p.2), d.putBlock c x t sr (32 * p.1) p.2.1 p.2.2.1 p.2.2.2 new))
  else
    ((idxs t).zip vals).filterMap (fun q => q.2.map (fun v =>
      (q.1, elemPut t q.1.1 q.1.2.1 q.1.2.2.1 q.1.2.2.2 (putCode t.fmt sr (linOf t q.1.1 q.1.2.1 q.1.2.2.1 q.1.2.2.2) v))))
/-- The same as one list. -/
def putVals (d : Dev) (c : Nat) (x : Ctx) (t : Tensor) (sr : Option W64) (vals : List (Option FV)) : List SWrite := (d.putAt c x t sr vals).flatMap (·.2)
/-- The places whose present elements a result reads: blocks of an MX tensor that are written in part (R190). -/
def oldPlaces (t : Tensor) (vals : List (Option FV)) : List Nat :=
  if !t.fmt.isMx then [] else
  (blocksOf t).flatMap (fun p =>
    let new := blockNew t vals p
    if new.all (·.isNone) || new.all (·.isSome) then []
    else t.at' (t.scaleOff p.1 p.2.1 p.2.2.1 p.2.2.2) :: (List.range new.length).flatMap (fun i => elemPlaces t (32 * p.1 + i) p.2.1 p.2.2.1 p.2.2.2))

/-! ## Scale entries (R87, R184, R188) -/

/-- A scale entry as an instruction uses it: scale and zero point, the index clamped, a value replaced. -/
structure ScaleUse where
  s : W32
  z : Int
  out : Bool
  bad : Bool
  deriving DecidableEq, Repr

/-- Entry i of a context's window, its place in the scale file, and whether the index was clamped (R87). -/
def winPlace (x : Ctx) (i : Nat) : Nat × Bool := (x.arch.winBase + min i (x.arch.winLen - 1), decide (x.arch.winLen ≤ i))
/-- Entry i of a context's window, legal (Table 07-5); zt is the width of an integer target. -/
def winScale (d : Dev) (x : Ctx) (i : Nat) (zt : Option Nat) : ScaleUse :=
  let p := winPlace x i
  let v := splitScale (d.scaleAt x.core p.1)
  let s := legalScale v.1
  let z0 := v.2.toInt
  let z := match zt with | some n => satTo n z0 | none => 0
  ⟨s.1, z, p.2, s.2 || (zt.isSome && z != z0)⟩
/-- The window index that a scale reference adds to SIDX for an element (R184). -/
def scaleIdx (sm i0 i1 : Nat) : Nat := match sm with | 2 => i0 | 3 => i1 | _ => 0
/-- The scale entry of an element; 1 and 0 with SMODE 0b00. -/
def scaleFor (d : Dev) (x : Ctx) (t : Tensor) (zt : Option Nat) (i0 i1 : Nat) : ScaleUse :=
  if t.smode = 0 then ⟨fone, 0, false, false⟩ else d.winScale x (t.sidx + scaleIdx t.smode i0 i1) zt
/-- The entries that elements of the first n0 × n1 indices use. -/
def scaleUses (d : Dev) (x : Ctx) (t : Tensor) (zt : Option Nat) (n0 n1 : Nat) : List ScaleUse :=
  if t.smode = 0 || n0 * n1 = 0 then []
  else (List.range (match t.smode with | 2 => n0 | 3 => n1 | _ => 1)).map (fun j => d.winScale x (t.sidx + j) zt)
/-- Clamps of scale references: one for each operand's index, one for all values replaced (R87, R111, R188). -/
def scaleClamps (l : List (List ScaleUse)) : Nat := (l.filter (fun u => u.any (·.out))).length + b2n (l.any (fun u => u.any (·.bad)))
/-- The width of an integer format; none for a float format. -/
def intTarget (f : Fmt) : Option Nat := if f.isInt then some f.intBits else none
/-- A value rounded to an integer of 64 bits (R189). -/
def rne64 (w : W32) : Int := satTo 64 ((dec32 w).toInt.getD 0)
/-- QNT.Q of one element (R189): the value that the target's conversion is given. -/
def quantise (f : Fmt) (u : ScaleUse) (v : FV) : FV :=
  let q := fdiv (as32 v) u.s
  if f.isInt then (if fisNan (as32 v) then FV.ofInt u.z else FV.ofInt (satTo f.intBits (rne64 q + u.z))) else dec32 q
/-- QNT.DQ of one element (R189). -/
def dequantise (f : Fmt) (u : ScaleUse) (v : FV) : FV :=
  if f.isInt then dec32 (fmul u.s (fofInt (asInt v - u.z))) else FV.mul (dec32 u.s) v |> enc32 |> dec32

/-! ## Rotation (R139, R194 to R196) -/

/-- The block that n channels are rotated in, and how many channels pass at the end. -/
def rotBlock (n b : Nat) : Nat × Nat :=
  if n % 2 ^ b = 0 then (b, 0)
  else
    let body := n - n % 16
    (((List.range 9).map (· + 4)).foldl (fun r k => if k ≤ b && body % 2 ^ k = 0 then k else r) 4, n % 16)
/-- One butterfly stage at distance h. -/
def whtStage (l : List W32) (h : Nat) : List W32 :=
  (List.range l.length).map (fun i => if i / h % 2 = 0 then fadd (l.getD i 0#32) (l.getD (i + h) 0#32) else fsub (l.getD (i - h) 0#32) (l.getD i 0#32))
/-- Applies signs: true negates. -/
def signed32 (s : List Bool) (l : List W32) : List W32 := (List.range l.length).map (fun i => let v := l.getD i 0#32; if s.getD i false then enc32 (dec32 v).neg else v)
/-- The rotation of one block of 2^b channels (R194). -/
def wht (b : Nat) (inv : Bool) (s : List Bool) (l : List W32) : List W32 :=
  let a := if inv then l else signed32 s l
  let y := ((List.range b).foldl (fun l t => whtStage l (2 ^ t)) a).map (fmul (whtScale b))
  if inv then signed32 s y else y
/-- The rotation of a row: its blocks, and the channels that pass. -/
def whtRow (b : Nat) (inv : Bool) (s : List Bool) (l : List W32) : List W32 :=
  let r := rotBlock l.length b
  let body := l.length - r.2
  (List.range (body / 2 ^ r.1)).flatMap (fun k => wht r.1 inv ((s.drop (k * 2 ^ r.1)).take (2 ^ r.1)) ((l.drop (k * 2 ^ r.1)).take (2 ^ r.1))) ++ l.drop body
/-- Signs from a seed (R195). -/
def seedSigns (seed : Nat) (n : Nat) : List Bool := (List.range n).map (fun i => 2 ^ 31 ≤ rndG (BitVec.ofNat 64 seed) i)
/-- Signs from a tensor read as INT8, in linear index order (R195). -/
def tensorSigns (d : Dev) (c : Nat) (x : Ctx) (t : Tensor) (n : Nat) : List Bool :=
  (List.range (min n t.count)).map (fun e => let p := idxOf t e; 128 ≤ d.elemCodeAt c x t p.1 p.2.1 p.2.2.1 p.2.2.2)
/-- The scratch places of the first n elements of a tensor in linear index order. -/
def linPlaces (t : Tensor) (n : Nat) : List Nat := (List.range (min n t.count)).flatMap (fun e => let p := idxOf t e; elemPlaces t p.1 p.2.1 p.2.2.1 p.2.2.2)

end Dev

end Sys2Proof.Machine
end

