-- ==== Sys2Proof/Machine/ExecStr.lean ====
section
/-! DEFINITION. STR instructions (Table 05-11) and FAB.PUT: transfers as they issue (R142, R143, R197 to R203), object moves
(R251), scalar loads and stores, tensor descriptors. -/
namespace Sys2Proof.Machine

/-- Aligned pieces of at most 4 bytes of a run: offset, place, bytes (R81). -/
def pieces4 (r : Nat × Nat × Nat) : List (Nat × Nat × Nat) :=
  let o := r.2.1
  let e := o + r.2.2
  (List.range ((e + 3) / 4 - o / 4)).map (fun i =>
    let lo := max o (4 * (o / 4 + i))
    (lo, r.1 + (lo - o), min e (4 * (o / 4 + i + 1)) - lo))

/-- What an instruction says of the transfer that it issues. -/
structure XferArgs where
  eng : Nat
  kind : XKind
  src : List W64
  dst : List W64
  rate : Nat
  ss : Nat
  ev : Nat
  eve : Bool
  noabort : Bool
  /-- FAB.PUT: the address in SB -/
  notify : Option W64
  /-- clamps that the extension rule counts (R118) -/
  ext : Nat
  deriving DecidableEq, Repr

namespace Dev

/-- An engine holds six outstanding transfers (R124, R198). -/
def engFull (x : Ctx) (eng : Nat) : Bool := decide (6 ≤ (x.xfers.filter (fun t => t.eng == eng)).length)
/-- Adds a transfer to a context. -/
def addXfer (d : Dev) (c : Nat) (t : Xfer) : Dev := d.modCtx c (fun x => { x with xfers := x.xfers ++ [t], serial := x.serial + 1 })
/-- The source of a transfer is Rind-coded (Table 08-2): objects of tier 1 are kept expanded. -/
def rindFrom (d : Dev) (t : Xfer) : Bool :=
  !t.isStore && !d.farAway t && (let q := d.resolve (addrTier t.src.base) (addrOff t.src.base); match d.objAt q.1 q.2 with
    | some (_, o) => o.rind && o.tier != 1
    | none => false)
/-- Reads a source of registers at issue (R81): the bytes, and the kinds of the clamps, once for the transfer (R111). -/
def snapRegs (d : Dev) (aon : AonSt) (c : Nat) (t : Xfer) : List Byte × List Nat × Dev :=
  if t.isStore || d.farAway t || addrTier t.src.base ≠ 4 then ([], [], d) else
  let r := d.regWords aon c ((d.farRuns t (List.range t.total)).flatMap pieces4)
  (r.1, r.2.1.eraseDups, r.2.2)
/-- Issues a transfer (R121, R124, R142, R143, R200, R203). -/
def issue (d : Dev) (aon : AonSt) (c : Nat) (x : Ctx) (a : XferArgs) : Leave :=
  if engFull x a.eng then .wait d else
  let store := a.kind = .st || a.kind = .put
  let s := d.operandOf c (if store then only0 else stay) (tensorOf a.src)
  let z := d.operandOf c (if store then noT4 else only0) (tensorAs a.dst s.t.fmt)
  let m := fun i => min (s.t.dim i) (z.t.dim i)
  let differ := (List.range 4).any (fun i => s.t.dim i != z.t.dim i)
  let nr := a.notify.map (fun v => let r := rounded v 8; (d.clampSteps (.ctx c) true noT34 r.1 8, r.1, r.2))
  let own := b2n differ + b2n (decide (262144 < a.rate)) + (match nr with | some r => r.2.2 | none => 0)
  let nk := match nr with | some r => r.1.kinds | none => []
  let t : Xfer := ⟨x.serial, a.eng, a.kind, s.t, z.t, m 0, m 1, m 2, m 3, min a.rate 262144, a.ss, true, a.ev, a.eve, 0, 0, 0, none, 0, false,
    false, false, false, false, 0, a.noabort, nr.map (fun r => placeAddr r.1), x.arch.pc, [], [], [], 0, TokSend.none⟩
  let far := t.far.base
  let lost := t.bytes != 0 && d.noNode ⟨addrNode far, addrTier far, addrOff far, []⟩
  let t := { t with total := if lost then 0 else t.bytes, status := if lost then 0x0B else 0 }
  let r := d.snapRegs aon c t
  let t := { t with snap := r.1, rindSrc := d.rindFrom t, clamped := opndClamps [s, z] + own + a.ext + nk.length + r.2.1.length != 0 }
  let d := (r.2.2.noteOpnds c [s, z]).clampC c own
  let d := (match nr with | some q => d.noteClamps (.ctx c) nk q.2.1 | none => d).noteClamps (.ctx c) r.2.1 s.a
  .next (d.addXfer c t)
/-- The transfer of STR.LD, STR.ST or STR.PF (R142). -/
def strArgs (x : Ctx) (w e : W64) (eng : Nat) (k : XKind) : XferArgs :=
  ⟨eng, k, x.td (tTda w), x.td (tTdd w), bits64 e 0 32, bits64 e 32 5, tEv w, bit64 w 18, false, none, 0⟩
/-- The status register that the extension word of STR.LD, STR.ST and STR.PF names. -/
def strSs (w x : W64) : Nat := bits64 (extOf w x) 32 5
/-- The transfer of FAB.PUT (R143). -/
def putArgs (x : Ctx) (w : W64) : XferArgs :=
  ⟨2, .put, x.td (fTdy w), x.td (fTdx w), 0, fSs w, fEv w, bit64 w 10, bit64 w 7, if fSb w = 0 then none else some (x.s (fSb w)), b2n (iExt w)⟩

/-- Issues an asynchronous instruction that holds no stream engine (R124): its number, with the registers that it will write. -/
def addAsync (d : Dev) (c : Nat) (x : Ctx) (w : W64) (hasSd : Bool) : Dev :=
  d.modCtx c (fun y => { y with asyncs := y.asyncs ++ [⟨x.serial, fSs w, fSd w, true, hasSd, fEv w, bit64 w 10⟩], serial := y.serial + 1 })
/-- STR.MOVE (R251). An address in no object of the partition moves nothing: the address comes back, with one clamp. -/
def strMove (d : Dev) (c : Nat) (x : Ctx) (w : W64) : Leave :=
  let t0 := fMod w % 8
  let t := if t0 = 0 || t0 = 4 || 6 ≤ t0 || (t0 = 5 && !d.admits5 (.ctx c)) then 1 else t0
  let d := (d.clampC c (b2n (t != t0))).addAsync c x w true
  let a := x.s (fSa w)
  .next (match d.findObj x.part a with
    | none => (d.clampC c 1).asyncDone c x.serial 0 1 0 a
    | some i => d.moveObj i t (.ctx c x.serial) (b2n (t != t0 || iExt w)))

/-- The address of STR.TDLD and STR.TDST. -/
def tdAddr (x : Ctx) (w : W64) : W64 := x.s (dSx w) + simm w 35
/-- The two parts of a read of 64 bytes of another node, cut where 256 bytes end: start and end. -/
def tdParts (off : Nat) : List (Nat × Nat) :=
  let lo := alignDown off 16
  let hi := 16 * ceilDiv (off + 64) 16
  let cut := min hi (alignDown lo 256 + 256)
  if cut = hi then [(lo, hi)] else [(lo, cut), (cut, hi)]
/-- STR.TDLD (R142). -/
def tdLoad (d : Dev) (aon : AonSt) (c : Nat) (x : Ctx) (w : W64) : Leave :=
  let (a, k) := rounded (tdAddr x w) 8
  let p := d.widePlace c stay a 64
  if d.isHere p then
    match d.readHere aon c x p 64 a with
    | .wait d => .wait d
    | .bad d => .overs ((d.clampC c k).abortTask c 0 0 (placeAddr p))
    | .got l d => .next ((d.clampC c k).modCtx c (fun x => x.setTd (dTdn w) ((List.range 8).map (fun i => BitVec.ofNat 64 (leVal ((l.drop (8 * i)).take 8))))))
  else
    let r := (tdParts p.off).foldl (fun (acc : Sent × List Nat) q =>
      match acc.1 with
      | .sent _ e =>
        let lo := max p.off q.1
        let n := (min (p.off + 64) q.2 - lo) / 8
        (match e.ask x 1 (mkAddr p.node p.tier (q.1 + ((q.2 - q.1) / 16 - 1))) [] (.tdld c (dTdn w) (lo - q.1) ((lo - p.off) / 8) n) with
         | .sent t e => (.sent t e, acc.2 ++ [t])
         | r => (r, acc.2))
      | _ => acc) (.sent 0 d, [])
    match r.1 with
    | .sent _ e => .hold (r.2.getD 0 0) ((e.clampC c k).noteClamps (.ctx c) p.kinds a)
    | .wait => .wait d
    | .no e => .next ((e.clampC c k).noteClamps (.ctx c) p.kinds a)
/-- STR.TDST (R142). -/
def tdStore (d : Dev) (c : Nat) (x : Ctx) (w : W64) : Leave :=
  let (a, k) := rounded (tdAddr x w) 8
  let p := d.widePlace c noT3 a 64
  let l := (x.td (dTdn w)).flatMap (fun v => leBytes 8 v.toNat)
  if d.isHere p then
    match d.writeHere c x p l a with
    | .wait d => .wait d
    | .bad d | .got _ d => .next (d.clampC c k)
  else
    match d.sendBytes x p.node p.tier p.off l (.store c x.arch.pc) with
    | .sent _ d | .no d => .next ((d.clampC c k).noteClamps (.ctx c) p.kinds a)
    | .wait => .wait d

end Dev

/-! ## The commands -/

/-- STR.LD (R142, R197). -/
def execStrLd (c : BitVec 12) (w x : W64) (s : State) : Out :=
  .next ((s.onDev (fun d => d.run c.toNat w x 8 0 .opt [Dev.strSs w x] (fun d y e _ => d.issue s.aon c.toNat y (Dev.strArgs y w e (b2n (bit64 w 0)) .ld)))).settled)
/-- STR.ST (R142, R197). -/
def execStrSt (c : BitVec 12) (w x : W64) (s : State) : Out :=
  .next ((s.onDev (fun d => d.run c.toNat w x 8 1 .opt [Dev.strSs w x] (fun d y e _ => d.issue s.aon c.toNat y (Dev.strArgs y w e 2 .st)))).settled)
/-- STR.PF (R142, R197). -/
def execStrPf (c : BitVec 12) (w x : W64) (s : State) : Out :=
  .next ((s.onDev (fun d => d.run c.toNat w x 8 2 .opt [Dev.strSs w x] (fun d y e _ => d.issue s.aon c.toNat y (Dev.strArgs y w e 3 .pf)))).settled)
/-- STR.MOVE (R142, R251). -/
def execStrMove (c : BitVec 12) (w x : W64) (s : State) : Out :=
  .next ((s.onDev (fun d => d.run c.toNat w x 8 3 .none [fSa w, fSd w, fSs w] (fun d y _ _ => d.strMove c.toNat y w))).settled)
/-- STR.LDS (R142). -/
def execStrLds (c : BitVec 12) (w x : W64) (s : State) : Out :=
  .next ((s.onDev (fun d => d.run c.toNat w x 8 4 .none [aSa w, aSd w] (fun d y _ _ => d.loadInto s.aon c.toNat y (aSd w) 8 (y.s (aSa w) + simm w 33)))).settled)
/-- STR.STS (R142). -/
def execStrSts (c : BitVec 12) (w x : W64) (s : State) : Out :=
  .next ((s.onDev (fun d => d.run c.toNat w x 8 5 .none [aSa w, aSb w] (fun d y _ _ => d.storeAt c.toNat y (leBytes 8 (y.s (aSb w)).toNat) (y.s (aSa w) + simm w 33)))).settled)
/-- STR.LDS4 (R142). -/
def execStrLds4 (c : BitVec 12) (w x : W64) (s : State) : Out :=
  .next ((s.onDev (fun d => d.run c.toNat w x 8 6 .none [aSa w, aSd w] (fun d y _ _ => d.loadInto s.aon c.toNat y (aSd w) 4 (y.s (aSa w) + simm w 33)))).settled)
/-- STR.STS4 (R142). -/
def execStrSts4 (c : BitVec 12) (w x : W64) (s : State) : Out :=
  .next ((s.onDev (fun d => d.run c.toNat w x 8 7 .none [aSa w, aSb w] (fun d y _ _ => d.storeAt c.toNat y (leBytes 4 (y.s (aSb w)).toNat) (y.s (aSa w) + simm w 33)))).settled)
/-- STR.TDLD (R142). -/
def execStrTdld (c : BitVec 12) (w x : W64) (s : State) : Out :=
  .next ((s.onDev (fun d => d.run c.toNat w x 8 8 .none [dSx w] (fun d y _ _ => d.tdLoad s.aon c.toNat y w))).settled)
/-- STR.TDST (R142). -/
def execStrTdst (c : BitVec 12) (w x : W64) (s : State) : Out :=
  .next ((s.onDev (fun d => d.run c.toNat w x 8 9 .none [dSx w] (fun d y _ _ => d.tdStore c.toNat y w))).settled)
/-- STR.TDW (R142). -/
def execStrTdw (c : BitVec 12) (w x : W64) (s : State) : Out :=
  .next (s.onDev (fun d => d.run c.toNat w x 8 0xA .none [dSx w] (fun d y _ _ => .next (d.modCtx c.toNat (fun z => z.setTdw (dTdn w) (dWord w) (y.s (dSx w)))))))
/-- STR.TDR (R142). -/
def execStrTdr (c : BitVec 12) (w x : W64) (s : State) : Out :=
  .next (s.onDev (fun d => d.run c.toNat w x 8 0xB .none [dSx w] (fun d y _ _ => .next (d.modCtx c.toNat (fun z => z.setS (dSx w) (y.tdw (dTdn w) (dWord w)))))))
/-- STR.TDADD (R142). -/
def execStrTdadd (c : BitVec 12) (w x : W64) (s : State) : Out :=
  .next (s.onDev (fun d => d.run c.toNat w x 8 0xC .none [dSx w] (fun d y _ _ => .next (d.modCtx c.toNat (fun z => z.setTdw (dTdn w) 0 (y.tdw (dTdn w) 0 + Dev.tdAddr y w))))))

end Sys2Proof.Machine
end

