-- ==== Sys2Proof/Machine/ExecFab.lean ====
section
/-! DEFINITION. FAB instructions (R143, R144, Table 05-12) and the gathers that wait (R307). -/
namespace Sys2Proof.Machine

/-- What FAB.AMO leaves in a word (Table 05-12): code, SB, SD, the old value. -/
def fabAmoVal (code sb sd old : Nat) : Nat :=
  if code = 9 then (if old = sd then sb else old) else if code = 10 then old else amoVal code 8 old sb
/-- FAB.AMO writes the word: not as a load, nor as a compare and swap that fails. -/
def fabAmoPut (code sb sd old : Nat) : Option Nat :=
  if code = 10 || (code = 9 && old ≠ sd) then none else some (fabAmoVal code sb sd old)

namespace Dev

/-- FAB.AMO (R106, R143). -/
def fabAmo (d : Dev) (aon : AonSt) (c : Nat) (x : Ctx) (w : W64) : Leave :=
  let m := bits64 w 0 4
  let code := if 10 < m then 10 else m
  let (p, a, r) := d.atomicPlace c (x.s (fSa w))
  let n := r + b2n (10 < m)
  let sb := (x.s (fSb w)).toNat
  let sd := (x.s (fSd w)).toNat
  let cl := n + b2n (iExt w) + p.kinds.length != 0 || (p.tier == 0 && scrInvalid x (upFrom p.off 8))
  if d.isHere p then
    match d.atomicHere aon c x p a (fabAmoPut code sb sd) with
    | .wait d => .wait d
    | .bad d => .overs ((d.clampC c n).abortTask c 0 0 (placeAddr p))
    | .got l d => .next ((d.clampC c n).amoDone c w cl 0 (leVal l))
  else
    match d.ask x 8 (placeAddr p) (leBytes 8 sb ++ leBytes 8 sd ++ leBytes 16 code) (.amo c w cl) with
    | .sent t d => .hold t ((d.clampC c n).noteClamps (.ctx c) p.kinds a)
    | .wait => .wait d
    | .no d => .next (((d.clampC c n).noteClamps (.ctx c) p.kinds a).amoDone c w cl 0x0B 0)

/-! ## Tokens -/

/-- The transfer of a token send or of the replies of a context (R124, R198): columns, status, tokens that the status word counts, what
its sends share. -/
def tokXfer (x : Ctx) (w : W64) (k : XKind) (tx ty : Tensor) (n st toks : Nat) (cl : Bool) (g : TokSend) : Xfer :=
  ⟨x.serial, 2, k, ty, tx, 0, n, 1, 1, 0, fSs w, true, fEv w, bit64 w 10, n * (16 + ty.rowBytes ty.d0), 0, 0, none, 0, false, cl, false, false, false, st, bit64 w 7, none, x.arch.pc, [], [], [], toks, g⟩
/-- The columns that a token instruction takes: the fewer of its two operands (DESIGN CHOICE, log 47). -/
def tokCols (o : Opnd × Opnd) : Nat := min o.1.t.d1 o.2.t.d1
/-- The scratch places of the headers. -/
def hdrScr (o : Opnd × Opnd) : List Nat := (List.range (tokCols o)).flatMap (fun n => tokPlaces o.1.t n 16)
/-- The expert numbers of the headers. -/
def hdrExperts (d : Dev) (c : Nat) (x : Ctx) (o : Opnd × Opnd) : List Nat :=
  (List.range (tokCols o)).map (fun n => leVal ((((tokPlaces o.1.t n 16).map (fun q => d.scrByte c x q)).drop 4).take 2))
/-- The group of a send (R303): that of its first header whose expert is placed. -/
def sendGroup (d : Dev) (l : List Nat) : Option Nat := l.findSome? (fun e => (d.expertOf e).map (·.group))
/-- Reserves room in a context's inbox (R306); none where it is not free. -/
def takeRoom (d : Dev) (c room : Nat) : Option Dev :=
  match Tab.find d.herd.inboxes c with
  | none => none
  | some b => if b.size < b.used + room then none else
    some { d with herd := { d.herd with inboxes := Tab.put d.herd.inboxes c { b with used := b.used + room } } }
/-- FAB.SEND_TOKENS as it issues (R301 to R303, R306): the group and the round are settled and the inbox has room kept for every token;
the tokens go as their bytes come from scratch (R205). -/
def sendTokens (d : Dev) (c : Nat) (x : Ctx) (w : W64) : Leave :=
  if engFull x 2 || x.mm.isSome then .wait d else
  let o := d.tokOpnds c x w
  if d.scrBad c x (hdrScr o) then .overs ((d.noteOpnds c [o.1, o.2]).abortTask c 0 2 o.2.t.base) else
  let n := tokCols o
  let g := d.sendGroup (d.hdrExperts c x o)
  let units := match g with | some g => (d.groupOf g).units | none => 2 ^ 32
  let len := o.2.t.rowBytes o.2.t.d0
  let cut := min len (16 * units)
  let issued := opndClamps [o.1, o.2] + b2n (iExt w)
  let q := (d.noteOpnds c [o.1, o.2]).needInbox c x.part
  let stop := fun (d : Dev) (st : Nat) => Leave.next (d.addXfer c (tokXfer x w .send o.1.t o.2.t 0 st 0 (issued != 0) TokSend.none))
  if q.1 ≠ 0 then stop q.2 q.1 else
  match q.2.takeRoom c (n * (16 + cut)) with
  | none => stop q.2 0x30
  | some d =>
    let rd := match g with | some g => Tab.getD d.herd.roundCtr (c * 256 + g) 0 | none => 0
    let long := if cut < len then n else 0
    let d : Dev := match g with
      | some g => { d.dirClamp (d.groupOf g).clamps with herd := { (d.dirClamp (d.groupOf g).clamps).herd with roundCtr := Tab.store d.herd.roundCtr (c * 256 + g) ((rd + 1) % 65536) 0 } }
      | none => d
    .next ((d.clampC c long).addXfer c (tokXfer x w .send o.1.t o.2.t n 0 n (issued + long != 0) ⟨g, rd, units, false⟩))
/-- The run-time has bound an expert to a partition here (R307). -/
def gatherBound (d : Dev) (ex p : Nat) : Bool × Dev :=
  match d.expertOf ex with
  | none => (false, d)
  | some e =>
    let d := d.autoBind ex e (d.groupOf e.group).units
    ((match Tab.find d.herd.bound ex with | some b => b.part == p | none => false), d)
/-- FAB.RECV_TOKENS (R144, R306, R307). -/
def recvTokens (d : Dev) (c : Nat) (x : Ctx) (w : W64) : Leave :=
  if x.mm.isSome then .wait d else
  let o := d.tokOpnds c x w
  let d := ((d.noteOpnds c [o.1, o.2]).clampC c (b2n (bigExpert x w))).needInbox c x.part |>.2
  let b := if bit64 w 0 then (true, d) else d.gatherBound ((x.s (fSa w)).toNat % 65536) x.part
  if b.1 then
    match b.2.gather c w 0 none with
    | .more v d => .block v d
    | .done d => .next d
    | .bad d => .overs d
  else .next ((b.2.clampC c 1).putStatus c (fSs w) 0 1 0)
/-- A waiting gather goes on (R226, R307): its context wakes, and where it executes it takes what has come. -/
def gatherGo (d : Dev) (c : Nat) : Dev :=
  match d.ctx? c with
  | none => d
  | some x => match x.wait with
    | .tokens w n rd =>
      if !d.gatherReady c x w rd then d else
      let d := d.wake c
      match d.ctx? c with
      | some y =>
        if y.st = .running && !y.fenced && y.mm.isNone then
          (match d.gather c w n rd with
           | .more v d => d.blockCtx c v y.arch.pc
           | .done d => (d.modCtx c (fun y => { y with wait := .none })).trapNow c
           | .bad d => d)
        else d
      | none => d
    | _ => d
/-- FAB.REPLY_TOKENS as it issues (R308). -/
def replyTokens (d : Dev) (c : Nat) (x : Ctx) (w : W64) : Leave :=
  if engFull x 2 || x.mm.isSome then .wait d else
  let o := d.tokOpnds c x w
  let d := ((d.noteOpnds c [o.1, o.2]).needInbox c x.part).2
  .next (d.addXfer c (tokXfer x w .reply o.1.t o.2.t (tokCols o) 0 0 (opndClamps [o.1, o.2] + b2n (iExt w) != 0) TokSend.none))

end Dev

/-! ## The commands -/

/-- FAB.AMO (R143). -/
def execFabAmo (c : BitVec 12) (w x : W64) (s : State) : Out :=
  .next ((s.onDev (fun d => d.run c.toNat w x 9 0 .none [fSa w, fSb w, fSd w, fSs w] (fun d y _ _ =>
    d.released c.toNat y (bit64 w 8) (d.fabAmo s.aon c.toNat y w)))).settled)
/-- FAB.PUT (R143). -/
def execFabPut (c : BitVec 12) (w x : W64) (s : State) : Out :=
  .next ((s.onDev (fun d => d.run c.toNat w x 9 4 .none [fSb w, fSs w] (fun d y _ _ =>
    d.released c.toNat y (bit64 w 8) (d.issue s.aon c.toNat y (Dev.putArgs y w))))).settled)
/-- FAB.SEND_TOKENS (R306). -/
def execFabSendTokens (c : BitVec 12) (w x : W64) (s : State) : Out :=
  .next ((s.onDev (fun d => d.run c.toNat w x 9 1 .none [fSs w] (fun d y _ _ =>
    d.released c.toNat y (bit64 w 8) (d.sendTokens c.toNat y w)))).settled)
/-- FAB.RECV_TOKENS (R307). -/
def execFabRecvTokens (c : BitVec 12) (w x : W64) (s : State) : Out :=
  .next ((s.onDev (fun d => d.run c.toNat w x 9 2 .none [fSa w, fSs w] (fun d y _ _ =>
    d.released c.toNat y (bit64 w 8) (d.recvTokens c.toNat y w)))).settled)
/-- TOKEN_GATHER_COMPLETE (R307). -/
def execTokenGatherComplete (c : BitVec 12) (s : State) : Out := .next ((s.onDev (fun d => d.gatherGo c.toNat)).settled)
/-- FAB.REPLY_TOKENS (R308). -/
def execFabReplyTokens (c : BitVec 12) (w x : W64) (s : State) : Out :=
  .next ((s.onDev (fun d => d.run c.toNat w x 9 3 .none [fSs w] (fun d y _ _ =>
    d.released c.toNat y (bit64 w 8) (d.replyTokens c.toNat y w)))).settled)

end Sys2Proof.Machine
end

