-- ==== Sys2Proof/Machine/ExecFtl.lean ====
section
/-! DEFINITION. The commands of the write buffer and the flash translation layer (chapter 15). -/
namespace Sys2Proof.Machine

/-- WB_FLUSH_TO_FLASH (R404): above HIWAT the controller writes the dirty slots of a unit. -/
def execWbFlushToFlash (u : BitVec 33) (s : State) : Out :=
  .next (s.onDev (fun d => if wbSlots * d.fld R.wbcCtrl F.wbcCtrl_hiwat < 256 * d.ftl.slots.length then d.flushUnit u.toNat else d))

/-- WB_SLOT_AGE (R404): a slot dirty for 1 s is written. -/
def execWbSlotAge (b : BitVec 37) (s : State) : Out :=
  .next (s.onDev (fun d =>
    match Tab.find d.ftl.slots b.toNat with
    | none => d
    | some x => if x.at' + 1000000000 ≤ d.now then d.flushUnit (b.toNat / 16) else d))

/-- WBC_DRAIN (R404): every dirty slot is written, and the bit reads 0 again (R67). -/
def execWbcDrain (r : Req) (s : State) : Out := .next (s.onDev (fun d => d.regDo r R.wbcCtrl Dev.drain))

/-- HEAT_DECAY (R399 item 4). -/
def execHeatDecay (s : State) : Out :=
  .next (s.onDev (fun d => d.setFtl (fun f => { f with units := f.units.map (fun p => (p.1, { p.2 with heat := p.2.heat / 2 })) })))

/-- GC_RECLAIM (R407). -/
def execGcReclaim (s : State) : Out := .next (s.onDev Dev.gcReclaim)

/-- GC_RECLAIM_COMPLETE (R407, R408). -/
def execGcReclaimComplete (s : State) : Out := .next (s.onDev Dev.gcComplete)

/-- GC_IDLE_TIMER (R407): no user write for IDLE_MS lets background collection run. -/
def execGcIdleTimer (s : State) : Out :=
  .next (s.onDev (fun d =>
    if d.ftl.lastWrite + getF d.ftl.lim1 F.ftlGcLim1_idleMs * 1000000 ≤ d.now then d.setFtl (fun f => { f with gcIdle := true }) else d))

/-- HOLDUP_MEASURE (R405). -/
def execHoldupMeasure (mj : BitVec 16) (s : State) : Out := .next (s.onDev (fun d => d.holdupMeasure mj.toNat))

end Sys2Proof.Machine
end

