-- ==== Sys2Proof/Machine/ExecMgmt.lean ====
section
/-! DEFINITION. The commands of the management port, the persistent log, settings, images, Fawn mode and the life cycle
(chapter 18). A reply holds what the spec says is answered; the framing of the standards is not modelled (log 20). -/
namespace Sys2Proof.Machine

namespace State

/-- Sets the reply of the management port. -/
def replying (s : State) (l : List Byte) : State := s.onAon (fun a => { a with reply := l })
/-- The Tahr firmware runs and serves every protocol of Table 18-3 (R488, R489). -/
def mgmtFull (s : State) : Bool := s.aon.standby && s.aon.running.isSome && s.aon.fawn.isNone && !s.aon.lcFuse
/-- PLDM types 0 and 5 and the life-cycle messages are served, in Fawn mode too (R513). -/
def mgmtFawn (s : State) : Bool := s.aon.standby && (s.aon.running.isSome || s.aon.fawn.isSome) && !s.aon.lcFuse
/-- What DECOMMISSIONED still answers (Table 18-6). -/
def mgmtBase (s : State) : Bool := s.mgmtFawn || (s.aon.standby && s.aon.lcFuse)

/-- Answers a request of the full set of protocols; where it is not served there is no answer. -/
def answer (s : State) (l : List Byte) : State := if s.mgmtFull then s.replying l else s.replying []

/-- Starts the image that has just been made active from Fawn mode (R513). -/
def fawnBootSlot (s : State) (n : Nat) : State :=
  (s.onAon (fun a => { a with active := n, bootCnt := 0, pendAct := none })).bootSlot n

/-- Ends a Fawn command with a status, flags and the bytes it wrote to the host. -/
def fawnDone (s : State) (op st fl : Nat) (out : List Byte) : State :=
  s.onAon (fun a => { a with fawn := a.fawn.map (fun f => { f with op := op, status := st, flags := fl, out := out }) })

/-- Log page 0xC0: bytes from an offset on (R472). -/
def logBytes (s : State) (off n : Nat) : List Byte :=
  let hdr := leBytes 8 s.aon.log.length ++ List.replicate 24 0#8
  let first := if off < 32 then 0 else (off - 32) / 32
  let ents := ((s.aon.log.drop first).take (n / 32 + 2)).flatMap (fun e => leBytes 8 e.w0.toNat ++ leBytes 8 e.w1.toNat ++ leBytes 8 e.w2.toNat ++ leBytes 8 e.w3.toNat)
  if off < 32 then ((hdr ++ ents).drop off).take n else (ents.drop (off - 32 - 32 * first)).take n

end State

/-- NVMe critical warnings (R405, R413, R415, R416, R491). -/
def Dev.critWarn (d : Dev) : Nat :=
  b2n (d.availSpare < 10) + 2 * b2n (d.flag R.tahrEvt F.tahrEvt_warn) +
  4 * b2n (!d.ftl.failedDies.isEmpty || d.reg R.ftlPoisonCnt != 0#32) + 8 * b2n d.ftl.retired +
  16 * b2n (d.flag R.ftlHoldup F.ftlHoldup_wt || d.ftl.flushLoss)

/-- SETTINGS_SAVE (R496): the bit reads 0 again when the save is done. -/
def execSettingsSave (r : Req) (s : State) : Out := .next (s.regDo r R.tahrSetCtrl State.saveSettings)

/-- TEMP_SAMPLE (R490, R491): readings of sensors from 0 on; flags fall with a hysteresis of 2 °C; TEMP_WARN once per crossing. -/
def execTempSample (e : List (BitVec 12)) (s : State) : Out :=
  let s := s.onDev (fun d => (e.take 64).zipIdx.foldl (fun d p => d.setFlds (R.tahrTemp p.2) [(F.tahrTemp_temp, p.1.toNat), (F.tahrTemp_valid, 1)]) d)
  let warn := signedOf 12 (s.dev.fld R.tahrTempLim F.tahrTempLim_warn)
  let crit := max warn (signedOf 12 (s.dev.fld R.tahrTempLim F.tahrTempLim_crit))
  let hot := fun (lim : Int) => (List.range 48).any (fun i => lim ≤ s.dev.temp i)
  let old := s.aon.warned
  let new := (List.range 48).filter (fun i => !old.contains i && warn ≤ s.dev.temp i)
  let s := s.onAon (fun a => { a with warned := (old.filter (fun i => warn - 16 ≤ s.dev.temp i)) ++ new })
  let s := new.foldl (fun s i => s.event 0 0x11 0x000C i 0#64) s
  let flagOf := fun (was : Bool) (lim : Int) => b2n (hot lim || (was && hot (lim - 16)))
  .next (s.onDev (fun d => d.setFlds R.tahrEvt [(F.tahrEvt_warn, flagOf (d.flag R.tahrEvt F.tahrEvt_warn) warn), (F.tahrEvt_crit, flagOf (d.flag R.tahrEvt F.tahrEvt_crit) crit)]))

/-- MONITOR_SAMPLE (R490): voltage and current of monitors from 0 on; channel 15 reads 0, channel 14 has no current. -/
def execMonitorSample (e : List W32) (s : State) : Out :=
  .next (s.onDev (fun d => (e.take 15).zipIdx.foldl (fun d p => d.setReg (R.tahrMon p.2) (if p.2 = 14 then setF p.1 F.tahrMon_curr 0 else p.1)) d))

/-- SVN_FUSE_ADVANCE (R511). -/
def execSvnFuseAdvance (s : State) : Out :=
  let v := ((s.aon.running.bind s.aon.img).map Img.svn).getD 0
  .next (match s.aon.readyAt with
    | none => s
    | some t =>
      if t + 600000000000 ≤ s.aon.ns && s.aon.svn < v && v ≤ 64 then (s.onAon (fun a => { a with svn := v })).secEvent 0x0006 v else s)

/-- BOOT_ROM_START (R512). -/
def execBootRomStart (s : State) : Out := .next s.bootRom

/-- BOOT_WATCHDOG_EXPIRE (R512). -/
def execBootWatchdogExpire (s : State) : Out := .next s.watchdog

/-- FAWN_NOP (R514). -/
def execFawnNop (s : State) : Out := .next (if s.aon.fawn.isNone then s else s.fawnDone 0 0 0 [])

/-- FAWN_RESERVED_OP (R514): a NOP with CLAMPED. -/
def execFawnReservedOp (op : BitVec 8) (s : State) : Out := .next (if s.aon.fawn.isNone then s else s.fawnDone op.toNat 0 1 [])

/-- FAWN_WRITE (R514): at most 1 MiB, read by DMA from the host address a, at consecutive offsets from 0. -/
def execFawnWrite (a : W64) (off : BitVec 27) (e : List Byte) (s : State) : Out :=
  let l := e.take 1048576
  let fl := b2n (1048576 < e.length)
  .next (if s.aon.fawn.isNone then s
    else
      let s := s.onAon (fun x => { x with fawn := x.fawn.map (fun f => { f with addr := a, len := l.length, off := off.toNat }) })
      if s.aon.update.any (fun u => u.path ≠ .fawn) then s.fawnDone 1 0x6C fl []
      else match s.aon.piece .fawn off.toNat l with
        | none => s.fawnDone 1 0x6E fl []
        | some x => ({ s with aon := x }).fawnDone 1 0 fl [])

/-- FAWN_COMMIT (R513): the bytes written are checked; an image accepted becomes active and boots at once. -/
def execFawnCommit (s : State) : Out :=
  .next (if s.aon.fawn.isNone then s
    else if s.aon.update.any (fun u => u.path ≠ .fawn) then s.fawnDone 2 0x6C 0 []
    else match s.storeImage with
      | (some st, s) => s.fawnDone 2 st 0 []
      | (none, s) => s.fawnBootSlot s.aon.other)

/-- FAWN_BOOT (R514). -/
def execFawnBoot (s : State) : Out := .next (if s.aon.fawn.isNone then s else s.fawnBootSlot s.aon.active)

/-- FAWN_BOOT_OTHER (R514). -/
def execFawnBootOther (s : State) : Out :=
  .next (if s.aon.fawn.isNone then s
    else if s.aon.slotValid s.aon.other then s.fawnBootSlot s.aon.other else s.fawnDone 4 0x6D 0 [])

/-- FAWN_READ_LOG (R514): the log from an offset goes by DMA to the host address a. -/
def execFawnReadLog (a : W64) (off : BitVec 27) (len : BitVec 21) (s : State) : Out :=
  .next (if s.aon.fawn.isNone then s
    else
      let n := min 1048576 len.toNat
      (s.onAon (fun x => { x with fawn := x.fawn.map (fun f => { f with addr := a, len := n, off := off.toNat }) })).fawnDone 5 0
        (b2n (1048576 < len.toNat)) (s.logBytes off.toNat (min n (32 + 32 * s.aon.log.length - off.toNat))))

/-- FAWN_ABORT (R514): bytes written since the last COMMIT are discarded. -/
def execFawnAbort (s : State) : Out :=
  .next (if s.aon.fawn.isNone then s
    else (s.onAon (fun a => { a with update := if a.update.any (fun u => u.path = .fawn) then none else a.update })).fawnDone 6 0 0 [])

/-- GET_NONCE (R506): a fresh nonce, valid for 60 s and one request. -/
def execGetNonce (s : State) : Out :=
  .next (if !s.mgmtFawn then s.replying []
    else
      let q := fun i => leBytes 8 (Config.freeWord (s.dev.draws + i)).toNat
      let n := q 0 ++ q 1 ++ q 2 ++ q 3
      ((s.onDev (fun d => { d with draws := d.draws + 4 })).onAon (fun a => { a with nonce := some (n, a.ns), nonceSeq := a.nonceSeq + 1 })).replying n)

/-- The token of a TRANSITION verifies (R506): serial, nonce, its age, the table, the owner key where one is named, the
signature by the key that Table 18-6 names. -/
def tokenGood (s : State) (target : Nat) (serial : W64) (nonce : List Byte) (owner : Option (List Byte)) (sig : List Byte) : Bool :=
  serial == Config.serial && s.aon.nonce.any (fun n => n.1 == nonce && s.aon.ns < n.2 + 60000000000) && lcAllowed s.aon.lc target &&
  (target != 2 || owner.isSome) &&
  Config.sigValid (2#8 :: BitVec.ofNat 8 s.aon.lc :: BitVec.ofNat 8 target :: leBytes 8 serial.toNat ++ nonce ++ owner.getD [] ++ s.aon.ownerKey.getD [] ++ sig)

/-- TRANSITION (R505): a token that fails is refused; a good one flushes, records the state, erases and resets the device. -/
def execTransition (target : Fin 5) (serial : W64) (nonce : List Byte) (owner : Option (List Byte)) (sig : List Byte) (s : State) : Out :=
  .next (if !s.mgmtFawn then s.replying []
    else if s.aon.update.isSome then s.replying [0x6C#8]
    else
      let ok := tokenGood s target serial nonce owner sig
      let s := s.onAon (fun a => { a with nonce := none })
      if !ok then (s.authFailed 2).replying [0x6B#8]
      else
        let from' := s.aon.lc
        let s := s.flushForReset
        let s := (s.onAon (fun a => { a with lc := target.val, ownerKey := if target.val = 2 then owner else a.ownerKey })).lcErase from' target
        ((s.secEvent 0x0009 target).replying [0x00#8]).deviceReset 6)

/-- READ_NVME_MI_DATA_STRUCTURE (R488): NVM subsystem, port, controller list or controller information. -/
def execReadNvmeMiDataStructure (typ : BitVec 8) (p : Fin 4) (s : State) : Out :=
  .next (s.answer (match typ.toNat with
    | 0 => [0#8, 4#8, 2#8, 0#8]
    | 1 => [0#8, BitVec.ofNat 8 p.val, 64#8, 0#8]
    | 2 => 0#8 :: (Tab.keys s.dev.host.ctrls).map (BitVec.ofNat 8)
    | 3 => [0#8, BitVec.ofNat 8 p.val, 0x5C#8, 0x1F#8]
    | _ => [4#8]))

/-- NVM_SUBSYSTEM_HEALTH_STATUS_POLL (R489): working or not, warnings, composite temperature, controllers ready. -/
def execNvmSubsystemHealthStatusPoll (_clear : Bool) (s : State) : Out :=
  let rdy := fun (c : Nat × Ctrl) => s.aon.mainGood && c.2.rdy
  .next (s.answer ([0#8, BitVec.ofNat 8 (b2n (s.aon.mainGood && !s.dev.devFatal)), BitVec.ofNat 8 s.dev.critWarn] ++
    leBytes 2 s.dev.compositeK ++ s.dev.host.ctrls.map (fun c => BitVec.ofNat 8 (b2n (rdy c)))))

/-- CONTROLLER_HEALTH_STATUS_POLL (R489). -/
def execControllerHealthStatusPoll (p : Fin 4) (s : State) : Out :=
  let c := Tab.getD s.dev.host.ctrls p Ctrl.reset
  .next (s.answer ([0#8, BitVec.ofNat 8 (b2n (s.aon.mainGood && c.rdy) + 2 * b2n (s.aon.mainGood && c.cfs) + 4 * (if s.aon.mainGood then c.shst else 0)),
    BitVec.ofNat 8 s.dev.critWarn] ++ leBytes 2 s.dev.compositeK ++ [BitVec.ofNat 8 (min 100 s.dev.availSpare)]))

/-- Configuration values of the management port after a cold reset: 100 kHz, the baseline MTU of 64 bytes. -/
def miCfgReset (id : Nat) : W32 := if id = 1 then 1#32 else if id = 3 then 64#32 else 0#32

/-- CONFIGURATION_GET (R488). -/
def execConfigurationGet (id port : BitVec 8) (s : State) : Out :=
  .next (s.answer (if id.toNat = 0 || 3 < id.toNat then [4#8]
    else 0#8 :: leBytes 4 (Tab.getD s.aon.miCfg (id.toNat * 256 + port.toNat) (miCfgReset id.toNat)).toNat))

/-- CONFIGURATION_SET (R488): the MTU stays at the baseline. -/
def execConfigurationSet (id port : BitVec 8) (v : W32) (s : State) : Out :=
  .next (if !s.mgmtFull then s.replying []
    else if id.toNat = 0 || 3 < id.toNat || (id.toNat = 3 && v ≠ 64#32) then s.replying [4#8]
    else (s.onAon (fun a => { a with miCfg := Tab.store a.miCfg (id.toNat * 256 + port.toNat) v (miCfgReset id.toNat) })).replying [0#8])

/-- VPD_READ (R488). -/
def execVpdRead (off len : BitVec 16) (s : State) : Out :=
  .next (s.answer (0#8 :: Memory.read s.aon.vpd off.toNat len.toNat))

/-- VPD_WRITE (R488). -/
def execVpdWrite (off : BitVec 16) (e : List Byte) (s : State) : Out :=
  .next (if !s.mgmtFull then s.replying []
    else if 65536 < off.toNat + e.length then s.replying [4#8]
    else (s.onAon (fun a => { a with vpd := Memory.write a.vpd off.toNat e })).replying [0#8])

/-- NVME_MI_RESET (R529). -/
def execNvmeMiReset (s : State) : Out := .next (if s.mgmtFull then (s.replying [0#8]).deviceReset 4 else s.replying [])

/-- The firmware inventory of PLDM type 5 (R2): the one component, with the version in use and the version that waits for the
next reset, eight characters each (none: zeros). -/
def State.pldmInventory (s : State) : List Byte :=
  let ver := fun (n : Option Nat) => match n.bind s.aon.img with | some i => fwRev (some i) | none => List.replicate 8 0#8
  [0#8, 1#8] ++ ver s.aon.running ++ ver s.aon.pendAct

/-- PLDM_BASE_REQUEST (R488): GetTID, GetPLDMTypes with the types served now, an error for what is not supported. A request whose
first byte names PLDM type 5 asks for the firmware inventory (GetFirmwareParameters, R2; log 73). -/
def execPldmBaseRequest (cmd : BitVec 8) (e : List Byte) (s : State) : Out :=
  .next (if !s.mgmtBase then s.replying []
    else if e.head? = some 5#8 && cmd = 2#8 then s.replying (if s.mgmtFawn then s.pldmInventory else [5#8])
    else s.replying (match cmd.toNat with
      | 1 => [0#8]
      | 2 => [0#8, s.aon.eid |> BitVec.ofNat 8]
      | 3 => [0#8, 0xF1#8, 0xF1#8, 0xF0#8, 0x00#8]
      | 4 => [0#8, if s.aon.lcFuse then 0x01#8 else if s.aon.fawn.isSome then 0x21#8 else 0x25#8]
      | 5 => [0#8, 0x3E#8]
      | _ => [5#8]))

/-- PLDM_GET_SENSOR_READING (R490). -/
def execPldmGetSensorReading (id : BitVec 16) (s : State) : Out :=
  let i := id.toNat
  .next (s.answer (
    if 0x100 ≤ i && i < 0x140 then 0#8 :: leBytes 2 (s.dev.fld (R.tahrTemp (i - 0x100)) F.tahrTemp_temp)
    else if 0x200 ≤ i && i < 0x210 then 0#8 :: leBytes 2 (s.dev.fld (R.tahrMon (i - 0x200)) F.tahrMon_mv)
    else if 0x280 ≤ i && i < 0x290 then 0#8 :: leBytes 2 (s.dev.fld (R.tahrMon (i - 0x280)) F.tahrMon_curr)
    else if 0x300 ≤ i && i < 0x320 then 0#8 :: leBytes 2 (s.dev.fld (R.tempoRate (i - 0x300)) F.tempoRate_rate)
    else if i = 0x400 then 0#8 :: leBytes 2 (s.aon.samples.headD 0)
    else [0x80#8]))

/-- PLDM_REQUEST_UPDATE (R510): refused while an update runs. -/
def execPldmRequestUpdate (s : State) : Out :=
  .next (if !s.mgmtFawn then s.replying []
    else if s.aon.update.isSome then s.replying [0x81#8]
    else ((s.onAon (fun a => { a with update := some ⟨.pldm, [], 0⟩ })).replying [0#8]))

/-- PLDM_FIRMWARE_DATA (R510). -/
def execPldmFirmwareData (off : BitVec 32) (e : List Byte) (s : State) : Out :=
  .next (if !s.mgmtFawn || !s.aon.update.any (fun u => u.path = .pldm) then s.replying []
    else match s.aon.piece .pldm off.toNat e with
      | none => s.replying [1#8]
      | some a => ({ s with aon := a }).replying [0#8])

/-- PLDM_ACTIVATE_FIRMWARE (R510, R513): the image is checked and stored; it is activated at the next reset, and boots at once
in Fawn mode. -/
def execPldmActivateFirmware (s : State) : Out :=
  .next (if !s.mgmtFawn || !s.aon.update.any (fun u => u.path = .pldm) then s.replying []
    else match s.storeImage with
      | (some _, s) => s.replying [1#8]
      | (none, s) =>
        if s.aon.fawn.isSome then (s.replying [0#8]).fawnBootSlot s.aon.other
        else (s.onAon (fun a => { a with pendAct := some a.other })).replying [0#8])

/-- GET_VERSION: SPDM 1.3 (R488). -/
def execGetVersion (s : State) : Out :=
  .next (if !s.mgmtBase || s.aon.fawn.isSome then s.replying [] else (s.onAon (fun a => { a with spdm := 1 })).replying [0x04#8, 0x13#8])

/-- GET_CAPABILITIES: certificates, challenge and signed measurements, no sessions (R488). -/
def execGetCapabilities (_flags : W32) (s : State) : Out :=
  .next (if !s.mgmtBase || s.aon.fawn.isSome then s.replying []
    else if s.aon.spdm < 1 then s.replying [0x7F#8]
    else (s.onAon (fun a => { a with spdm := max 2 a.spdm })).replying [0x61#8, 0x16#8])

/-- NEGOTIATE_ALGORITHMS: ECDSA P-384 and SHA-384 only (R488). -/
def execNegotiateAlgorithms (asym hash : W32) (s : State) : Out :=
  .next (if !s.mgmtFull then s.replying []
    else if s.aon.spdm < 2 || !asym.getLsbD 7 || !hash.getLsbD 1 then s.replying [0x7F#8]
    else (s.onAon (fun a => { a with spdm := 3 })).replying ([0x63#8] ++ leBytes 4 0x80 ++ leBytes 4 0x02))

/-- GET_DIGESTS: the one certificate slot (R488, R502). -/
def execGetDigests (s : State) : Out :=
  .next (s.answer (if s.aon.spdm < 3 || !s.aon.idKey then [0x7F#8] else 0x01#8 :: Config.digest Config.certificate))

/-- GET_CERTIFICATE (R502). -/
def execGetCertificate (slot : BitVec 8) (off len : BitVec 16) (s : State) : Out :=
  .next (s.answer (if s.aon.spdm < 3 || !s.aon.idKey || slot ≠ 0#8 then [0x7F#8] else 0x02#8 :: (Config.certificate.drop off.toNat).take len.toNat))

/-- CHALLENGE: signed with the identity key (R502). -/
def execChallenge (slot : BitVec 8) (e : List Byte) (s : State) : Out :=
  .next (s.answer (if s.aon.spdm < 3 || !s.aon.idKey || slot ≠ 0#8 then [0x7F#8] else 0x03#8 :: (Config.digest Config.certificate ++ Config.signature e)))

/-- The measurement blocks (Table 18-5). -/
def measurement (s : State) (i : Nat) : Option (List Byte) :=
  let img := s.aon.running.bind s.aon.img
  match i with
  | 1 => some Config.bootRomDigest
  | 2 => some (Config.digest (img.elim [] Img.signed))
  | 3 => some (img.elim (List.replicate 8 0#8) (fun i => Memory.read i.bytes 6 4 ++ List.replicate 4 0#8))
  | 4 => some [BitVec.ofNat 8 s.aon.svn]
  | 5 => some (leBytes 4 (s.secReg R.secLc).get!.toNat)
  | 6 => some (Config.digest (s.aon.setVals.flatMap (fun p => leBytes 4 p.1 ++ leBytes 4 p.2.toNat)))
  | 7 => some (Config.digest (s.aon.ownerKey.getD (List.replicate 48 0#8)))
  | _ => none

/-- GET_MEASUREMENTS (R502): one block, or all of them for index 0xFF; the count for index 0. -/
def execGetMeasurements (idx : BitVec 8) (e : List Byte) (s : State) : Out :=
  .next (s.answer (if s.aon.spdm < 3 then [0x7F#8]
    else if idx = 0#8 then [0x60#8, 7#8]
    else if idx = 0xFF#8 then 0x60#8 :: ((upFrom 1 7).flatMap (fun i => (measurement s i).getD []) ++ Config.signature e)
    else match measurement s idx.toNat with
      | none => [0x7F#8]
      | some m => 0x60#8 :: (m ++ Config.signature e)))

/-- I3C_DYNAMIC_ADDRESS_ASSIGN (R488): the device stops answering as an SMBus target. -/
def execI3cDynamicAddressAssign (a : BitVec 7) (s : State) : Out :=
  .next (if s.aon.standby then s.onAon (fun x => { x with i3c := some a.toNat }) else s)

/-- MCTP_SET_ENDPOINT_ID (R488). -/
def execMctpSetEndpointId (id : BitVec 8) (s : State) : Out :=
  .next (if s.aon.standby then (s.onAon (fun a => { a with eid := id.toNat })).replying [0#8, id] else s)

/-- TAHR_LOG_POLL (R492): every entry of the rings that the Tahr subsystem has not read is copied. -/
def execTahrLogPoll (s : State) : Out :=
  .next (if !s.aon.mainGood || s.aon.running.isNone then s
    else (List.range 3).foldl (fun s b =>
      let n := Tab.getD s.dev.flt.unTahr b 0
      let t := s.dev.fld (R.fltRingTahr b) F.fltRingTahr_tahr
      let s := (List.range n).foldl (fun s i => match Tab.find s.dev.flt.ring (b * 256 + (t + i) % 256) with
        | some e => s.logPut e
        | none => s) s
      s.onDev (fun d => ({ d with flt := { d.flt with unTahr := Tab.put d.flt.unTahr b 0 } }).setFld (R.fltRingTahr b) F.fltRingTahr_tahr (t + n))) s)

/-- TAHR_LOG_COMMIT (R492): entries taken reach the management flash. -/
def execTahrLogCommit (s : State) : Out := .next (s.onAon (fun a => { a with uncommitted := 0 }))

end Sys2Proof.Machine
end

