-- ==== Sys2Proof/Machine/Host.lean ====
section
/-! DEFINITION. The host interface (chapter 16): ports, the start of commands (R440), completions, aborts, controller resets,
power states. The opcodes, field places and status values of the standards that R424 names are taken from them (log 44). -/
namespace Sys2Proof.Machine

/-- Ports of a port mode (Table 16-1). -/
def portCount (mode : Nat) : Nat := [1, 2, 4].getD mode 1
/-- Lanes of a port in a mode. -/
def portLanes (mode : Nat) : Nat := [16, 8, 4].getD mode 16
/-- Ports whose lanes a connector carries (Table 16-1): 0 connector A, 1 connector B. -/
def connPorts (mode conn : Nat) : List Nat :=
  match mode with
  | 1 => [conn]
  | 2 => [2 * conn, 2 * conn + 1]
  | _ => [0]
/-- Ports that a connector's PERST# acts on: in mode 0 connector B's is ignored (R529). -/
def perstPorts (mode conn : Nat) : List Nat := if mode ≠ 1 && mode ≠ 2 && conn = 1 then [] else connPorts mode conn

namespace Dev

/-- The port mode in force. -/
def portMode (d : Dev) : Nat := d.fld R.hostPortcfg F.hostPortcfg_mode
/-- The mode uses a port (R421). -/
def portUsed (d : Dev) (p : Nat) : Bool := p < portCount d.portMode
/-- A connector. -/
def conn (d : Dev) (c : Nat) : Port := Tab.getD d.host.ports c Port.reset
/-- The connectors that carry a port's lanes. -/
def connsOf (d : Dev) (p : Nat) : List Nat := [0, 1].filter (fun c => (connPorts d.portMode c).contains p)
/-- A port's link is up. -/
def portUp (d : Dev) (p : Nat) : Bool := d.portUsed p && d.flag (R.hostLink p) F.hostLink_up
/-- A controller can fetch a command: link up, D0, enabled and ready, not stopped (R477, R533). -/
def ctrlLive (d : Dev) (p : Nat) : Bool := d.portUp p && (d.ctrl p).en && (d.ctrl p).rdy && !(d.ctrl p).cfs && !(d.ctrl p).d3
/-- The submission queue of a command exists. -/
def sqLive (d : Dev) (p : Nat) (q : NvmeCmd) (admin : Bool) : Bool :=
  if admin then q.sq == 0 else q.sq != 0 && (Tab.find (d.ctrl p).sqs q.sq).isSome

/-! ## Start and completion (R440, R435) -/

/-- ORDERED: bit 15 of CDW13 of an I/O command (R440). -/
def isOrdered (q : NvmeCmd) : Bool := q.sq != 0 && q.d13.getLsbD 15
/-- Commands of a queue before a command, of those outstanding. -/
def before (l : List Outst) (q : NvmeCmd) : List Outst :=
  (l.takeWhile (fun o => !(o.cmd.sq == q.sq && o.cmd.cid == q.cid))).filter (fun o => o.cmd.sq == q.sq)
/-- A command starts, or is held (R440): one held is counted once and starts when it is given again with nothing before it
that holds it; admin commands run one at a time. -/
def begin (d : Dev) (p : Nat) (q : NvmeCmd) (k : OutCmd) : Bool × Dev :=
  let l := (d.ctrl p).outst
  let b := before l q
  let ord := isOrdered q
  let held := if q.sq = 0 || ord then !b.isEmpty else b.any (·.ordered)
  match l.find? (fun o => o.cmd.sq == q.sq && o.cmd.cid == q.cid) with
  | some o =>
    if o.started || held then (false, d)
    else (true, d.modCtrl p (fun c => { c with outst := c.outst.map (fun o => if o.cmd.sq = q.sq && o.cmd.cid = q.cid then { o with started := true } else o) }))
  | none =>
    let d := d.modCtrl p (fun c => { c with outst := c.outst ++ [⟨q, k, ord, !held, none, none, 0, 0⟩] })
    (!held, if held && q.sq ≠ 0 then d.count (R.hostOrdCnt p) (R.hostEvt p) F.hostEvt_ordOvf else d)
/-- Completes a standard command. -/
def done (d : Dev) (p : Nat) (q : NvmeCmd) (sct sc : Nat) (data : List Byte) : Dev := d.nvmeDone p q.sq q.cid sct sc 0#32 0#32 data
/-- Success. -/
def good (d : Dev) (p : Nat) (q : NvmeCmd) : Dev := d.done p q 0 0 []
/-- Invalid Field in Command. -/
def badField (d : Dev) (p : Nat) (q : NvmeCmd) : Dev := d.done p q 0 2 []
/-- Completes a computational or vendor command with a device status and flags (R435). -/
def ended (d : Dev) (p : Nat) (q : NvmeCmd) (st flags : Nat) (dw1 : W32) (data : List Byte) : Dev := d.nvmeStatus p q.sq q.cid st flags 0 dw1 data
/-- Ends a command with PARTITION_DENIED (R431). -/
def denied (d : Dev) (p : Nat) (q : NvmeCmd) : Dev :=
  ((d.count (R.hostDenyCnt p) (R.hostEvt p) F.hostEvt_denyOvf).setFld (R.hostEvt p) F.hostEvt_denied 1).ended p q 0x70 0 0#32 []
/-- A port may act for a partition (R431). -/
def portMay (d : Dev) (p part : Nat) : Bool := (d.fld (R.hostRights p) F.hostRights_parts).testBit part
/-- A port has the ADMIN right. -/
def portAdmin (d : Dev) (p : Nat) : Bool := d.flag (R.hostRights p) F.hostRights_admin
/-- Counts clamps of vendor command fields (R436). -/
def hostClamp (d : Dev) (p n : Nat) : Dev := d.countN (R.hostClampCnt p) (R.hostEvt p) F.hostEvt_clampOvf n

/-! ## Asynchronous events (R426, R433, R440) -/

/-- Completes the oldest Asynchronous Event Request with the oldest event, while there are both. -/
def aerFlow : Nat → Dev → Nat → Dev
  | 0, d, _ => d
  | n + 1, d, p =>
    let c := d.ctrl p
    match c.aers, c.events with
    | i :: r, e :: es => aerFlow n ((d.modCtrl p (fun c => { c with aers := r, events := es })).postCpl p ⟨0, i, 0, 0, e, 0#32, []⟩) p
    | _, _ => d
/-- An event of a type, information and log page, for a controller whose features ask for it; a type stays masked from its event
to the reading of its log page. -/
def asyncEvent (d : Dev) (p typ info page mask : Nat) : Dev :=
  let c := d.ctrl p
  if !c.en || !(Tab.getD c.feats 0x0B 0#32).getLsbD mask || c.masked.contains typ then d
  else aerFlow 16 (d.modCtrl p (fun c => { c with events := c.events ++ [BitVec.ofNat 32 (typ + info * 256 + page * 65536)], masked := typ :: c.masked })) p

/-! ## Power states (R446 to R450) -/

/-- The device may enter PS4 (R450). -/
def mayPs4 (d : Dev) : Bool := !d.assigned && (List.range 36).all (fun h => d.linkSt h != 3)
/-- Entry to PS4: every resident context is pre-empted, scratch is wiped. -/
def enterPs4 (d : Dev) : Dev :=
  let d := (List.range 64).foldl (fun d k => (d.core k).resident.foldl (fun d c => d.preempt c) d) d
  { d with mem := d.mem.filter (fun c => 2 ^ 49 ≤ c.1) }
/-- Sets a controller's power state. -/
def setPs (d : Dev) (p ps : Nat) : Dev :=
  let was := d.devPs
  let d := (d.modCtrl p (fun c => { c with ps := ps, lastOp := if ps < 3 then ps else c.lastOp })).setFld (R.hostLink p) F.hostLink_ps ps
  if was < 4 && d.devPs = 4 then d.enterPs4 else d

/-! ## Aborts (R444) and resets (R445) -/

/-- Takes the part of a write that is not admitted off the queue of waiting writes. -/
def dropWrites (d : Dev) (f : Asker → Bool) : Dev := d.setFtl (fun t => { t with waits := t.waits.filter (fun w => !f w.who) })
/-- Cancels the jobs of an asker (R332). -/
def cancelFor (d : Dev) (f : Asker → Bool) : Dev :=
  { d with search := { d.search with jobs := d.search.jobs.map (fun j => if f j.2.who then (j.1, { j.2 with cancelled := true }) else j) } }
/-- A waiting append or delete of an aborted command is not made. -/
def dropChanges (d : Dev) (f : Asker → Bool) : Dev :=
  { d with search := { d.search with colls := d.search.colls.map (fun c => (c.1, { c.2 with pend := c.2.pend.filter (fun q => !f q.who) })) } }
/-- The asker of a command. -/
def askerOf (p : Nat) (q : NvmeCmd) : Asker := .nvme p q.sq q.cid
/-- The result that an aborted search leaves: SEARCH_CANCELLED in the headers not yet written. -/
def abortResults (d : Dev) (p : Nat) (q : NvmeCmd) : List Byte :=
  match d.search.jobs.find? (fun j => j.2.who == askerOf p q && !j.2.cancelled) with
  | some j => fitted j.2 (jobResults j.2 0x42)
  | none => []
/-- Takes an aborted Execute Program that is still in a launch queue off it. -/
def unlaunch (d : Dev) (p : Nat) (q : NvmeCmd) : Dev :=
  (List.range 16).foldl (fun d n =>
    let l := Tab.getD d.launchQ n []
    match l.find? (fun r => r.host == some (p, q.sq, q.cid)) with
    | none => d
    | some r => ({ d with launchQ := Tab.store d.launchQ n (l.filter (· ≠ r)) [] } : Dev).launchFail r n 0x14) d
/-- Aborts an outstanding command, by Abort (1) or by the deletion of its queue (2): its one completion says so. -/
def abortOne (d : Dev) (p : Nat) (o : Outst) (how : Nat) : Dev :=
  let q := o.cmd
  let me := fun (a : Asker) => a == askerOf p q
  let d := d.modCtrl p (fun c => { c with outst := c.outst.map (fun t => if t.cmd.sq = q.sq && t.cmd.cid = q.cid then { t with flags := how } else t) })
  if !o.started then d.good p q else
  match o.kind with
  | .write => (d.dropWrites me).good p q
  | .search => let l := d.abortResults p q; (d.cancelFor me).done p q 0 0 l
  | .execute =>
    match o.ctx with
    | some c => d.endRequest c
    | none => d.unlaunch p q
  | _ => (d.dropChanges me).good p q
/-- A controller reset (R445): outstanding commands are abandoned, queues are gone, saved features return, APST is off. -/
def ctrlReset (d : Dev) (p : Nat) : Dev :=
  let mine := fun (a : Asker) => match a with | .nvme n _ _ => n == p | _ => false
  let d := (d.dropWrites mine).cancelFor mine
  let c := d.ctrl p
  let ps := (Tab.getD c.saved 2 0#32).toNat % 32
  let d := d.modCtrl p (fun c => { Ctrl.reset with saved := c.saved, feats := Tab.del c.saved 0x0C, cpls := c.cpls, errCnt := c.errCnt, errLog := c.errLog, mediaErrs := c.mediaErrs, changed := c.changed, cfg := c.cfg, tsBase := c.tsBase, idleAt := d.now, cfs := d.devFatal })
  d.setPs p (if ps ≤ 3 then ps else 0)
/-- A port's link goes down (R452). -/
def portDown (d : Dev) (p : Nat) : Dev :=
  let was := d.flag (R.hostLink p) F.hostLink_up
  let d := d.setFlds (R.hostLink p) [(F.hostLink_speed, 0), (F.hostLink_width, 0), (F.hostLink_flit, 0), (F.hostLink_up, 0)]
  if was then d.setFld (R.hostEvt p) F.hostEvt_linkdown 1 else d

end Dev

/-- A controller is idle (R448). -/
def Dev.ctrlIdle (d : Dev) (p : Nat) : Bool := (d.ctrl p).outst.isEmpty
/-- The device is idle for the timers of autonomous transitions (R448). -/
def Dev.apstIdle (d : Dev) : Bool :=
  (List.range 4).all (fun p => !d.portUsed p || d.ctrlIdle p) && !d.ctxs.any (fun c => Dev.runnable c.2) && d.search.jobs.isEmpty &&
    !d.tier.objs.any (fun o => o.2.move.isSome) && !d.search.colls.any (fun c => c.2.compact.isSome)
/-- A nanosecond in which the device is not idle does not count for the timers of autonomous transitions (R448): it moves the
time from which they count. -/
def Dev.idlePause (d : Dev) : Dev :=
  if d.apstIdle then d else ((List.range 4).filter d.portUsed).foldl (fun d p => d.modCtrl p (fun c => { c with idleAt := c.idleAt + 1 })) d

/-- A command that a controller takes: nothing happens where it cannot be fetched; one that is held does not run yet. An I/O
command wakes a controller in a non-operational state (R447). -/
def State.nvme (s : State) (p : Nat) (q : NvmeCmd) (admin : Bool) (k : OutCmd) (f : State → State) : State :=
  if !s.dev.ctrlLive p || !s.dev.sqLive p q admin then s else
  let s := if !admin && 3 ≤ (s.dev.ctrl p).ps then (s.onDev (fun d => d.setPs p (d.ctrl p).lastOp)).updateCap else s
  match s.dev.begin p q k with
  | (false, d) => { s with dev := d }
  | (true, d) => f { s with dev := d }
/-- An admin command whose effect lies on the main rails. -/
def State.adminDev (s : State) (p : Nat) (q : NvmeCmd) (f : Dev → Dev) : State := s.nvme p q true .other (fun s => s.onDev f)
/-- An I/O command whose effect lies on the main rails. -/
def State.ioDev (s : State) (p : Nat) (q : NvmeCmd) (k : OutCmd) (f : Dev → Dev) : State := s.nvme p q false k (fun s => s.onDev f)

end Sys2Proof.Machine
end

