-- ==== Sys2Proof/Machine/HostAdmin.lean ====
section
/-! DEFINITION. Admin commands of the base specification (R426 to R434): data structures, log pages, features, queues,
namespaces, format and erase, updates, Opal. Places of fields and opcodes are the standards' (log 44). -/
namespace Sys2Proof.Machine

/-- A data structure of n bytes with some fields set, the others 0. -/
def structOf (n : Nat) (l : List (Nat × List Byte)) : List Byte := Memory.read (l.foldl (fun m p => Memory.write m p.1 p.2) []) 0 n
/-- ASCII padded with spaces. -/
def ascii (n : Nat) (t : String) : List Byte := (t.toList.map (fun c => BitVec.ofNat 8 c.toNat) ++ List.replicate n 0x20#8).take n
/-- Sixteen upper-case hexadecimal digits. -/
def hex16 (v : Nat) : List Byte := (List.range 16).map (fun i =>
  let x := v / 16 ^ (15 - i) % 16
  BitVec.ofNat 8 (if x < 10 then 48 + x else 55 + x))
namespace Dev

/-- Free bytes (log 5). -/
def freeBytes (n : Nat) (d : Dev) : List Byte × Dev :=
  let (l, d) := freeWords (ceilDiv n 8) d
  ((l.flatMap (fun w => leBytes 8 w.toNat)).take n, d)

/-! ## Namespaces (R429) -/

/-- A namespace. -/
def ns? (d : Dev) (i : Nat) : Option Ns := Tab.find d.host.nss i
/-- The logical blocks of a range of LBAs, in order. -/
def lbas (n : Ns) (lo cnt : Nat) : List Nat :=
  (n.extents.foldl (fun (a : Nat × List Nat) e =>
    let x := max a.1 lo
    let y := min (a.1 + e.2) (lo + cnt)
    (a.1 + e.2, a.2 ++ upFrom (e.1 + (x - a.1)) (y - x))) (0, [])).2
/-- Blocks that no namespace and no tier 3 object holds, as gaps. -/
def blkGaps (d : Dev) : List (Nat × Nat) :=
  let used := (d.usedRanges 3).map (fun r => (r.1 / 4096, ceilDiv (r.1 % 4096 + r.2) 4096))
  let ends := 0 :: used.map (fun r => r.1 + r.2)
  let starts := ends.filter (fun e => e < userBlocks && used.all (fun r => !(r.1 ≤ e && e < r.1 + r.2)))
  starts.eraseDups.map (fun e => (e, (used.foldl (fun m r => if e ≤ r.1 then min m r.1 else m) userBlocks) - e))
/-- Takes n blocks from gaps. -/
def takeBlks : Nat → List (Nat × Nat) → List (Nat × Nat)
  | _, [] => []
  | 0, _ => []
  | n, (b, l) :: r => if n ≤ l then [(b, n)] else (b, l) :: takeBlks (n - l) r
/-- Extents for a namespace of n blocks: which blocks is not architected, so which gap comes first is free. -/
def nsExtents (d : Dev) (n : Nat) : Option (List (Nat × Nat) × Dev) :=
  let g := d.blkGaps
  if (g.map (·.2)).foldl (· + ·) 0 < n then none else
  let (i, d) := d.choose (max 1 g.length)
  some (takeBlks n (g.drop i ++ g.take i), d)
/-- Deallocates the mapped blocks of extents. -/
def trimAll (d : Dev) (l : List (Nat × Nat)) : Dev :=
  ((Tab.keys d.ftl.flash ++ Tab.keys d.ftl.slots).eraseDups.filter (fun b => l.any (fun e => e.1 ≤ b && b < e.1 + e.2))).foldl (fun d b => d.trimBlk b) d
/-- A namespace has changed, for the controllers it is or was attached to (Namespace Attribute Notices). -/
def nsNotice (d : Dev) (by' : Option Nat) (nsid : Nat) (ps : List Nat) : Dev :=
  (ps.filter (fun p => some p != by')).foldl (fun d p =>
    (d.modCtrl p (fun c => { c with changed := if c.changed.contains nsid then c.changed else c.changed ++ [nsid] })).asyncEvent p 2 0 4 8) d
/-- Namespace Management (R429). -/
def nsManage (d : Dev) (p : Nat) (q : NvmeCmd) : Dev :=
  let h := fun (o n : Nat) => leVal ((q.data.drop o).take n)
  match q.d10.toNat % 16 with
  | 0 =>
    let size := h 0 8
    let lbaf := h 26 1 % 16
    if size = 0 || size % 16 ≠ 0 || h 8 8 ≠ size || 1 < lbaf || h 29 1 ≠ 0 then d.badField p q
    else
      let id := Tab.firstFree d.host.nss 128 1
      if 128 < id then d.done p q 1 0x16 []
      else match d.nsExtents size with
        | none => d.done p q 1 0x15 []
        | some (ex, d) =>
          ({ d with host := { d.host with nss := Tab.put d.host.nss id ⟨size, lbaf, ex, []⟩ } } : Dev).nvmeDone p q.sq q.cid 0 0 (BitVec.ofNat 32 id) 0#32 []
  | 1 =>
    let ids := if q.nsid = 0xFFFFFFFF then Tab.keys d.host.nss else [q.nsid]
    if q.nsid ≠ 0xFFFFFFFF && (d.ns? q.nsid).isNone then d.done p q 0 0x0B []
    else (ids.foldl (fun d i => match d.ns? i with
      | none => d
      | some n => (({ (d.trimAll n.extents) with host := { (d.trimAll n.extents).host with nss := Tab.del d.host.nss i } } : Dev).nsNotice (some p) i n.attached)) d).good p q
  | _ => d.badField p q
/-- Namespace Attachment (R429): to or from the controllers of a list. -/
def nsAttach (d : Dev) (p : Nat) (q : NvmeCmd) : Dev :=
  let h := fun (o : Nat) => leVal ((q.data.drop o).take 2)
  let ids := (List.range (min 2047 (h 0))).map (fun i => h (2 + 2 * i))
  let op := q.d10.toNat % 16
  match d.ns? q.nsid with
  | none => d.done p q 0 0x0B []
  | some n =>
    if 1 < op then d.badField p q
    else if ids.isEmpty || ids.any (fun i => !d.portUsed i) then d.done p q 1 0x1C []
    else if op = 0 && ids.any (fun i => n.attached.contains i) then d.done p q 1 0x18 []
    else if op = 1 && ids.any (fun i => !n.attached.contains i) then d.done p q 1 0x1A []
    else
      let at' := if op = 0 then n.attached ++ ids else n.attached.filter (fun i => !ids.contains i)
      (({ d with host := { d.host with nss := Tab.put d.host.nss q.nsid { n with attached := at' } } } : Dev).nsNotice (some p) q.nsid ids).good p q

/-! ## Queues (R428) -/

/-- CAP.MQES (R425, Table 16-3), 0's based. -/
def capMqes : Nat := 0x0FFF
/-- Create I/O Completion Queue. -/
def cqCreate (d : Dev) (p : Nat) (q : NvmeCmd) : Dev :=
  let id := q.d10.toNat % 65536
  let n := q.d10.toNat / 65536
  if id = 0 || 256 < id || (Tab.find (d.ctrl p).cqs id).isSome then d.done p q 1 1 []
  else if n = 0 || capMqes < n then d.done p q 1 2 []
  else if !q.d11.getLsbD 0 then d.badField p q
  else if 257 ≤ q.d11.toNat / 65536 then d.done p q 1 8 []
  else (d.modCtrl p (fun c => { c with cqs := Tab.put c.cqs id ⟨n + 1, 0, 0⟩ })).good p q
/-- Create I/O Submission Queue. -/
def sqCreate (d : Dev) (p : Nat) (q : NvmeCmd) : Dev :=
  let id := q.d10.toNat % 65536
  let n := q.d10.toNat / 65536
  let cq := q.d11.toNat / 65536
  if (Tab.find (d.ctrl p).cqs cq).isNone then d.done p q 1 0 []
  else if id = 0 || 256 < id || (Tab.find (d.ctrl p).sqs id).isSome then d.done p q 1 1 []
  else if n = 0 || capMqes < n then d.done p q 1 2 []
  else if !q.d11.getLsbD 0 then d.badField p q
  else (d.modCtrl p (fun c => { c with sqs := Tab.put c.sqs id ⟨n + 1, cq, q.d11.toNat / 2 % 4⟩ })).good p q
/-- Delete I/O Submission Queue (R444): its commands are aborted. -/
def sqDelete (d : Dev) (p : Nat) (q : NvmeCmd) : Dev :=
  let id := q.d10.toNat % 65536
  if (Tab.find (d.ctrl p).sqs id).isNone then d.done p q 1 1 []
  else
    let d := ((d.ctrl p).outst.filter (fun o => o.cmd.sq == id)).foldl (fun d o => d.abortOne p o 2) d
    (d.modCtrl p (fun c => { c with sqs := Tab.del c.sqs id })).good p q
/-- Delete I/O Completion Queue. -/
def cqDelete (d : Dev) (p : Nat) (q : NvmeCmd) : Dev :=
  let id := q.d10.toNat % 65536
  if (Tab.find (d.ctrl p).cqs id).isNone then d.done p q 1 1 []
  else if (d.ctrl p).sqs.any (fun x => x.2.cq == id) then d.done p q 1 0x0C []
  else (d.modCtrl p (fun c => { c with cqs := Tab.del c.cqs id })).good p q
/-- Abort (R444): runs at once; an outstanding Asynchronous Event Request is a target too. -/
def abortCmd (d : Dev) (p : Nat) (q : NvmeCmd) : Dev :=
  let sq := q.d10.toNat % 65536
  let cid := q.d10.toNat / 65536
  let fin := fun (d : Dev) (n : Nat) => d.postCpl p ⟨0, q.cid, 0, 0, BitVec.ofNat 32 n, 0#32, []⟩
  let hit := fun (d : Dev) => (d.count (R.hostAbortCnt p) (R.hostEvt p) F.hostEvt_abortOvf).setFld (R.hostEvt p) F.hostEvt_aborted 1
  match (d.ctrl p).outst.find? (fun o => o.cmd.sq == sq && o.cmd.cid == cid && o.flags == 0) with
  | some o => fin (hit (d.abortOne p o 1)) 0
  | none =>
    if sq = 0 && (d.ctrl p).aers.contains cid then
      fin (hit ((d.modCtrl p (fun c => { c with aers := c.aers.filter (· ≠ cid) })).postCpl p ⟨0, cid, 0, 7, 0#32, 0#32, []⟩)) 0
    else fin d 1
/-- Asynchronous Event Request (R440): up to 16 stay outstanding. -/
def aerCmd (d : Dev) (p : Nat) (q : NvmeCmd) : Dev :=
  if 16 ≤ (d.ctrl p).aers.length then d.postCpl p ⟨0, q.cid, 1, 5, 0#32, 0#32, []⟩
  else aerFlow 16 (d.modCtrl p (fun c => { c with aers := c.aers ++ [q.cid] })) p

/-! ## Features (R433) -/

/-- The key under which a feature's value is kept: thresholds by sensor and type, vectors by number. -/
def featKey (fid : Nat) (d11 : W32) : Nat :=
  if fid = 4 then 4 + 256 * (d11.toNat / 65536 % 64) else if fid = 9 then 9 + 256 * (d11.toNat % 65536) else fid
/-- Default values: 358 K as the composite over-temperature threshold, 256 queues of each kind; the others 0. -/
def featDefault (key : Nat) : W32 :=
  if key = 4 then 358#32 else if key = 4 + 256 * 16 then 0#32 else if key % 256 = 4 ∧ key / 256 < 16 then 0xFFFF#32
  else if key = 7 then 0x00FF00FF#32 else if key % 256 = 9 then BitVec.ofNat 32 (key / 256) else 0#32
/-- The features supported. -/
def featKnown (fid : Nat) : Bool := [1, 2, 4, 5, 7, 8, 9, 0x0B, 0x0C, 0x0E].contains fid
/-- Get Features: current, default or saved value, or the capabilities. -/
def getFeature (d : Dev) (p : Nat) (q : NvmeCmd) : Dev :=
  let fid := q.d10.toNat % 256
  let sel := q.d10.toNat / 256 % 8
  let key := featKey fid q.d11
  let c := d.ctrl p
  if !featKnown fid || 3 < sel then d.badField p q else
  let cur := if fid = 2 then BitVec.ofNat 32 c.ps else Tab.getD c.feats key (featDefault key)
  let v := if sel = 3 then 5#32 else if sel = 1 then featDefault key else if sel = 2 then Tab.getD c.saved key (featDefault key) else cur
  let data := if sel ≠ 0 then [] else if fid = 0x0C then (List.range 32).flatMap (fun i => leBytes 8 (c.apstTab.getD i 0#64).toNat)
    else if fid = 0x0E then leBytes 6 (c.tsBase + (d.now / 1000000 : Nat)).toNat ++ [0#8, 0#8] else []
  d.nvmeDone p q.sq q.cid 0 0 v 0#32 data
/-- Set Features but the power state: the value, and with SV the saved one. -/
def setFeature (d : Dev) (p : Nat) (q : NvmeCmd) : Dev :=
  let fid := q.d10.toNat % 256
  let key := featKey fid q.d11
  let v := if fid = 7 then 0x00FF00FF#32 else q.d11
  if !featKnown fid || (fid = 7 && (q.d11.toNat % 65536 = 65535 || q.d11.toNat / 65536 = 65535)) || (fid = 9 && 257 ≤ q.d11.toNat % 65536) then d.badField p q
  else
    let ap := wordsOf 32 (q.data ++ List.replicate 256 0#8)
    let ts : Int := (leVal (q.data.take 6) : Int) - (d.now / 1000000 : Nat)
    let d := d.modCtrl p (fun c => { c with feats := Tab.put c.feats key v, saved := if q.d10.getLsbD 31 then Tab.put c.saved key v else c.saved, apstTab := if fid = 0x0C then ap else c.apstTab, tsBase := if fid = 0x0E then ts else c.tsBase })
    d.nvmeDone p q.sq q.cid 0 0 (if fid = 7 then v else 0#32) 0#32 []

end Dev

namespace State

/-- Set Features (R433, R450): a power state is entered where it may be. -/
def setFeatures (s : State) (p : Nat) (q : NvmeCmd) : State :=
  if q.d10.toNat % 256 ≠ 2 then s.onDev (fun d => d.setFeature p q) else
  let ps := q.d11.toNat % 32
  if 4 < ps || (ps = 4 && !s.dev.mayPs4) then s.onDev (fun d => d.badField p q)
  else
    (s.onDev (fun d => ((d.setPs p ps).modCtrl p (fun c => { c with saved := if q.d10.getLsbD 31 then Tab.put c.saved 2 q.d11 else c.saved })).good p q)).updateCap

/-! ## Log pages (R433, R434, R472) -/

/-- The SMART log (R434): what no rule gives a value is free. -/
def smartPage (s : State) (p : Nat) (d : Dev) : List Byte × Dev :=
  let (fr, d) := d.freeBytes 128
  let e := s.dev.ftlReg R.ftlErase
  let avg := (e.getD 0#32).toNat / 65536
  (structOf 512 [(0, [BitVec.ofNat 8 s.dev.critWarn]), (1, leBytes 2 s.dev.compositeK), (3, [BitVec.ofNat 8 (min 100 s.dev.availSpare), 10#8, BitVec.ofNat 8 (min 255 (100 * avg / 3000))]),
    (32, fr), (160, leBytes 8 (s.dev.ctrl p).mediaErrs), (176, leBytes 8 (s.dev.ctrl p).errCnt)], d)
/-- The admin opcodes of Tables 16-6 and 16-8. -/
def admOpcodes : List Nat := [0, 1, 2, 4, 5, 6, 8, 9, 0x0A, 0x0C, 0x0D, 0x10, 0x11, 0x15, 0x1D, 0x1E, 0x80, 0x81, 0x82, 0x84, 0xC1, 0xC2, 0xC4, 0xC6, 0xC7, 0xCB, 0xCD, 0xCE, 0xD0, 0xD2]
/-- The I/O opcodes of a command set: 0 NVM with the vendor commands, 3 Subsystem Local Memory, else Computational Programs (log 44). -/
def ioOpcodes (csi : Nat) : List Nat :=
  if csi = 0 then [0, 1, 2, 4, 5, 8, 9, 0x0C, 0x83, 0x85, 0x87, 0x89] else if csi = 3 then [1, 2, 0x19] else [1, 5, 8, 0x21]
/-- Commands Supported and Effects: CSUPP of each opcode of Tables 16-6 and 16-8, by command set. -/
def effectsPage (csi : Nat) : List Byte :=
  structOf 4096 (admOpcodes.map (fun o => (4 * o, [1#8])) ++ (ioOpcodes csi).map (fun o => (1024 + 4 * o, [1#8])))
/-- Get Log Page (R433). -/
def getLog (s : State) (p : Nat) (q : NvmeCmd) : State :=
  let lid := q.d10.toNat % 256
  let n := 4 * (q.d10.toNat / 65536 + 65536 * (q.d11.toNat % 65536) + 1)
  let off := q.d12.toNat + 2 ^ 32 * q.d13.toNat
  let clear := fun (t : Nat) (s : State) => if q.d10.getLsbD 15 then s else s.onDev (fun d => d.modCtrl p (fun c => { c with masked := c.masked.filter (· ≠ t) }))
  let give := fun (s : State) (l : List Byte) =>
    s.onDev (fun d => if l.length < off then d.badField p q else d.done p q 0 0 ((l.drop off).take n))
  match lid with
  | 0x01 => clear 0 (give s (((s.dev.ctrl p).errLog.flatten ++ List.replicate 4096 0#8).take 4096))
  | 0x02 => let (l, d) := smartPage s p s.dev; clear 1 (give { s with dev := d } l)
  | 0x03 => give s (structOf 512 [(0, [BitVec.ofNat 8 (s.aon.active + 16 * s.aon.pendAct.getD 0)]), (8, fwRev s.aon.img1), (16, fwRev s.aon.img2)])
  | 0x04 =>
    let l := (s.dev.ctrl p).changed
    let s := clear 2 (give s ((l.flatMap (fun i => leBytes 4 i) ++ List.replicate 4096 0#8).take 4096))
    if q.d10.getLsbD 15 then s else s.onDev (fun d => d.modCtrl p (fun c => { c with changed := [] }))
  | 0x05 => give s (effectsPage (q.d14.toNat / 2 ^ 24))
  | 0x0D => let (l, d) := s.dev.freeBytes n; ({ s with dev := d } : State).onDev (fun d => d.done p q 0 0 l)
  | 0xC0 => s.onDev (fun d => d.done p q 0 0 (s.logBytes off (min n (32 + 32 * s.aon.log.length - off))))
  | _ => s.onDev (fun d => d.done p q 1 9 [])

/-! ## Identify (R426, R429) -/

/-- Identify Controller (Table 16-4). -/
def idController (s : State) (p : Nat) : List Byte :=
  structOf 4096 [(0, leBytes 2 0x1F5C), (2, leBytes 2 0x1F5C), (4, hex16 Config.serial.toNat ++ List.replicate 4 0x20#8), (24, ascii 40 "Peduran Jexvia JV-320"),
    (64, fwRev (s.aon.running.bind s.aon.img)), (72, [6#8]), (76, [if s.dev.portMode = 0 then 0#8 else 3#8, 0#8]), (78, leBytes 2 p), (80, leBytes 4 0x20000),
    (84, leBytes 4 45000000), (88, leBytes 4 60000), (92, leBytes 4 0x300), (111, [1#8]), (256, leBytes 2 0x4F), (258, [7#8, 15#8]), (262, [63#8, 4#8]),
    (265, [1#8]), (266, leBytes 2 358), (268, leBytes 2 378), (280, leBytes 8 320000000000000), (328, leBytes 4 1), (512, [0x66#8, 0x44#8]), (514, leBytes 2 4096),
    (516, leBytes 4 144), (520, leBytes 2 0xDF), (524, [4#8]), (536, leBytes 4 1),
    (768, (("nqn.2021-04.com.peduran:jexvia:jv320:").toList.map (fun c => BitVec.ofNat 8 c.toNat)) ++ hex16 Config.serial.toNat),
    (2048, leBytes 2 45000 ++ [0#8, 0#8] ++ leBytes 4 100 ++ leBytes 4 100), (2080, leBytes 2 35000 ++ [0#8, 0#8] ++ leBytes 4 100 ++ leBytes 4 100),
    (2112, leBytes 2 25000 ++ [0#8, 0#8] ++ leBytes 4 100 ++ leBytes 4 100), (2144, leBytes 2 6000 ++ [0#8, 2#8] ++ leBytes 4 5000 ++ leBytes 4 15000),
    (2176, leBytes 2 1800 ++ [0#8, 2#8] ++ leBytes 4 50000 ++ leBytes 4 400000)]
/-- Identify Namespace of the NVM command set (R429, Table 16-5). -/
def idNamespace (d : Dev) (n : Ns) : List Byte :=
  let used := ((Tab.keys d.ftl.flash ++ Tab.keys d.ftl.slots).eraseDups.filter (fun b => d.mapped b && n.extents.any (fun e => e.1 ≤ b && b < e.1 + e.2))).length
  structOf 4096 [(0, leBytes 8 n.size), (8, leBytes 8 n.size), (16, leBytes 8 used), (25, [1#8, BitVec.ofNat 8 n.lbaf, 3#8]), (30, [1#8]), (33, [9#8]), (64, leBytes 2 15),
    (72, leBytes 2 15), (128, leBytes 4 0x000C0000), (132, leBytes 4 0x010C0040)]
/-- A list of 32-bit identifiers in 4,096 bytes. -/
def idList (l : List Nat) : List Byte := ((l.take 1024).flatMap (fun i => leBytes 4 i) ++ List.replicate 4096 0#8).take 4096
/-- A controller list. -/
def ctlList (l : List Nat) : List Byte := (leBytes 2 l.length ++ l.flatMap (fun i => leBytes 2 i) ++ List.replicate 4096 0#8).take 4096
/-- Identify. The memory namespaces 129 to 144 are attached to every controller. -/
def identify (s : State) (p : Nat) (q : NvmeCmd) : State :=
  let d := s.dev
  let cns := q.d10.toNat % 256
  let csi := q.d11.toNat / 2 ^ 24
  let mine := (d.host.nss.filter (fun n => n.2.attached.contains p)).map (·.1)
  let mems := upFrom 129 16
  let ofSet := fun (l : List Nat) => if csi = 0 then l else if csi = 3 then mems else []
  let zero := List.replicate 4096 0#8
  let known := (d.ns? q.nsid).isSome || mems.contains q.nsid
  let give := fun (l : List Byte) => s.onDev (fun d => d.done p q 0 0 l)
  let noNs := s.onDev (fun d => d.done p q 0 0x0B [])
  match cns with
  | 0x00 | 0x11 => match d.ns? q.nsid with
    | some n => give (if cns = 0 && !n.attached.contains p then zero else idNamespace d n)
    | none => if q.nsid = 0xFFFFFFFF then give (structOf 4096 [(128, leBytes 4 0x000C0000), (132, leBytes 4 0x010C0040)]) else if known then give zero else noNs
  | 0x01 => give (idController s p)
  | 0x02 => give (idList ((mine ++ mems).filter (fun i => q.nsid < i)))
  | 0x03 => if known then give (structOf 4096 [(0, [4#8, 1#8, 0#8, 0#8, if mems.contains q.nsid then 3#8 else 0#8])]) else noNs
  | 0x05 => match d.ns? q.nsid with
    | some n => give (if csi = 0 && n.attached.contains p then structOf 4096 [] else zero)
    | none => if known then give zero else noNs
  | 0x06 => give zero
  | 0x07 | 0x1A => give (idList ((ofSet (if cns = 7 then mine else Tab.keys d.host.nss)).filter (fun i => q.nsid < i)))
  | 0x08 => if known then give zero else noNs
  | 0x10 => give (idList ((Tab.keys d.host.nss ++ mems).filter (fun i => q.nsid < i)))
  | 0x12 => match d.ns? q.nsid with
    | some n => give (ctlList (n.attached.filter (fun i => q.d10.toNat / 65536 ≤ i)))
    | none => noNs
  | 0x13 => give (ctlList ((List.range (portCount d.portMode)).filter (fun i => q.d10.toNat / 65536 ≤ i)))
  | 0x1C => give (structOf 4096 [(0, leBytes 8 0x19)])
  | _ => s.onDev (fun d => d.badField p q)

/-! ## Format and erase (R432, R500) -/

/-- Key slots of a namespace: its global range and its non-global ranges. -/
def nsSlots (s : State) (i : Nat) : List Nat := i :: (s.aon.opal.ranges.filter (fun r => r.2.nsid == i)).map (fun r => 129 + r.1)
/-- Format NVM: the new format, blocks deallocated, with SES 1 or 2 the keys destroyed. -/
def format (s : State) (p : Nat) (q : NvmeCmd) : State :=
  let lbaf := q.d10.toNat % 16
  let ses := q.d10.toNat / 512 % 8
  let ids := if q.nsid = 0xFFFFFFFF then Tab.keys s.dev.host.nss else [q.nsid]
  if ids.any (fun i => (s.dev.ns? i).isNone) then s.onDev (fun d => d.done p q 0 0x0B [])
  else if 1 < lbaf then s.onDev (fun d => d.done p q 1 0x0A [])
  else if 2 < ses || q.d10.toNat / 32 % 8 ≠ 0 then s.onDev (fun d => d.badField p q)
  else
    let s := if ses = 0 then s else s.cryptErase (ids.flatMap s.nsSlots) false
    s.onDev (fun d => (ids.foldl (fun d i => match d.ns? i with
      | none => d
      | some n => let d := d.trimAll n.extents
                  ({ d with host := { d.host with nss := Tab.put d.host.nss i { n with lbaf := lbaf } } } : Dev).nsNotice (some p) i n.attached) d).good p q)
/-- Sanitize: Crypto Erase of key slots 0 to 144 (R500); leaving a failure mode does nothing, as none is ever entered. -/
def sanitize (s : State) (p : Nat) (q : NvmeCmd) : State :=
  match q.d10.toNat % 8 with
  | 1 => s.onDev (fun d => d.good p q)
  | 4 => (s.cryptErase (List.range 145) true).onDev (fun d => d.good p q)
  | _ => s.onDev (fun d => d.badField p q)

/-! ## Updates (R510) -/

/-- Firmware Image Download. -/
def fwDownload (s : State) (p : Nat) (q : NvmeCmd) : State :=
  let n := 4 * (q.d10.toNat + 1)
  if s.aon.update.any (fun u => u.path ≠ .nvme) then s.onDev (fun d => d.done p q 0 0x0C [])
  else match s.aon.piece .nvme (4 * q.d11.toNat) ((q.data ++ List.replicate n 0#8).take n) with
    | none => s.onDev (fun d => d.badField p q)
    | some a => ({ s with aon := a } : State).onDev (fun d => d.good p q)
/-- Firmware Commit. -/
def fwCommit (s : State) (p : Nat) (q : NvmeCmd) : State :=
  let fs := q.d10.toNat % 8
  let ca := q.d10.toNat / 8 % 8
  let slot := if fs = 0 then s.aon.other else fs
  let bad := fun (s : State) (sc : Nat) => s.onDev (fun d => d.done p q 1 sc [])
  if 4 ≤ ca then s.onDev (fun d => d.badField p q)
  else if 2 < fs then bad s 6
  else if ca = 2 then
    (if s.aon.slotValid slot then (s.onAon (fun a => { a with pendAct := some slot })).onDev (fun d => d.good p q) else
      let st := ((s.aon.img slot).bind (imgCheck s.aon)).getD 0x6A
      bad ((if st = 0x68 then s.authFailed 1 else s).secEvent 0x0004 st) 7)
  else if s.aon.update.any (fun u => u.path ≠ .nvme) then s.onDev (fun d => d.done p q 0 0x0C [])
  else if slot ≠ s.aon.other then bad s 6
  else match s.storeImage with
    | (some _, s) => bad s 7
    | (none, s) =>
      let s := if ca = 0 then s else s.onAon (fun a => { a with pendAct := some a.other })
      if ca = 3 then bad s 0x0B else s.onDev (fun d => d.good p q)

/-! ## NVMe-MI in band, and Opal (R424, R501) -/

/-- The state after a command of another chapter. -/
def ofOut (s : State) (o : Out) : State := match o with | .next t => t | _ => s
/-- A management command by its NVMe-MI opcode (R488), its response left for NVMe-MI Receive. -/
def miSend (s : State) (p : Nat) (q : NvmeCmd) : State :=
  let o := q.d11.toNat % 256
  let a := q.d12.toNat
  let b := q.d13.toNat
  let port : Fin 4 := ⟨a / 65536 % 4, by omega⟩
  let t := s.ofOut (match o with
    | 0 => execReadNvmeMiDataStructure (BitVec.ofNat 8 (a / 2 ^ 24)) port s
    | 1 => execNvmSubsystemHealthStatusPoll (b ≥ 2 ^ 31) s
    | 2 => execControllerHealthStatusPoll ⟨a % 4, by omega⟩ s
    | 3 => execConfigurationSet (BitVec.ofNat 8 a) (BitVec.ofNat 8 (a / 2 ^ 24)) q.d13 s
    | 4 => execConfigurationGet (BitVec.ofNat 8 a) (BitVec.ofNat 8 (a / 2 ^ 24)) s
    | 5 => execVpdRead (BitVec.ofNat 16 a) (BitVec.ofNat 16 b) s
    | 6 => execVpdWrite (BitVec.ofNat 16 a) q.data s
    | _ => .next (s.answer [3#8]))
  let r := t.aon.reply
  let t : State := { t with aon := { t.aon with reply := s.aon.reply }, dev := { t.dev with host := { t.dev.host with mi := r } } }
  if o = 7 then (t.onDev (fun d => d.good p q)).ofOut (execNvmeMiReset (t.onDev (fun d => d.good p q))) else t.onDev (fun d => d.good p q)
/-- NVMe-MI Receive. -/
def miReceive (s : State) (p : Nat) (q : NvmeCmd) : State := s.onDev (fun d => d.done p q 0 0 d.host.mi)

/-- An Opal method, as the payload of Security Send spells it (log 20): 1 activate, 2 set a namespace's global range,
3 define a non-global range, 4 set its locks, 5 Revert, 6 PSID Revert. -/
def opalDo (s : State) (l : List Byte) : State :=
  let b := fun (i : Nat) => (l.getD i 0#8).toNat
  let f := fun (i : Nat) => bitsOf (b i) 0 1 = 1
  let nsid := b 1
  let idx := b 2 % 16
  let le := fun (i n : Nat) => leVal ((l.drop i).take n)
  let lk := (decide (f 3), decide (bitsOf (b 3) 1 1 = 1), decide (bitsOf (b 3) 2 1 = 1))
  match b 0 with
  | 1 => s.onAon (fun a => { a with opal := { a.opal with enabled := true } })
  | 2 => if s.aon.opal.enabled then s.onAon (fun a => { a with opal := { a.opal with globals := Tab.put a.opal.globals nsid lk } }) else s
  | 3 => match s.dev.ns? nsid with
    | none => s
    | some n => if !s.aon.opal.enabled || n.size < le 4 8 + le 12 8 then s
      else s.onAon (fun a => { a with opal := { a.opal with ranges := Tab.put a.opal.ranges idx ⟨nsid, le 4 8, le 12 8, lk.1, lk.2.1, lk.2.2⟩ } })
  | 4 => s.onAon (fun a => { a with opal := { a.opal with ranges := Tab.modify a.opal.ranges idx (fun r => { r with rlock := lk.1, wlock := lk.2.1, onReset := lk.2.2 }) } })
  | 5 | 6 => (s.cryptErase (upFrom 1 144) false).onAon (fun a => { a with opal := ⟨false, [], []⟩ })
  | _ => s
/-- Security Send (R501): protocol 1 carries Opal; whether the authority that the method needs has been proved is not modelled,
so a free choice. -/
def secSend (s : State) (p : Nat) (q : NvmeCmd) : State :=
  if q.d10.toNat / 2 ^ 24 ≠ 1 then s.onDev (fun d => d.badField p q)
  else
    let (c, d) := s.dev.choose 2
    let s : State := { s with dev := d }
    let s := if c = 1 then s.opalDo q.data else s
    s.onDev (fun d => ({ d with host := { d.host with sec := [if c = 1 then 0#8 else 1#8] } } : Dev).good p q)
/-- Security Receive (R501): the protocols supported, or the response that waits. -/
def secReceive (s : State) (p : Nat) (q : NvmeCmd) : State :=
  match q.d10.toNat / 2 ^ 24 with
  | 0 => s.onDev (fun d => d.done p q 0 0 ([0#8, 0#8, 0#8, 0#8, 0#8, 0#8, 0#8, 2#8, 0#8, 1#8].take q.d11.toNat))
  | 1 => s.onDev (fun d => ({ d with host := { d.host with sec := [] } } : Dev).done p q 0 0 (d.host.sec.take q.d11.toNat))
  | _ => s.onDev (fun d => d.badField p q)

end State

end Sys2Proof.Machine
end

