-- ==== Sys2Proof/Machine/HostIo.lean ====
section
/-! DEFINITION. I/O commands of the NVM, Computational Programs and Subsystem Local Memory command sets (R402, R430, R432, R435,
R439, R442). -/
namespace Sys2Proof.Machine

namespace Dev

/-- The first LBA and the number of blocks of an NVM command. -/
def slba (q : NvmeCmd) : Nat := q.d10.toNat + 2 ^ 32 * q.d11.toNat
def nlb (q : NvmeCmd) : Nat := q.d12.toNat % 65536 + 1
/-- Bytes of a block on the host's side: with LBAF 1 its 64 bytes of metadata follow its data. -/
def hostBlk (n : Ns) : Nat := if n.lbaf = 1 then 4160 else 4096
/-- The host's bytes of a version. -/
def blkBytes (n : Ns) (v : LVer) : List Byte := v.data.bytes 4096 ++ (if n.lbaf = 1 then v.side.bytes 64 else [])
/-- The device is in read-only retirement, or enters it at this write (R415). -/
def roWrite (d : Dev) (bs : List Nat) : Dev := bs.foldl (fun d b => d.tryRetire b) d
/-- Completes a write whose blocks are all admitted (R402). -/
def writeDone (d : Dev) (p : Nat) (q : NvmeCmd) : Dev := if d.ftl.waits.any (fun w => w.who == askerOf p q) then d else d.good p q
/-- Asks for the admission of each block of a write (R402, R415): in read-only retirement nothing is stored. -/
def admitAll (d : Dev) (p : Nat) (q : NvmeCmd) (l : List AdmWait) : Dev :=
  let d := d.roWrite (l.map (·.blk))
  if d.ftl.retired then d.done p q 0 0x20 [] else (l.foldl (fun d w => d.askAdmit w) d).writeDone p q
/-- Write (R402). -/
def nvmWrite (d : Dev) (p : Nat) (q : NvmeCmd) (n : Ns) (bs : List Nat) : Dev :=
  let z := hostBlk n
  d.admitAll p q ((bs.zipIdx).map (fun b =>
    let l := (q.data.drop (b.2 * z)).take z
    ⟨b.1, Memory.write [] 0 (l.take 4096), [(0, 4096)], some (Cells.of (l.drop 4096)), false, false, askerOf p q⟩))
/-- Samples blocks (R402, R403): their versions, whether one is poisoned. -/
def sampleAll (d : Dev) (bs : List Nat) : List LVer × Dev :=
  bs.foldl (fun (a : List LVer × Dev) b => let r := a.2.sampleBlk b; (a.1 ++ [r.1], r.2)) ([], d)
/-- Ends a read that met an uncorrectable block (R401, R434). -/
def readBad (d : Dev) (p : Nat) (q : NvmeCmd) : Dev := (d.modCtrl p (fun c => { c with mediaErrs := c.mediaErrs + 1 })).done p q 2 0x81 []
/-- Read, Compare and Verify: f ends a command whose blocks read well. -/
def nvmSample (d : Dev) (p : Nat) (q : NvmeCmd) (bs : List Nat) (f : Dev → List LVer → Dev) : Dev :=
  let (l, d) := d.sampleAll bs
  if l.any (·.poisoned) then d.readBad p q else f d l
/-- Write Uncorrectable (R432). -/
def nvmPoison (d : Dev) (p : Nat) (q : NvmeCmd) (bs : List Nat) : Dev :=
  d.admitAll p q (bs.map (fun b => ⟨b, [], [], none, false, true, askerOf p q⟩))
/-- Write Zeroes: with DEAC the blocks are deallocated. -/
def nvmZero (d : Dev) (p : Nat) (q : NvmeCmd) (bs : List Nat) : Dev :=
  let deac := q.d12.getLsbD 25
  d.admitAll p q (bs.map (fun b => ⟨b, [], [(0, 4096)], some [], deac, false, askerOf p q⟩))
/-- Dataset Management: deallocation of ranges, which goes on in read-only retirement (R415); other attributes do nothing. -/
def nvmDsm (d : Dev) (p : Nat) (q : NvmeCmd) (n : Ns) : Dev :=
  let h := fun (o k : Nat) => leVal ((q.data.drop o).take k)
  let rs := (List.range (q.d10.toNat % 256 + 1)).map (fun i => (h (16 * i + 8) 8, h (16 * i + 4) 4))
  if !q.d11.getLsbD 2 then d.good p q
  else if rs.any (fun r => n.size < r.1 + r.2) then d.done p q 0 0x80 []
  else
    let bs := (rs.flatMap (fun r => lbas n r.1 r.2)).filter (fun b => d.mapped b)
    if d.ftl.retired then (bs.foldl (fun d b => d.trimBlk b) d).good p q
    else (bs.foldl (fun d b => d.askAdmit ⟨b, [], [(0, 4096)], some [], true, false, askerOf p q⟩) d).writeDone p q
/-- The oldest waiting write is admitted if it may be (R402, R408, R415); its command completes with its last block. -/
def admission (d : Dev) : Dev :=
  match d.ftl.waits with
  | [] => d
  | w :: _ =>
    let d := d.tryRetire w.blk
    let fin := fun (d : Dev) (sc : Nat) => match w.who with
      | .nvme p sq cid => if d.ftl.waits.any (fun x => x.who == w.who) then d else d.nvmeDone p sq cid 0 sc 0#32 0#32 []
      | _ => d
    if d.ftl.retired && !w.trim then fin (d.setFtl (fun f => { f with waits := f.waits.filter (fun x => x.who != w.who || w.who == .none && x != w) })) 0x20
    else match d.admitHead with
      | none => d
      | some (_, d) => fin d 0

/-! ## The memory namespaces (R430) -/

/-- The tier and offset of a byte of a memory namespace. -/
def slmPlace (o : Nat) : Nat × Nat := if o < 2 ^ 49 then (1, o) else (2, o - 2 ^ 49)
/-- A byte lies in an object of a partition or in a forward of it. -/
def slmMay (d : Dev) (part t o : Nat) : Bool :=
  (d.tier.objs.any (fun x => x.2.part == part && x.2.tier == t && x.2.base ≤ o && o < x.2.base + x.2.size)) ||
  (d.tier.forwards.any (fun x => x.2.part == part && x.2.tier == t && x.2.base ≤ o && o < x.2.base + x.2.size))
/-- Runs of a range of a memory namespace: tier, offset, first byte, count, reachable. -/
def slmRuns (d : Dev) (part o n : Nat) : List (Nat × Nat × Nat × Nat × Bool) :=
  let add := fun (l : List (Nat × Nat × Nat × Nat × Bool)) (i : Nat) =>
    let pl := slmPlace (o + i)
    let ok := d.slmMay part pl.1 pl.2
    match l with
    | (t, x, a, c, k) :: r => if k == ok && t == pl.1 && x + c == pl.2 then (t, x, a, c + 1, k) :: r else (pl.1, pl.2, i, 1, ok) :: l
    | [] => [(pl.1, pl.2, i, 1, ok)]
  ((List.range n).foldl add []).reverse
/-- Every reachable run can be accessed now; otherwise what the directory must do first. -/
def slmReady (d : Dev) (l : List (Nat × Nat × Nat × Nat × Bool)) (wr : Bool) : Bool := l.all (fun r => !r.2.2.2.2 || d.lready r.1 r.2.1 r.2.2.2.1 wr)
def slmAsk (d : Dev) (l : List (Nat × Nat × Nat × Nat × Bool)) (wr : Bool) : Dev :=
  l.foldl (fun d r => if r.2.2.2.2 then d.dirAsk wr (d.lholds r.1 r.2.1 r.2.2.2.1 wr) else d) d
/-- Reads runs: unreachable bytes read 0. Answers the bytes, and whether some were uncorrectable. -/
def slmGet (d : Dev) (p : Nat) (l : List (Nat × Nat × Nat × Nat × Bool)) : List Byte × Bool × Dev :=
  l.foldl (fun (a : List Byte × Bool × Dev) r =>
    if r.2.2.2.2 then
      let b := a.2.2.lread r.1 r.2.1 r.2.2.2.1
      (a.1 ++ b.1, a.2.1 || b.2, a.2.2.lmeet (unitId 0x0E p) r.1 r.2.1 r.2.2.2.1)
    else (a.1 ++ List.replicate r.2.2.2.1 0#8, a.2.1, a.2.2)) ([], false, d)
/-- Writes runs: unreachable bytes ignore it. -/
def slmPut (d : Dev) (l : List (Nat × Nat × Nat × Nat × Bool)) (bs : List Byte) : Dev :=
  l.foldl (fun d r => if r.2.2.2.2 then d.lwrite r.1 r.2.1 ((bs.drop r.2.2.1).take r.2.2.2.1) else d) d
/-- The address clamp of a command that names unreachable bytes, and its flag. -/
def slmClamp (d : Dev) (p part : Nat) (l : List (Nat × Nat × Nat × Nat × Bool)) : Nat × Dev :=
  match l.find? (fun r => !r.2.2.2.2) with
  | none => (0, d)
  | some r => (1, d.addrClamp (.hostFor p part) 2 (mkAddr d.nodeId r.1 r.2.1))
/-- A write of runs meets read-only retirement (R415): some of it would land in tier 3. -/
def slmRo (d : Dev) (l : List (Nat × Nat × Nat × Nat × Bool)) : Bool × Dev :=
  let d := l.foldl (fun d r => if r.2.2.2.2 then d.roStore r.1 r.2.1 r.2.2.2.1 else d) d
  (d.ftl.retired && l.any (fun r => r.2.2.2.2 && (pieces r.2.1 r.2.2.2.1).any (fun p => (d.resolve r.1 p.1).1 == 3)), d)
/-- Ends a command that writes runs. -/
def slmWrite (d : Dev) (p : Nat) (q : NvmeCmd) (part : Nat) (l : List (Nat × Nat × Nat × Nat × Bool)) (bs : List Byte) : Dev :=
  let (ro, d) := d.slmRo l
  if ro then d.ended p q 0x58 0 0#32 []
  else
    let (fl, d) := d.slmClamp p part l
    (d.slmPut l bs).ended p q 0 fl 0#32 []
/-- The partition of a memory namespace. -/
def memPart (nsid : Nat) : Option Nat := if 129 ≤ nsid ∧ nsid ≤ 144 then some (nsid - 129) else none
/-- The starting byte and length of an SLM command. -/
def slmArgs (q : NvmeCmd) : Nat × Nat := (q.d10.toNat + 2 ^ 32 * q.d11.toNat, q.d12.toNat)

/-! ## Programs (R439) -/

/-- The base of a program slot in the program reserve (log 33). -/
def progBase (i : Nat) : Nat := 0x800000000 + i * 0x1000000
/-- Load Program. -/
def loadProgram (d : Dev) (p : Nat) (q : NvmeCmd) : Dev :=
  let i := q.d10.toNat % 65536
  let size := q.d11.toNat
  let off := q.d12.toNat
  if 64 ≤ i || 0x1000000 < size || size < off + q.data.length then d.badField p q
  else
    let d := d.lwrite 2 (progBase i + off) q.data
    ({ d with host := { d.host with progs := Tab.put d.host.progs i ⟨size, false⟩ } } : Dev).ended p q 0 0 0#32 []
/-- Program Activation Management. -/
def activate' (d : Dev) (p : Nat) (q : NvmeCmd) : Dev :=
  let i := q.d10.toNat % 65536
  match Tab.find d.host.progs i with
  | none => d.badField p q
  | some g => ({ d with host := { d.host with progs := Tab.put d.host.progs i { g with active := q.d11.getLsbD 0 } } } : Dev).ended p q 0 0 0#32 []
/-- Execute Program: CODE becomes the slot's base, the descriptor enters the partition's queue. -/
def execProgram (d : Dev) (p : Nat) (q : NvmeCmd) : Dev :=
  let i := q.d10.toNat % 65536
  let ws := wordsOf 16 q.data
  let part := bits64 (ws.getD 10 0#64) 0 4
  if !d.portMay p part then d.denied p q
  else if !((Tab.find d.host.progs i).any (·.active)) then d.ended p q 0x71 0 0#32 []
  else d.submit part ⟨ws.set 0 (mkAddr d.nodeId 2 (progBase i)), 0, some (p, q.sq, q.cid), 32⟩
/-- Memory Range Set Management: up to 16 sets are kept. -/
def rangeSets (d : Dev) (p : Nat) (q : NvmeCmd) : Dev :=
  let set := fun (t : Tab (List Byte)) => ({ d with host := { d.host with ranges := t } } : Dev)
  match q.d10.toNat % 16 with
  | 0 =>
    let i := Tab.firstFree d.host.ranges 16 0
    if 16 ≤ i then d.badField p q else (set (Tab.put d.host.ranges i q.data)).ended p q 0 0 (BitVec.ofNat 32 i) []
  | 1 =>
    let i := q.d10.toNat / 65536
    if (Tab.find d.host.ranges i).isNone then d.badField p q else (set (Tab.del d.host.ranges i)).ended p q 0 0 0#32 []
  | _ => d.badField p q

end Dev

namespace State

/-- Opal locks a range of a namespace against a read or a write (R501). -/
def locked (s : State) (i lo n : Nat) (wr : Bool) : Bool :=
  let o := s.aon.opal
  let rs := (o.ranges.map (·.2)).filter (fun r => r.nsid == i)
  let glob := Tab.getD o.globals i (false, false, false)
  o.enabled && (rs.any (fun r => (if wr then r.wlock else r.rlock) && r.start < lo + n && lo < r.start + r.len) ||
    ((if wr then glob.2.1 else glob.1) && (upFrom lo n).any (fun a => !rs.any (fun r => r.start ≤ a && a < r.start + r.len))))
/-- An NVM command on a range of a namespace: it must be attached, hold the range, and be unlocked. -/
def onRange (s : State) (p : Nat) (q : NvmeCmd) (wr : Bool) (f : Dev → Ns → List Nat → Dev) : State :=
  match s.dev.ns? q.nsid with
  | none => s.onDev (fun d => d.done p q 0 0x0B [])
  | some n =>
    if !n.attached.contains p then s.onDev (fun d => d.done p q 0 0x0B [])
    else if n.size < Dev.slba q + Dev.nlb q then s.onDev (fun d => d.done p q 0 0x80 [])
    else if s.locked q.nsid (Dev.slba q) (Dev.nlb q) wr then s.onDev (fun d => d.done p q 2 0x86 [])
    else s.onDev (fun d => f d n (Dev.lbas n (Dev.slba q) (Dev.nlb q)))
/-- A command on a memory namespace: the right to its partition, the length, and bytes that can be reached now. A command whose
lines wait at the directory has not started. -/
def onMem (s : State) (p : Nat) (q : NvmeCmd) (wr : Bool) (f : Dev → Nat → List (Nat × Nat × Nat × Nat × Bool) → Dev) : State :=
  match Dev.memPart q.nsid with
  | none => s.ioDev p q .other (fun d => d.done p q 0 0x0B [])
  | some part =>
    let a := Dev.slmArgs q
    if !s.dev.portMay p part then s.ioDev p q .other (fun d => d.denied p q)
    else if 0x10000000 < a.2 then s.ioDev p q .other (fun d => d.badField p q)
    else
      let l := s.dev.slmRuns part a.1 a.2
      if !s.dev.slmReady l wr then s.onDev (fun d => if d.ctrlLive p && d.sqLive p q false then d.slmAsk l wr else d)
      else s.ioDev p q .other (fun d => f d part l)
/-- Memory Copy (R430): from or to the namespace that the first descriptor of its data names, to or from its own. -/
def memCopy (s : State) (p : Nat) (q : NvmeCmd) : State :=
  let h := fun (o n : Nat) => leVal ((q.data.drop o).take n)
  let other := h 0 4
  let o := h 8 8
  let a := Dev.slmArgs q
  let blks := ceilDiv a.2 4096
  match Dev.memPart q.nsid, Dev.memPart other with
  | some part, none =>
    match s.dev.ns? other with
    | none => s.ioDev p q .other (fun d => d.done p q 0 0x0B [])
    | some n =>
      if !s.dev.portMay p part then s.ioDev p q .other (fun d => d.denied p q)
      else if !n.attached.contains p then s.ioDev p q .other (fun d => d.done p q 0 0x0B [])
      else if 0x10000000 < a.2 then s.ioDev p q .other (fun d => d.badField p q)
      else if n.size < o + blks then s.ioDev p q .other (fun d => d.done p q 0 0x80 [])
      else if s.locked other o blks false then s.ioDev p q .other (fun d => d.done p q 2 0x86 [])
      else
        let l := s.dev.slmRuns part a.1 a.2
        if !s.dev.slmReady l true then s.onDev (fun d => if d.ctrlLive p && d.sqLive p q false then d.slmAsk l true else d)
        else s.ioDev p q .other (fun d => d.nvmSample p q (Dev.lbas n o blks) (fun d vs =>
          d.slmWrite p q part l (vs.flatMap (fun v => v.data.bytes 4096))))
  | none, some part =>
    match s.dev.ns? q.nsid with
    | none => s.ioDev p q .other (fun d => d.done p q 0 0x0B [])
    | some n =>
      if !s.dev.portMay p part then s.ioDev p q .other (fun d => d.denied p q)
      else if !n.attached.contains p then s.ioDev p q .other (fun d => d.done p q 0 0x0B [])
      else if 0x10000000 < a.2 || a.2 % 4096 ≠ 0 then s.ioDev p q .other (fun d => d.badField p q)
      else if n.size < a.1 + blks then s.ioDev p q .other (fun d => d.done p q 0 0x80 [])
      else if s.locked q.nsid a.1 blks true then s.ioDev p q .other (fun d => d.done p q 2 0x86 [])
      else
        let l := s.dev.slmRuns part o a.2
        if !s.dev.slmReady l false then s.onDev (fun d => if d.ctrlLive p && d.sqLive p q false then d.slmAsk l false else d)
        else s.ioDev p q .write (fun d =>
          let (bs, bad, d) := d.slmGet p l
          if bad then d.readBad p q else
          let (fl, d) := d.slmClamp p part l
          let d := d.modCtrl p (fun c => { c with outst := c.outst.map (fun x => if x.cmd.sq = q.sq && x.cmd.cid = q.cid then { x with marks := fl } else x) })
          d.nvmWrite p { q with data := bs } { n with lbaf := 0 } (Dev.lbas n a.1 blks))
  | _, _ => s.ioDev p q .other (fun d => d.done p q 0 0x0B [])

end State

end Sys2Proof.Machine
end

