-- ==== Sys2Proof/Machine/HostVendor.lean ====
section
/-! DEFINITION. Vendor commands (R436 to R438, Tables 16-8 and 16-9). -/
namespace Sys2Proof.Machine

namespace Dev

/-- Bytes that NDT gives a vendor command. -/
def ndtBytes (q : NvmeCmd) : Nat := 4 * q.d10.toNat
/-- NDM other than 0 is taken as 0, with one clamp (R436). -/
def ndmClamp (q : NvmeCmd) : Nat := b2n (q.d11 != 0#32)
/-- The input of a vendor command: n bytes, those beyond NDT read as 0; whether NDT was too small. -/
def venIn (q : NvmeCmd) (n : Nat) : List Byte × Nat :=
  (((q.data.take (ndtBytes q)) ++ List.replicate n 0#8).take n, b2n (ndtBytes q < n))
/-- A vendor command that is one fixed result of bytes ends: what does not fit whole is not written, with one clamp. -/
def venOut (d : Dev) (p : Nat) (q : NvmeCmd) (st n dw1 : Nat) (l : List Byte) : Dev :=
  let n := n + ndmClamp q + b2n (ndtBytes q < l.length)
  (d.hostClamp p n).ended p q st (min 1 n) (BitVec.ofNat 32 dw1) (if ndtBytes q < l.length then [] else l)
/-- A vendor command without a result ends. -/
def venEnd (d : Dev) (p : Nat) (q : NvmeCmd) (st n : Nat) : Dev := d.venOut p q st n 0 []
/-- CDW12[3:0]. -/
def venPart (q : NvmeCmd) : Nat := q.d12.toNat % 16

/-! ## Partitions (Table 16-9) -/

/-- Partition Set. -/
def partSet (d : Dev) (p : Nat) (q : NvmeCmd) : Dev :=
  if !d.portAdmin p then d.denied p q else
  let n := venPart q
  let (l, k) := venIn q 64
  let h := fun (o c : Nat) => leVal ((l.drop o).take c)
  let c0 := d.reg R.partClampCnt
  let kudu := h 0 8
  let cham := h 8 4
  let fl := h 12 1
  let cfg := setF (setF (setF (setF (d.reg (R.partCfg n)) F.partCfg_enable (fl % 2)) F.partCfg_priv (fl / 2 % 2)) F.partCfg_scrCkpt (fl / 4 % 2)) F.partCfg_slice (h 14 2)
  let d := (d.partCfgWrite n cfg).partOryxWrite n (setF 0#32 F.partOryx_slots (h 16 2))
  let d := d.setFld (R.partHerd n) F.partHerd_share (h 18 1)
  let d := (List.range 4).foldl (fun d t => d.setReg (R.tierQuota n t) (BitVec.ofNat 32 (h (20 + 4 * t) 4))) d
  let d := (List.range 64).foldl (fun d i =>
    if kudu.testBit i then d.kuduOwnWrite i (setF 0#32 F.partKuduOwn_owner n)
    else if d.fld (R.partKuduOwn i) F.partKuduOwn_owner = n then d.kuduOwnWrite i (setF 0#32 F.partKuduOwn_owner 31) else d) d
  let d := (List.range 32).foldl (fun d i =>
    if cham.testBit i then d.chamOwnWrite i (setF 0#32 F.partChamOwn_owner n)
    else if d.fld (R.partChamOwn i) F.partChamOwn_owner = n then d.chamOwnWrite i (setF 0#32 F.partChamOwn_owner 31) else d) d
  let own := b2n (d.reg R.partClampCnt != c0)
  let k := k + ndmClamp q
  (d.hostClamp p k).ended p q 0 (min 1 (k + own)) 0#32 []
/-- Partition Get. -/
def partGet (d : Dev) (p : Nat) (q : NvmeCmd) : Dev :=
  let n := venPart q
  if !d.portMay p n then d.denied p q else
  let mask := fun (c : Nat) (f : Nat → Nat) => ((List.range c).map (fun i => if f i = n then 2 ^ i else 0)).foldl (· + ·) 0
  let cfg := d.reg (R.partCfg n)
  d.venOut p q 0 0 0 (leBytes 8 (mask 64 d.kuduOwner) ++ leBytes 4 (mask 32 d.chamOwner) ++
    leBytes 2 (getF cfg F.partCfg_enable + 2 * getF cfg F.partCfg_priv + 4 * getF cfg F.partCfg_scrCkpt) ++ leBytes 2 (getF cfg F.partCfg_slice) ++
    leBytes 2 (d.fld (R.partOryx n) F.partOryx_slots) ++ leBytes 2 (d.fld (R.partHerd n) F.partHerd_share) ++
    (List.range 4).flatMap (fun t => leBytes 4 (d.reg (R.tierQuota n t)).toNat) ++ leBytes 4 (d.partInfo n) ++ leBytes 4 (d.partLq n) ++ List.replicate 20 0#8)

/-! ## Contexts (R437) -/

/-- A command that names a context: NO_SUCH_CONTEXT for a FREE one, the right to its partition. -/
def onCtx (d : Dev) (p : Nat) (q : NvmeCmd) (f : Dev → Nat → Ctx → Dev) : Dev :=
  let c := q.d12.toNat % 4096
  match d.ctx? c with
  | none => d.venEnd p q 0x72 0
  | some x => if !d.portMay p x.part then d.denied p q else f d c x
/-- Context Control: what the PART_CTX_CTRL bits and PART_CTX_SHARE do. -/
def ctxControl (d : Dev) (p : Nat) (q : NvmeCmd) : Dev :=
  d.onCtx p q (fun d c _ =>
    let c0 := d.reg R.partClampCnt
    let d := if q.d13.getLsbD 3 then d.ctxShareWrite c (q.d14.toNat % 65536) else d
    let d := if q.d13.getLsbD 2 then d.clearClamp c else d
    let d := if q.d13.getLsbD 1 then d.preempt c else d
    let d := if q.d13.getLsbD 0 then d.endRequest c else d
    let n := ndmClamp q
    (d.hostClamp p n).ended p q 0 (min 1 (n + b2n (d.reg R.partClampCnt != c0))) 0#32 [])
/-- Context State. -/
def ctxState (d : Dev) (p : Nat) (q : NvmeCmd) : Dev :=
  d.onCtx p q (fun d c x =>
    let st := if x.st = .savedRunnable || x.st = .savedBlocked || x.st = .replyWait then 0x0A else 0
    d.venOut p q st 0 0 (leBytes 4 (d.ctxStateReg c) ++ leBytes 4 (d.ctxWinReg c) ++ leBytes 8 (d.ctxWrapReg c) ++
      (List.range 5).flatMap (fun a => leBytes 8 (d.ctxAcc c a)) ++ List.replicate 8 0#8))

/-! ## Objects, collections, Rind containers (R437, R264) -/

/-- Object Command: a submission for the partition named (R245). -/
def objCmd (d : Dev) (p : Nat) (q : NvmeCmd) : Dev :=
  let n := venPart q
  if !d.portMay p n then d.denied p q else
  let (l, k) := venIn q 64
  let k := k + ndmClamp q
  let ws := wordsOf 8 l
  let op0 := bits64 (ws.getD 0 0#64) 0 8
  let op := if 1 ≤ op0 ∧ op0 ≤ 7 then op0 else 7
  let who := askerOf p q
  let r : Req := .hostFor p n
  let fl := b2n (op != op0) ||| min 1 k
  let d := (d.hostClamp p k).tierClamp (b2n (op != op0))
  match op with
  | 1 => d.createObj r n ws who fl
  | 2 => d.objFree n ws who fl
  | 3 => d.objMove r n ws who fl
  | 4 => d.objPin n ws who fl
  | 5 => d.objUnpin n ws who fl
  | 6 => d.objAck n who fl
  | _ => d.objQuery n ws who fl
/-- Collection Command: a submission for the partition named (R313). -/
def collCmd (d : Dev) (p : Nat) (q : NvmeCmd) : Dev :=
  let n := venPart q
  if !d.portMay p n then d.denied p q else
  let (l, k) := venIn q 64
  let k := k + ndmClamp q
  let ws := wordsOf 8 l
  let op0 := bits64 (ws.getD 0 0#64) 0 8
  let op := if 1 ≤ op0 ∧ op0 ≤ 3 then op0 else 3
  let who := askerOf p q
  let fl := b2n (op != op0) ||| min 1 k
  let d := (d.hostClamp p k).srchClamp (b2n (op != op0))
  match op with
  | 1 => d.collCreate (.hostFor p n) n ws who fl
  | 2 => d.collDestroy n ws who fl
  | _ => d.collInfo n ws who fl
/-- The object that a Rind command names. -/
def rindObj (d : Dev) (p : Nat) (q : NvmeCmd) (f : Dev → Nat → Obj → Dev) : Dev :=
  let n := venPart q
  if !d.portMay p n then d.denied p q else
  match (d.findObj n (BitVec.ofNat 64 (q.d14.toNat + 2 ^ 32 * q.d15.toNat))).bind (fun i => (Tab.find d.tier.objs i).map (fun o => (i, o))) with
  | none => d.venEnd p q 0x29 0
  | some (i, o) => f d i o
/-- Payloads of a container: for each index entry its bytes, each at the next multiple of 4. -/
def rindPayloads : List W64 → List Byte → List (W64 × List Byte)
  | [], _ => []
  | e :: r, l => (e, l.take (min 4096 (rindLen e))) :: rindPayloads r (l.drop (ceilDiv (min 4096 (rindLen e)) 4 * 4))
/-- What keeps a Rind command from its object now: lines that wait at the directory, or no room in the write buffer. -/
def rindBusy (d : Dev) (q : NvmeCmd) (wr : Bool) : Option (Nat × Obj) :=
  ((d.findObj (venPart q) (BitVec.ofNat 64 (q.d14.toNat + 2 ^ 32 * q.d15.toNat))).bind (fun i => (Tab.find d.tier.objs i).map (fun o => (i, o)))).filter
    (fun o => !d.lready o.2.tier o.2.base o.2.size wr)
/-- Rind Import (R264, R437): every block is validated first; MAGIC, VERSION, BLOCKS and the two offsets have one legal value each. -/
def rindImport (d : Dev) (p : Nat) (q : NvmeCmd) : Dev :=
  d.rindObj p q (fun d i o =>
    let d := d.roStore o.tier o.base o.size
    if d.ftl.retired && (d.resolve o.tier o.base).1 == 3 then d.venEnd p q 0x58 0 else
    let buf := q.data.take (ndtBytes q)
    let h := fun (x c : Nat) => leVal ((buf.drop x).take c)
    let size := h 8 8
    let n := min (ceilDiv size 4096) (2 ^ 32)
    let doff := 64 + 8 * n
    let bad := b2n (h 0 4 != 0x31444E52) + b2n (h 4 1 != 1) + b2n (h 16 4 != n) + b2n (h 24 8 != 64) + b2n (h 32 8 != doff)
    let es := (List.range n).map (fun b => BitVec.ofNat 64 (h (64 + 8 * b) 8))
    let bl := rindPayloads es (buf.drop doff)
    let need := doff + (bl.map (fun b => ceilDiv (rindLen b.1) 4 * 4)).foldl (· + ·) 0
    let pad := fun (b : W64 × List Byte) => (b.1, b.2 ++ List.replicate (min 4096 (rindLen b.1) - b.2.length) 0#8)
    let dec := (bl.map pad).map (fun b => (b, rindDecode (h 5 1 % 16) b.1 b.2))
    let nb := ceilDiv o.size 4096
    let k := bad + b2n (ndtBytes q < need) + b2n (nb < n)
    -- each malformed block counts once (R263)
    let nbad := dec.countP (fun x => x.2.isNone)
    if h 5 1 % 16 ≠ o.fmt then d.venEnd p q 9 0
    else if nbad ≠ 0 then ((d.countN R.tierRindErrCnt R.tierEvt F.tierEvt_rindOvf nbad).setFld R.tierEvt F.tierEvt_rindErr 1).venEnd p q 9 0
    else
      let d := ((dec.take nb).zipIdx).foldl (fun d x =>
        let l := (x.1.2.getD []).take (min 4096 (o.size - 4096 * x.2))
        let d := d.lwrite o.tier (o.base + 4096 * x.2) l
        if o.rind && o.tier ≠ 1 && rindEncode o.fmt (x.1.2.getD []) ≠ x.1.1 then d.modObj i (fun o => { o with enc := Tab.put o.enc x.2 ⟨x.1.1.1, x.1.1.2, false⟩ }) else d) d
      d.venEnd p q 0 k)
/-- The container of an object as it stands (R264, R437), and whether a byte of it is uncorrectable. -/
def rindContainer (d : Dev) (o : Obj) : List Byte × Bool :=
  let n := ceilDiv o.size 4096
  let fmt := if o.rind then o.fmt else 8
  let bs := (List.range n).map (fun b =>
    match (if o.rind && o.tier ≠ 1 then Tab.find o.enc b else none) with
    | some e => ((e.entry, e.payload), false)
    | none =>
      let r := d.lread o.tier (o.base + 4096 * b) (min 4096 (o.size - 4096 * b))
      (rindEncode fmt ((r.1 ++ List.replicate 4096 0#8).take 4096), r.2))
  ([0x52#8, 0x4E#8, 0x44#8, 0x31#8, 1#8, BitVec.ofNat 8 fmt, 0#8, 0#8] ++ leBytes 8 o.size ++ leBytes 8 n ++ leBytes 8 64 ++ leBytes 8 (64 + 8 * n) ++ List.replicate 24 0#8 ++
    bs.flatMap (fun b => leBytes 8 b.1.1.toNat) ++ bs.flatMap (fun b => b.1.2 ++ List.replicate ((4 - b.1.2.length % 4) % 4) 0#8), bs.any (·.2))
/-- Rind Export (R437). -/
def rindExport (d : Dev) (p : Nat) (q : NvmeCmd) : Dev :=
  d.rindObj p q (fun d _ o =>
    let (l, bad) := d.rindContainer o
    let off := 4096 * q.d13.toNat
    if bad then d.venEnd p q 9 0
    else
      let k := ndmClamp q + b2n (l.length ≤ off)
      (d.hostClamp p k).ended p q 0 (min 1 k) (BitVec.ofNat 32 l.length) ((l.drop off).take (ndtBytes q)))

/-! ## The fabric (R437) -/

/-- Fabric Enumerate: writes DIR_CFG.ENUM; without DIR_CFG.ROOT it has no effect, with one clamp. -/
def fabEnum (d : Dev) (p : Nat) (q : NvmeCmd) (pref : Option Nat) : Dev :=
  if !d.portAdmin p then d.denied p q
  else if !d.isRootCfg then d.venEnd p q 0 1
  else (d.enumStart pref).venEnd p q 0 0
/-- Fabric Status. -/
def fabStatus (d : Dev) (p : Nat) (q : NvmeCmd) : Dev :=
  let r := fun (a : Nat) => leBytes 4 (d.reg a).toNat
  d.venOut p q 0 0 0 (r R.addrNode ++ r R.dirEnum ++ r R.capHerd ++ r R.dirCfg ++ (List.range 36).flatMap (fun h => r (R.hlState h)) ++ List.replicate 96 0#8)

/-! ## Searches, appends, deletes (R438, R344, R348) -/

/-- A search of a host buffer: its control block, queries, filter block and ID list; large for Search Large K. -/
def hostSearch (d : Dev) (p : Nat) (q : NvmeCmd) (large : Bool) : Dev :=
  let n := q.d15.toNat % 16
  if !d.portMay p n then d.denied p q else
  let bf := q.d15.getLsbD 4
  let buf := q.data.take (ndtBytes q)
  let h := fun (o c : Nat) => leVal ((buf.drop o).take c)
  let k0 := if large then q.d14.toNat % 2 ^ 21 else bitsOf q.d12.toNat 10 7
  let k := if large then clampTo 65 (2 ^ 20) k0 else clampTo 1 64 k0
  let di0 := bitsOf q.d12.toNat 17 2
  let pa0 := bitsOf q.d12.toNat 19 2
  let q0 := if large then 1 else q.d14.toNat % 2 ^ 13
  let nq := min 4096 q0
  let offs := [h 0 4, h 4 4, h 8 4]
  let al := fun (i : Nat) => alignDown (offs.getD i 0) 8
  let coll := q.d12.toNat % 1024
  let c := d.collFor coll n
  let dim := (c.map (·.dim)).getD 0
  let es := if bf then 2 else 4
  let raw := (List.range nq).map (fun i => (List.range dim).map (fun j =>
    let v := h (16 + (i * dim + j) * es) es
    BitVec.ofNat 32 (if bf then v * 65536 else v)))
  let filt := if al 0 = 0 then [] else ((buf.drop (al 0)) ++ List.replicate (128 * nq) 0#8).take (128 * nq)
  let idl := if al 1 = 0 then [] else buf.drop (al 1)
  let perF := (filt.getD 0 0#8).getLsbD 3
  let cw := leVal (idl.take 8)
  let ids := min (cw % 2 ^ 17) 65536 * (if cw.testBit 63 then nq else 1)
  let need := max (16 + nq * dim * es) (max (if al 0 = 0 then 0 else al 0 + 128 * (if perF then nq else 1)) (if al 1 = 0 then 0 else al 1 + 8 + 8 * ids))
  let room := ndtBytes q - al 2
  let small := ndtBytes q < need || room < nq * (64 + 16 * k)
  let m := ndmClamp q + b2n (k != k0) + b2n (di0 == 3) + b2n (pa0 == 3) + b2n (nq != q0) + b2n small + ((offs.filter (fun o => o % 8 ≠ 0)).length)
  let j := newJob coll n k (if di0 = 3 then 0 else di0) (if pa0 = 3 then 0 else pa0) c.isSome large (al 1 != 0) (askerOf p q) 0#64 (min 1 m)
  let (i, d) := (d.hostClamp p m).addJob { j with raw := raw, filt := filt, idl := idl, room := room }
  d.modCtrl p (fun t => { t with outst := t.outst.map (fun o => if o.cmd.sq = q.sq && o.cmd.cid = q.cid then { o with job := some i } else o) })
/-- A change of a collection by the host: one that names no collection of the partition changes nothing, with one clamp (R317). -/
def hostChange (d : Dev) (p : Nat) (q : NvmeCmd) (f : Coll → Change × Nat) : Dev :=
  let n := q.d15.toNat % 16
  if !d.portMay p n then d.denied p q else
  let l := q.d12.toNat % 1024
  match d.collFor l n with
  | none => (d.hostClamp p (1 + ndmClamp q)).nvmeStatus p q.sq q.cid 0 1 0 0#32 []
  | some c =>
    let r := f c
    let k := r.2 + ndmClamp q
    (d.hostClamp p k).addChange l ⟨r.1, askerOf p q, min 1 k, 0#64⟩
/-- Collection Append. -/
def hostAppend (d : Dev) (p : Nat) (q : NvmeCmd) : Dev :=
  d.hostChange p q (fun c =>
    let fl := q.d15.getLsbD 4
    let z := if fl then 4 * (8 + c.dim) else 32 + c.dim
    let (l, k) := venIn q (q.d14.toNat * z)
    let rs := (List.range q.d14.toNat).map (fun i => recordOf c fl ((l.drop (i * z)).take z))
    (.append (rs.map (·.1)), k + b2n (rs.any (·.2))))
/-- Collection Delete. -/
def hostDelete (d : Dev) (p : Nat) (q : NvmeCmd) : Dev :=
  d.hostChange p q (fun _ =>
    let (l, k) := venIn q (8 * q.d14.toNat)
    (.delete ((List.range q.d14.toNat).map (fun i => leVal ((l.drop (8 * i)).take 5))), k))

end Dev

end Sys2Proof.Machine
end

