-- ==== Sys2Proof/Machine/ExecHost.lean ====
section
/-! DEFINITION. The commands of the host interface (chapter 16), and the ports' pins and links (R529, R534, R540). -/
namespace Sys2Proof.Machine

namespace State

/-- An I/O command on a range of a namespace. -/
def rangeIo (s : State) (p : Nat) (q : NvmeCmd) (k : OutCmd) (wr : Bool) (f : Dev → Ns → List Nat → Dev) : State :=
  (s.nvme p q false k (fun s => s.onRange p q wr f)).settled
/-- An admin command on the main rails. -/
def admin (s : State) (p : Nat) (q : NvmeCmd) (f : Dev → Dev) : State := (s.adminDev p q f).settled
/-- An admin command that reaches beyond the main rails. -/
def adminAll (s : State) (p : Nat) (q : NvmeCmd) (f : State → State) : State := (s.nvme p q true .other f).settled
/-- An I/O command that names no range. -/
def io (s : State) (p : Nat) (q : NvmeCmd) (k : OutCmd) (f : Dev → Dev) : State := (s.ioDev p q k f).settled
/-- A Rind command: one whose object waits at the directory, or for room, has not started. -/
def rindCmd (s : State) (p : Nat) (q : NvmeCmd) (wr : Bool) (f : Dev → Dev) : State :=
  match s.dev.rindBusy q wr with
  | some o => s.onDev (fun d => if d.ctrlLive p && d.sqLive p q true && d.portMay p (Dev.venPart q) then d.dirAsk wr (d.lholds o.2.tier o.2.base o.2.size wr) else d)
  | none => s.admin p q f
/-- A command that runs at once beside the others of the admin queue (R440). -/
def atOnce (s : State) (p : Nat) (q : NvmeCmd) (f : Dev → Dev) : State :=
  if s.dev.ctrlLive p && s.dev.sqLive p q true then (s.onDev f).settled else s

end State

/-! ## The write buffer (R402) -/

/-- BLOCK_ADMISSION (R402, R408). -/
def execBlockAdmission (s : State) : Out := .next ((s.onDev (fun d => d.admission)).settled)

/-! ## The NVM command set -/

/-- NVM_FLUSH (R442): every write that has completed is durable. -/
def execNvmFlush (p : Fin 4) (q : NvmeCmd) (s : State) : Out :=
  .next (s.io p q .other (fun d =>
    if q.nsid = 0xFFFFFFFF || (d.ns? q.nsid).any (fun n => n.attached.contains p.val) then d.good p q else d.done p q 0 0x0B []))

/-- NVM_WRITE (R402). -/
def execNvmWrite (p : Fin 4) (q : NvmeCmd) (s : State) : Out := .next (s.rangeIo p q .write true (fun d n bs => d.nvmWrite p q n bs))

/-- NVM_READ (R402, R403). -/
def execNvmRead (p : Fin 4) (q : NvmeCmd) (s : State) : Out :=
  .next (s.rangeIo p q .read false (fun d n bs => d.nvmSample p q bs (fun d l => d.done p q 0 0 (l.flatMap (Dev.blkBytes n)))))

/-- NVM_WRITE_UNCORRECTABLE (R432, R401). -/
def execNvmWriteUncorrectable (p : Fin 4) (q : NvmeCmd) (s : State) : Out := .next (s.rangeIo p q .write true (fun d _ bs => d.nvmPoison p q bs))

/-- NVM_COMPARE (R432): metadata too under LBAF 1. -/
def execNvmCompare (p : Fin 4) (q : NvmeCmd) (s : State) : Out :=
  .next (s.rangeIo p q .read false (fun d n bs => d.nvmSample p q bs (fun d l =>
    let st := l.flatMap (Dev.blkBytes n)
    if q.data.take st.length = st then d.good p q else d.done p q 2 0x85 [])))

/-- NVM_WRITE_ZEROES (R432). -/
def execNvmWriteZeroes (p : Fin 4) (q : NvmeCmd) (s : State) : Out := .next (s.rangeIo p q .write true (fun d _ bs => d.nvmZero p q bs))

/-- NVM_DATASET_MANAGEMENT (R432): a range locked against writes is not deallocated. -/
def execNvmDatasetManagement (p : Fin 4) (q : NvmeCmd) (s : State) : Out :=
  .next ((s.nvme p q false .write (fun s =>
    match s.dev.ns? q.nsid with
    | none => s.onDev (fun d => d.done p q 0 0x0B [])
    | some n =>
      if !n.attached.contains p.val then s.onDev (fun d => d.done p q 0 0x0B [])
      else if s.locked q.nsid 0 n.size true then s.onDev (fun d => d.done p q 2 0x86 [])
      else s.onDev (fun d => d.nvmDsm p q n))).settled)

/-- NVM_VERIFY (R432). -/
def execNvmVerify (p : Fin 4) (q : NvmeCmd) (s : State) : Out :=
  .next (s.rangeIo p q .read false (fun d _ bs => d.nvmSample p q bs (fun d _ => d.good p q)))

/-! ## The Computational Programs and Subsystem Local Memory command sets -/

/-- EXECUTE_PROGRAM (R439, R223, R224). -/
def execExecuteProgram (p : Fin 4) (q : NvmeCmd) (s : State) : Out := .next (s.io p q .execute (fun d => d.execProgram p q))

/-- LOAD_PROGRAM (R439). -/
def execLoadProgram (p : Fin 4) (q : NvmeCmd) (s : State) : Out := .next (s.io p q .other (fun d => d.loadProgram p q))

/-- PROGRAM_ACTIVATION_MANAGEMENT (R439). -/
def execProgramActivationManagement (p : Fin 4) (q : NvmeCmd) (s : State) : Out := .next (s.io p q .other (fun d => d.activate' p q))

/-- MEMORY_RANGE_SET_MANAGEMENT (R432). -/
def execMemoryRangeSetManagement (p : Fin 4) (q : NvmeCmd) (s : State) : Out := .next (s.io p q .other (fun d => d.rangeSets p q))

/-- SLM_READ (R430). -/
def execSlmRead (p : Fin 4) (q : NvmeCmd) (s : State) : Out :=
  .next ((s.onMem p q false (fun d part l =>
    let (bs, bad, d) := d.slmGet p l
    if bad then d.readBad p q
    else
      let (fl, d) := d.slmClamp p part l
      d.ended p q 0 fl 0#32 bs)).settled)

/-- SLM_WRITE (R430). -/
def execSlmWrite (p : Fin 4) (q : NvmeCmd) (s : State) : Out := .next ((s.onMem p q true (fun d part l => d.slmWrite p q part l q.data)).settled)

/-- MEMORY_COPY (R430). -/
def execMemoryCopy (p : Fin 4) (q : NvmeCmd) (s : State) : Out := .next ((s.memCopy p q).settled)

/-! ## The admin command set -/

/-- CREATE_IO_SUBMISSION_QUEUE (R428). -/
def execCreateIoSubmissionQueue (p : Fin 4) (q : NvmeCmd) (s : State) : Out := .next (s.admin p q (fun d => d.sqCreate p q))

/-- DELETE_IO_SUBMISSION_QUEUE (R444). -/
def execDeleteIoSubmissionQueue (p : Fin 4) (q : NvmeCmd) (s : State) : Out := .next (s.admin p q (fun d => d.sqDelete p q))

/-- CREATE_IO_COMPLETION_QUEUE (R428). -/
def execCreateIoCompletionQueue (p : Fin 4) (q : NvmeCmd) (s : State) : Out := .next (s.admin p q (fun d => d.cqCreate p q))

/-- DELETE_IO_COMPLETION_QUEUE (R428). -/
def execDeleteIoCompletionQueue (p : Fin 4) (q : NvmeCmd) (s : State) : Out := .next (s.admin p q (fun d => d.cqDelete p q))

/-- GET_LOG_PAGE (R433, R434, R472). -/
def execGetLogPage (p : Fin 4) (q : NvmeCmd) (s : State) : Out := .next (s.adminAll p q (fun s => s.getLog p q))

/-- IDENTIFY (R426, R429). -/
def execIdentify (p : Fin 4) (q : NvmeCmd) (s : State) : Out := .next (s.adminAll p q (fun s => s.identify p q))

/-- NVME_ABORT (R444). -/
def execNvmeAbort (p : Fin 4) (q : NvmeCmd) (s : State) : Out := .next (s.atOnce p q (fun d => d.abortCmd p q))

/-- SET_FEATURES (R433, R450). -/
def execSetFeatures (p : Fin 4) (q : NvmeCmd) (s : State) : Out := .next (s.adminAll p q (fun s => s.setFeatures p q))

/-- GET_FEATURES (R433). -/
def execGetFeatures (p : Fin 4) (q : NvmeCmd) (s : State) : Out := .next (s.admin p q (fun d => d.getFeature p q))

/-- ASYNCHRONOUS_EVENT_REQUEST (R440). -/
def execAsynchronousEventRequest (p : Fin 4) (q : NvmeCmd) (s : State) : Out := .next (s.atOnce p q (fun d => d.aerCmd p q))

/-- NAMESPACE_MANAGEMENT (R429). -/
def execNamespaceManagement (p : Fin 4) (q : NvmeCmd) (s : State) : Out := .next (s.admin p q (fun d => d.nsManage p q))

/-- NAMESPACE_ATTACHMENT (R429). -/
def execNamespaceAttachment (p : Fin 4) (q : NvmeCmd) (s : State) : Out := .next (s.admin p q (fun d => d.nsAttach p q))

/-- FORMAT_NVM (R432, R500). -/
def execFormatNvm (p : Fin 4) (q : NvmeCmd) (s : State) : Out := .next (s.adminAll p q (fun s => s.format p q))

/-- SANITIZE (R500). -/
def execSanitize (p : Fin 4) (q : NvmeCmd) (s : State) : Out := .next (s.adminAll p q (fun s => s.sanitize p q))

/-- NVME_MI_SEND (R424, R488). -/
def execNvmeMiSend (p : Fin 4) (q : NvmeCmd) (s : State) : Out := .next (s.adminAll p q (fun s => s.miSend p q))

/-- NVME_MI_RECEIVE (R424, R488). -/
def execNvmeMiReceive (p : Fin 4) (q : NvmeCmd) (s : State) : Out := .next (s.adminAll p q (fun s => s.miReceive p q))

/-- FIRMWARE_IMAGE_DOWNLOAD (R510). -/
def execFirmwareImageDownload (p : Fin 4) (q : NvmeCmd) (s : State) : Out := .next (s.adminAll p q (fun s => s.fwDownload p q))

/-- FIRMWARE_COMMIT (R510, R511). -/
def execFirmwareCommit (p : Fin 4) (q : NvmeCmd) (s : State) : Out := .next (s.adminAll p q (fun s => s.fwCommit p q))

/-- SECURITY_SEND (R501). -/
def execSecuritySend (p : Fin 4) (q : NvmeCmd) (s : State) : Out := .next (s.adminAll p q (fun s => s.secSend p q))

/-- SECURITY_RECEIVE (R501). -/
def execSecurityReceive (p : Fin 4) (q : NvmeCmd) (s : State) : Out := .next (s.adminAll p q (fun s => s.secReceive p q))

/-- INVALID_COMMAND_OPCODE (R432): an opcode of neither table, of the queue and the namespace's command set. -/
def execInvalidCommandOpcode (p : Fin 4) (opc : BitVec 8) (q : NvmeCmd) (s : State) : Out :=
  let known := if q.sq = 0 then State.admOpcodes.contains opc.toNat
    else if (Dev.memPart q.nsid).isSome then (State.ioOpcodes 3).contains opc.toNat
    else (State.ioOpcodes 0).contains opc.toNat || (State.ioOpcodes 4).contains opc.toNat
  .next (if known then s else (s.nvme p q (q.sq == 0) .other (fun s => s.onDev (fun d => d.done p q 0 1 []))).settled)

/-! ## Vendor commands (Table 16-8) -/

/-- PARTITION_SET (R436, Table 16-9). -/
def execPartitionSet (p : Fin 4) (q : NvmeCmd) (s : State) : Out := .next (s.admin p q (fun d => d.partSet p q))

/-- PARTITION_GET (R436, Table 16-9). -/
def execPartitionGet (p : Fin 4) (q : NvmeCmd) (s : State) : Out := .next (s.admin p q (fun d => d.partGet p q))

/-- CONTEXT_CONTROL (R437). -/
def execContextControl (p : Fin 4) (q : NvmeCmd) (s : State) : Out := .next (s.admin p q (fun d => d.ctxControl p q))

/-- CONTEXT_STATE (R437). -/
def execContextState (p : Fin 4) (q : NvmeCmd) (s : State) : Out := .next (s.admin p q (fun d => d.ctxState p q))

/-- OBJECT_COMMAND (R437, R245). -/
def execObjectCommand (p : Fin 4) (q : NvmeCmd) (s : State) : Out := .next (s.admin p q (fun d => d.objCmd p q))

/-- COLLECTION_COMMAND (R437, R313). -/
def execCollectionCommand (p : Fin 4) (q : NvmeCmd) (s : State) : Out := .next (s.admin p q (fun d => d.collCmd p q))

/-- RIND_IMPORT (R437, R264). -/
def execRindImport (p : Fin 4) (q : NvmeCmd) (s : State) : Out := .next (s.rindCmd p q true (fun d => d.rindImport p q))

/-- RIND_EXPORT (R437, R264). -/
def execRindExport (p : Fin 4) (q : NvmeCmd) (s : State) : Out := .next (s.rindCmd p q false (fun d => d.rindExport p q))

/-- FABRIC_ENUMERATE (R437, R287). -/
def execFabricEnumerate (p : Fin 4) (q : NvmeCmd) (s : State) : Out := .next (s.admin p q (fun d => d.fabEnum p q s.prefNode))

/-- FABRIC_STATUS (R437). -/
def execFabricStatus (p : Fin 4) (q : NvmeCmd) (s : State) : Out := .next (s.admin p q (fun d => d.fabStatus p q))

/-- SEARCH (R438, R323). -/
def execSearch (p : Fin 4) (q : NvmeCmd) (s : State) : Out := .next (s.io p q .search (fun d => d.hostSearch p q false))

/-- SEARCH_LARGE_K (R438, R344). -/
def execSearchLargeK (p : Fin 4) (q : NvmeCmd) (s : State) : Out := .next (s.io p q .search (fun d => d.hostSearch p q true))

/-- COLLECTION_APPEND (R348). -/
def execCollectionAppend (p : Fin 4) (q : NvmeCmd) (s : State) : Out := .next (s.io p q .other (fun d => d.hostAppend p q))

/-- COLLECTION_DELETE (R348). -/
def execCollectionDelete (p : Fin 4) (q : NvmeCmd) (s : State) : Out := .next (s.io p q .other (fun d => d.hostDelete p q))

/-! ## Controllers and power states -/

/-- The controller registers in BAR0 by offset, on every port (R425, Table 16-3): CAP in two words, VS, CC.EN, and CSTS.RDY, CFS and SHST. The
places of the fields are NVMe's; what the table gives no value is a constant without a value (log 75). -/
def ctrlReg (c : Ctrl) (o : Nat) : W32 :=
  match o with
  -- MQES 0x0FFF, CQR 1, AMS 0b01, TO 0x5A
  | 0x0 => (Config.ctrlRest 0 &&& 0x00F80000#32) ||| 0x5A030FFF#32
  -- DSTRD 0, NSSRS 1, CSS bits 0 and 6, MPSMIN 0, MPSMAX 4, PMRS 0, CMBS 0
  | 0x4 => (Config.ctrlRest 4 &&& 0xFC00E000#32) ||| 0x00400830#32
  | 0x8 => 0x00020000#32
  | 0x14 => (Config.ctrlRest 0x14 &&& 0xFFFFFFFE#32) ||| BitVec.ofNat 32 (b2n c.en)
  | 0x1C => (Config.ctrlRest 0x1C &&& 0xFFFFFFF0#32) ||| BitVec.ofNat 32 (b2n c.rdy + 2 * b2n c.cfs + 4 * (c.shst % 4))
  | o => Config.ctrlRest o

/-- CONTROLLER_ENABLE (R533): ready once start-up has reached NVMe ready; a stopped device stays stopped (R477). The host that enables the
controller reads its CAP (R425, log 75). -/
def execControllerEnable (p : Fin 4) (s : State) : Out :=
  .next (if s.dev.portUp p && !(s.dev.ctrl p).d3
    then s.onDev (fun d => d.modCtrl p (fun c => { c with en := true, rdy := s.aon.mainGood && s.aon.step == 9 && !c.cfs, shst := 0 }) |>.gives
      (ctrlReg (d.ctrl p) 4 ++ ctrlReg (d.ctrl p) 0) false) else s)

/-- CONTROLLER_RESET (R445): CC.EN is set to 0. -/
def execControllerReset (p : Fin 4) (s : State) : Out :=
  .next (if s.dev.portUp p && !(s.dev.ctrl p).d3 then ((s.onDev (fun d => d.ctrlReset p)).updateCap).settled else s)

/-- FUNCTION_LEVEL_RESET (R423). -/
def execFunctionLevelReset (p : Fin 4) (s : State) : Out :=
  .next (if s.dev.portUp p then ((s.onDev (fun d => d.ctrlReset p)).updateCap).settled else s)

/-- SHUTDOWN_NOTIFICATION (R451): an abrupt one is handled as a normal one. -/
def execShutdownNotification (p : Fin 4) (_abrupt : Bool) (s : State) : Out :=
  .next (if s.dev.portUp p && !(s.dev.ctrl p).d3 then
    (s.onDev (fun d => (if d.ftl.admOpen then d.holdupFlush false else d).modCtrl p (fun c => { c with shst := 2 }))).settled else s)

/-- APST_TRANSITION (R448, R450): the entry of the table for the present state names the target and its idle time. -/
def execApstTransition (p : Fin 4) (ps : Fin 5) (s : State) : Out :=
  let c := s.dev.ctrl p
  let e := (c.apstTab.getD c.ps 0#64).toNat
  .next (if s.dev.ctrlLive p && s.dev.apstIdle && (Tab.getD c.feats 0x0C 0#32).getLsbD 0 && bitsOf e 3 5 == ps.val && c.ps < ps.val && 3 ≤ ps.val &&
      bitsOf e 8 24 ≠ 0 && c.idleAt + bitsOf e 8 24 * 1000000 ≤ s.dev.now && (ps.val ≠ 4 || s.dev.mayPs4)
    then ((s.onDev (fun d => d.setPs p ps)).updateCap).settled else s)

/-- PS3_WAKE (R449): the device returns to its last operational state. -/
def execPs3Wake (s : State) : Out :=
  .next (if s.dev.devPs = 3 then (s.onDev (fun d =>
    (List.range 4).foldl (fun d p => if d.portUsed p && (d.ctrl p).ps == 3 then d.setPs p (d.ctrl p).lastOp else d) d)).updateCap else s)

/-- NON_OPERATIONAL_WAKE (R447). -/
def execNonOperationalWake (p : Fin 4) (s : State) : Out :=
  .next (if s.dev.portUsed p && 3 ≤ (s.dev.ctrl p).ps then (s.onDev (fun d => d.setPs p (d.ctrl p).lastOp)).updateCap else s)

/-! ## Ports -/

/-- Changes a connector. -/
def Dev.modConn (d : Dev) (c : Nat) (f : Port → Port) : Dev := { d with host := { d.host with ports := Tab.store d.host.ports c (f (d.conn c)) Port.reset } }

/-- PORT_RESET_PERST (R529). -/
def execPortResetPerst (conn : Bool) (s : State) : Out :=
  .next (((s.onDev (fun d =>
    ((perstPorts d.portMode (b2n conn)).filter (fun p => d.portUsed p)).foldl (fun d p => ((d.portDown p).ctrlReset p).dcqDown [0, 9] p)
      (d.modConn (b2n conn) (fun c => { c with perst := true })))).updateCap).settled)

/-- PERST_DEASSERT (R534). -/
def execPerstDeassert (conn : Bool) (s : State) : Out :=
  .next (s.onDev (fun d => d.modConn (b2n conn) (fun c => { c with perst := false, perstAt := if c.perst then s.aon.ns else c.perstAt })))

/-- HOST_LINK_DOWN (R452). -/
def execHostLinkDown (p : Fin 4) (s : State) : Out := .next (s.onDev (fun d => d.portDown p))

/-- The Vat PCIe controller has started (R533). -/
def State.pcieUp (s : State) : Bool := s.aon.mainGood && 3 ≤ s.aon.step
/-- A port may train (R421, R529, R540). -/
def State.mayTrain (s : State) (p : Nat) : Bool :=
  s.pcieUp && s.dev.portUsed p && (s.dev.connsOf p).all (fun c => (s.dev.conn c).cable) &&
    [0, 1].all (fun c => !(perstPorts s.dev.portMode c).contains p || !(s.dev.conn c).perst)

/-- HOST_LINK_UP (R452, R422): a rate of Table 16-2, a width of the mode or less, flit mode at 64 GT/s. -/
def execHostLinkUp (p : Fin 4) (speed : Fin 7) (width : Fin 17) (flit : Bool) (s : State) : Out :=
  .next (if s.mayTrain p && 1 ≤ speed.val && [1, 2, 4, 8, 16].contains width.val && width.val ≤ portLanes s.dev.portMode && (flit || speed.val ≠ 6)
    then s.onDev (fun d => d.setFlds (R.hostLink p) [(F.hostLink_speed, speed.val), (F.hostLink_width, width.val), (F.hostLink_flit, b2n flit), (F.hostLink_up, 1)]) else s)

/-- CABLE_PRESENT_CHANGE (R540): an open contact holds its ports' links down. -/
def execCablePresentChange (conn present : Bool) (s : State) : Out :=
  .next (s.onDev (fun d =>
    let d := d.modConn (b2n conn) (fun c => { c with cable := present })
    if present then d else ((connPorts d.portMode (b2n conn)).filter (fun p => d.portUsed p)).foldl (fun d p => d.portDown p) d))

/-- A word of a function's configuration space (Table 16-2): what the spec gives no value is a constant without a value (log 45). -/
def cfgRead (c : Ctrl) (o : Nat) : W32 :=
  match o with
  | 0x00 => (Config.cfgWord 0 &&& 0xFFFF0000#32) ||| 0x1F5C#32
  | 0x04 => (Config.cfgWord 4 &&& 0xFFFFF800#32) ||| Tab.getD c.cfg 4 0#32
  | 0x08 => 0x01080200#32 ||| (Config.cfgWord 8 &&& 0xFF#32)
  | 0x0C => Config.cfgWord 12 &&& 0xFF00FFFF#32
  | 0x10 => Tab.getD c.cfg 0x10 0#32 ||| 4#32
  | 0x14 => Tab.getD c.cfg 0x14 0#32
  | 0x18 | 0x1C | 0x20 | 0x24 => 0#32
  | 0x44 => (Config.cfgWord 0x44 &&& 0xFFFFFFFC#32) ||| (if c.d3 then 3#32 else 0#32)
  | o => Config.cfgWord o
/-- A write to it: command register, BAR0 and the power state of PMCSR (log 45); D1 and D2 are not supported. -/
def cfgWrite (c : Ctrl) (o : Nat) (v : W32) : Ctrl :=
  match o with
  | 0x04 => { c with cfg := Tab.store c.cfg 4 (v &&& 0x7FF#32) 0#32 }
  | 0x10 => { c with cfg := Tab.store c.cfg 0x10 (v &&& 0xFFFF0000#32) 0#32 }
  | 0x14 => { c with cfg := Tab.store c.cfg 0x14 v 0#32 }
  | 0x44 => { c with d3 := if v.toNat % 4 = 3 then true else if v.toNat % 4 = 0 then false else c.d3 }
  | _ => c

/-- PCIE_CONFIGURATION_REQUEST (R534, Table 16-2). -/
def execPcieConfigurationRequest (p : Fin 4) (off : BitVec 12) (wr : Bool) (v : W32) (s : State) : Out :=
  let o := alignDown off.toNat 4
  .next (if s.pcieUp && s.dev.portUp p then
    s.onDev (fun d => if wr then d.modCtrl p (fun c => cfgWrite c o v) else { d with rdata := (cfgRead (d.ctrl p) o).setWidth 64, rflags := 0, rstatus := 0 }) else s)

/-! ## Admin commands from the management port (R488, R489) -/

/-- The tunnelled commands of Table 18-3. -/
def tunnelled (opc : Nat) (s : State) (p : Nat) (q : NvmeCmd) : Option State :=
  match opc with
  | 0x02 => some (s.getLog p q)
  | 0x06 => some (s.identify p q)
  | 0x0A => some (s.onDev (fun d => d.getFeature p q))
  | 0x10 => some (s.fwCommit p q)
  | 0x11 => some (s.fwDownload p q)
  | 0x81 => some (s.secSend p q)
  | 0x82 => some (s.secReceive p q)
  | _ => none

/-- TUNNELLED_ADMIN_COMMAND (R488, R489): the command runs outside the controller's queues; its completion is the reply. -/
def execTunnelledAdminCommand (p : Fin 4) (opc : BitVec 8) (q : NvmeCmd) (s : State) : Out :=
  let q : NvmeCmd := { q with sq := 0, cid := 0x10000 }
  let s1 := s.onDev (fun d => d.modCtrl p (fun c => { c with outst := c.outst ++ [⟨q, .other, false, true, none, none, 0, 0⟩] }))
  .next (if !s.mgmtFull then s.replying []
    else if !s.aon.mainGood then s.replying [2#8]
    else if !s.dev.portUsed p then s.replying [4#8]
    else match tunnelled opc.toNat s1 p q with
      | none => s.replying [3#8]
      | some t =>
        let l := (t.dev.ctrl p).cpls.filter (fun c => c.cid == 0x10000)
        let t := t.onDev (fun d => if l.isEmpty then d else d.modCtrl p (fun c => { c with cpls := c.cpls.filter (fun c => c.cid != 0x10000) }))
        (t.replying ([0#8] ++ l.flatMap (fun c => leBytes 4 c.dw0.toNat ++ leBytes 4 c.dw1.toNat ++ leBytes 2 (c.sc * 2 + c.sct * 512) ++ c.data))).settled)

end Sys2Proof.Machine
end

