-- ==== Sys2Proof/Machine/ExecMm.lean ====
section
/-! DEFINITION. MM.MAC (R136 to R138, R153 to R158, R161, R167, R182 to R185, R196): what it computes, the packing mode, how its
results reach scratch. -/
namespace Sys2Proof.Machine

/-- The operand formats that pair in one row of Table 05-8; 0 for a format outside the table. -/
def mmClass : Fmt → Nat
  | .e4m3 | .e5m2 => 1
  | .mxE4m3 | .mxE5m2 => 2
  | .int8 => 3
  | .mxE2m1 => 4
  | .int4 => 5
  | .bf16 => 6
  | .fp16 => 7
  | _ => 0

/-- The shape and the modifiers of an MM.MAC, after its clamps. -/
structure MmShape where
  a : Tensor
  w : Tensor
  z : Tensor
  c : Tensor
  ta : Bool
  tb : Bool
  acc : Bool
  bias : Bool
  osidx : Nat
  osc : Bool
  act : Nat
  rblk : Nat
  k : Nat
  m : Nat
  n : Nat
  b2 : Nat
  b3 : Nat
  deriving DecidableEq, Repr

namespace MmShape

/-- TDA's extent of the reduction and of the vectors; TDB's of the reduction and of the outputs. -/
def aK (g : MmShape) : Nat := if g.ta then g.a.d1 else g.a.d0
def aN (g : MmShape) : Nat := if g.ta then g.a.d0 else g.a.d1
def wK (g : MmShape) : Nat := if g.tb then g.w.d1 else g.w.d0
def wM (g : MmShape) : Nat := if g.tb then g.w.d0 else g.w.d1
/-- Operands are of an integer format. -/
def int (g : MmShape) : Bool := g.a.fmt.isInt
/-- The output is a Score accumulator (R183 item 1). -/
def score (g : MmShape) : Bool := g.z.fmt = .score
/-- The exact case of R183 item 2. -/
def exact (g : MmShape) : Bool := g.int && g.z.fmt = .int32 && g.a.smode = 0 && g.w.smode = 0 && !g.osc && g.act = 0
/-- Nothing is written (R137). -/
def none (g : MmShape) : Bool := g.m * g.n * g.b2 * g.b3 = 0
/-- TDB's index in a batch dimension: 0 where its extent is 1 (R136). -/
def wIdx (e i : Nat) : Nat := if e = 1 then 0 else i

end MmShape

/-- Splits a list in blocks of 32 and joins what f makes of each. -/
def blocks32 (f : List FV → List FV) (l : List FV) : List FV := (List.range (ceilDiv l.length 32)).flatMap (fun b => f ((l.drop (32 * b)).take 32))
/-- The values of a block converted to an MX format and read back (R190). -/
def mxRound (f : Fmt) (l : List FV) : List FV := let s := mxBlockScale f l; l.map (fun v => elemVal f (mxCode f v s) s)
/-- Rows as columns. -/
def transposed (n : Nat) (l : List (List FV)) : List (List FV) := (List.range n).map (fun k => l.map (fun r => r.getD k (.fin false 0 0)))
/-- The fused activation (Table 05-7, R185). -/
def mmAct (f : Nat) (v : W32) : W32 := match f with | 1 => frelu v | 2 => fsilu v | 3 => fgelu v | _ => v

/-- The array figures of Table 06-2: reduction elements of a row, vector interval, steps of a weight load. -/
def mmFigures : Fmt → Nat × Nat × Nat
  | .bf16 | .fp16 => (1, 4, 128)
  | .mxE2m1 | .int4 => (2, 1, 64)
  | _ => (1, 1, 64)
/-- A packing mode (Table 06-3): sub-arrays, their rows and columns. -/
def mmMode (m : Nat) : Nat × Nat × Nat := match m with | 0 => (1, 64, 64) | 1 => (2, 64, 32) | 2 => (4, 32, 32) | _ => (16, 16, 16)
/-- The extents of TDB's batch dimensions that its weights are separate over, and those over which they are shared (R136, R156). -/
def mmSep (g : MmShape) : Nat := (if g.w.d2 = 1 then 1 else g.b2) * (if g.w.d3 = 1 then 1 else g.b3)
def mmShared (g : MmShape) : Nat := (if g.w.d2 = 1 then g.b2 else 1) * (if g.w.d3 = 1 then g.b3 else 1)
/-- Vectors a chunk: the quotient of R154. Where it is 0 (C_a above E) the spec gives no chunk; the model takes 1 vector (DESIGN CHOICE,
log 77). -/
def mmChunk (g : MmShape) (mode : Nat) : Nat :=
  let c := (mmMode mode).2.2
  max 1 (min 1024 ((if g.score then 32768 else 65536) / max 1 (c * ceilDiv (ceilDiv g.m c) 4)))
/-- The chunks that run: with RBLK so small that K·N bytes of one fit the rotation buffer (R160; 1 vector where none does: log 77). -/
def mmChunkRun (g : MmShape) (mode : Nat) : Nat := if g.rblk = 0 then mmChunk g mode else max 1 (min (mmChunk g mode) (262144 / max 1 g.k))
/-- The estimated steps of a mode (R156). -/
def mmSteps (g : MmShape) (mode : Nat) : Nat :=
  let f := mmFigures g.a.fmt
  let s := mmMode mode
  let u := ceilDiv g.k (f.1 * s.2.1) * ceilDiv (ceilDiv g.m s.2.2) 4 * mmSep g
  let total := g.n * mmShared g
  let len := max (f.2.1 * ceilDiv (min (mmChunk g mode) total) s.1) f.2.2
  f.2.2 + u * len * ceilDiv total (mmChunk g mode) + (s.2.1 + s.2.2 - 1) + 4 + 64 * b2n g.ta
/-- The vectors of the chunks in the order in which they run (R154). -/
def mmChunks (g : MmShape) (mode : Nat) : List Nat :=
  let total := g.n * mmShared g
  let ch := mmChunkRun g mode
  (List.range (mmSep g)).flatMap (fun _ => List.replicate (total / ch) ch ++ (if total % ch = 0 then [] else [total % ch]))
/-- The steps that an array with q tiles a chunk has a pass in flight, and those that it waits between passes, where nothing disturbs it
(R150, R151, R154, R160, R163): v·n + r + c − 1 a pass, the next pass begun L_w steps later at least, one that continues a reduction once
the result of its tile's last pass has left, a chunk once it is rotated. -/
def mmLane (g : MmShape) (mode q : Nat) : List Nat → Nat × Nat
  | [] => (0, 0)
  | n :: rest =>
    let f := mmFigures g.a.fmt
    let s := mmMode mode
    let lat := s.2.1 + s.2.2 - 1
    let kt := ceilDiv g.k (f.1 * s.2.1)
    let rounds := ceilDiv (ceilDiv g.m s.2.2) 4
    let flight := f.2.1 * ceilDiv n s.1 + lat
    let len := max (f.2.1 * ceilDiv n s.1) f.2.2
    let row := max (rounds * len) lat
    let whole := (kt - 1) * row + rounds * len
    let dist := fun (i x : Nat) => (i * min x flight, i * (x - flight))
    let inner := dist (kt * (q - 1)) len
    let rows := dist (kt - 1) (row - (q - 1) * len)
    let last := match rest with
      | [] => (flight, 0)
      | n' :: _ => dist 1 (max whole (if g.rblk = 0 then 0 else ceilDiv (g.k * n') 256) - ((kt - 1) * row + (q - 1) * len))
    let l := mmLane g mode q rest
    (inner.1 + rows.1 + last.1 + l.1, inner.2 + rows.2 + last.2 + l.2)
/-- The mode of least estimate among those permitted, ties to the larger sub-array (R156, Table 06-5a). -/
def mmPick (g : MmShape) (packMax : Nat) : Nat :=
  (List.range (4 - packMax)).foldl (fun b m => if mmSteps g m < mmSteps g b then m else b) 0

namespace Dev

/-- The shape of an MM.MAC, its operands with their clamps, and its own clamps (R136 to R138, Table 05-7). With a Score output and BIAS set
TDC stays an operand: its clamps, its invalid pages and a TDC too short count beside the one clamp of a BIAS that is not applied (R183
does not say; DESIGN CHOICE, log 77). -/
def mmShape (d : Dev) (c : Nat) (x : Ctx) (w e : W64) : MmShape × List Opnd × Nat :=
  let mod := tMod w
  let bias0 := mod.testBit 3
  let rlrn := bit64 e 52
  let act0 := bits64 e 13 3
  let r0 := bits64 e 16 4
  let rblk := if r0 = 0 then 0 else clampTo 4 12 r0
  let a0 := (tensorOf (x.td (tTda w))).1.fmt
  let a := d.operandOf c only0 (if mmClass a0 = 0 then tensorAs (x.td (tTda w)) .bf16 else tensorOf (x.td (tTda w)))
  let w0 := (tensorOf (x.td (tTdb w))).1.fmt
  let b := d.operandOf c only0 (if mmClass w0 = mmClass a.t.fmt then tensorOf (x.td (tTdb w)) else tensorAs (x.td (tTdb w)) a.t.fmt)
  let z0 := (tensorOf (x.td (tTdd w))).1.fmt
  let z := d.operandOf c only0 (if z0 = .score && !a.t.fmt.isInt then tensorAs (x.td (tTdd w)) .fp32 else tensorOf (x.td (tTdd w)))
  let bias := bias0 && !rlrn
  let useC := bias || (rlrn && rblk != 0)
  let t := d.operandOf c only0 (if rlrn then tensorRead (x.td (tTdc w)) .int8 else tensorOf (x.td (tTdc w)))
  let ta := mod.testBit 0
  let tb := mod.testBit 1
  let aK := if ta then a.t.d1 else a.t.d0
  let aN := if ta then a.t.d0 else a.t.d1
  let wK := if tb then b.t.d1 else b.t.d0
  let wM := if tb then b.t.d0 else b.t.d1
  let be := fun (i : Nat) => let v := min (a.t.dim i) (z.t.dim i); if b.t.dim i ≠ 1 && b.t.dim i < v then b.t.dim i else v
  let bb := fun (i : Nat) => b2n (a.t.dim i != z.t.dim i || (b.t.dim i != 1 && b.t.dim i != min (a.t.dim i) (z.t.dim i)))
  let osc := bit64 e 12
  let act := if 3 < act0 then 0 else act0
  let score := z.t.fmt = .score
  let exact := a.t.fmt.isInt && z.t.fmt = .int32 && a.t.smode = 0 && b.t.smode = 0 && !osc && act = 0
  -- a scale that varies along the reduction cannot be taken out of an integer sum (R183)
  let one := a.t.fmt.isInt && !score && !exact
  let aOne := one && a.t.smode = (if ta then 3 else 2)
  let wOne := one && b.t.smode = (if tb then 3 else 2)
  let g : MmShape := {
    a := a.t, w := { b.t with smode := if wOne then 1 else b.t.smode }, z := z.t, c := t.t, ta := ta, tb := tb,
    acc := mod.testBit 2, bias := bias, osidx := bits64 e 0 12, osc := osc, act := act, rblk := rblk, k := min aK wK, m := min wM z.t.d0,
    n := min aN z.t.d1, b2 := be 2, b3 := be 3 }
  let n := b2n (3 < act0) + b2n (rblk != r0) + b2n (bias0 && rlrn) + b2n (aK != wK) + b2n (wM != z.t.d0) + b2n (aN != z.t.d1) + bb 2 + bb 3 +
    b2n (bias && t.t.count < g.m) + b2n (aOne) + b2n wOne + srBad z.t.fmt (mod.testBit 4) +
    (if score then b2n (a.t.smode != 0) + b2n (b.t.smode != 0) + b2n bias + b2n (act != 0) + b2n osc else 0)
  (g, [z, a, b] ++ (if useC then [t] else []), n)
/-- TDA as the product's scales read it: an integer sum takes no scale that varies along the reduction (R183). -/
def mmAScale (g : MmShape) : Tensor := if g.int && g.a.smode = (if g.ta then 3 else 2) then { g.a with smode := 1 } else g.a

/-- The signs of the rotation of A (R195, Table 05-7). -/
def mmSigns (d : Dev) (c : Nat) (x : Ctx) (g : MmShape) (e : W64) : List Bool :=
  if bit64 e 52 then d.tensorSigns c x g.c g.k else seedSigns (bits64 e 20 32) g.k
/-- TDA's vectors of one problem: the elements along the reduction of each (R136), rotated where RBLK is set (R196): of an MX format the blocks
that hold a rotated channel are formed again. An integer TDA whose SMODE is 0b00 has scale 1 and zero point 0, with no clamp: R189 says so
of float formats only (DESIGN CHOICE, log 77). -/
def mmVectors (d : Dev) (c : Nat) (x : Ctx) (g : MmShape) (signs : List Bool) (b2 b3 : Nat) : List (List FV) :=
  let at' := fun n k => if g.ta then d.elemAt c x g.a n k b2 b3 else d.elemAt c x g.a k n b2 b3
  if g.rblk = 0 || g.k = 0 then (List.range g.n).map (fun n => (List.range g.k).map (at' n))
  else
    let tail := (rotBlock g.k g.rblk).2
    let body := g.k - tail
    let u := fun n k => if g.ta then d.scaleFor x g.a (intTarget g.a.fmt) n k else d.scaleFor x g.a (intTarget g.a.fmt) k n
    let turned := (List.range g.aN).map (fun n =>
      let v := (List.range g.aK).map (at' n)
      let y := whtRow g.rblk false signs ((List.range g.k).map (fun k => as32 (dequantise g.a.fmt (u n k) (v.getD k (.fin false 0 0)))))
      let q := fun k =>
        let r := quantise g.a.fmt (u n k) (dec32 (y.getD k 0#32))
        if g.a.fmt.isMx then r else elemVal g.a.fmt (elemCode g.a.fmt r) 0
      (List.range g.aK).map (fun k => if k < body then q k else v.getD k (.fin false 0 0)))
    if !g.a.fmt.isMx then turned
    else if g.ta then
      let cols := transposed g.aK turned
      transposed g.aN (((cols.take body).map (blocks32 (mxRound g.a.fmt))) ++ cols.drop body)
    else turned.map (fun v => blocks32 (mxRound g.a.fmt) (v.take (32 * ceilDiv body 32)) ++ v.drop (32 * ceilDiv body 32))
/-- TDB's weights of output m of a problem, along the reduction (R136). -/
def mmWeights (d : Dev) (c : Nat) (x : Ctx) (g : MmShape) (m b2 b3 : Nat) : List FV :=
  (List.range g.k).map (fun k =>
    let i2 := MmShape.wIdx g.w.d2 b2
    let i3 := MmShape.wIdx g.w.d3 b3
    if g.tb then d.elemAt c x g.w m k i2 i3 else d.elemAt c x g.w k m i2 i3)
/-- The scale c of the product of element k of vector n and output m (R182, R184). -/
def mmScale (d : Dev) (x : Ctx) (g : MmShape) (m n k : Nat) : W32 :=
  let a := mmAScale g
  let sA := if g.ta then d.scaleFor x a none n k else d.scaleFor x a none k n
  let sW := if g.tb then d.scaleFor x g.w none m k else d.scaleFor x g.w none k m
  fmul sA.s sW.s
/-- One output element (R153, R182 to R185; K of 0: R137): v and u are the vector and the weights, old the present value of TDD, b
the bias. R184 gives rne(NaN) no value: an integer output under OSC then takes a value that nothing constrains (log 77). -/
def mmElement (d : Dev) (x : Ctx) (g : MmShape) (m n : Nat) (v u : List FV) (old b : FV) : FV :=
  let acc := ((v.zip u).map (fun p => asInt p.1 * asInt p.2)).foldl (· + ·) 0
  let old32 := signedOf 32 (elemCode .int32 old)
  let b32 := signedOf 32 (elemCode .int32 b)
  if g.int && g.score then FV.ofInt (signedOf 48 (wrapTo 48 (acc + (if g.acc then asInt old else 0))))
  else if g.exact then FV.ofInt (signedOf 32 (wrapTo 32 (acc + (if g.bias then b32 else 0) + (if g.acc then old32 else 0))))
  else
    let s0 := if g.k = 0 then 0#32
      else if g.int then fmul (d.mmScale x g m n 0) (fofInt (signedOf 32 (wrapTo 32 acc)))
      else ((List.range g.k).zip (v.zip u)).foldl (fun s p => fadd s (fmul (d.mmScale x g m n p.1) (as32 (p.2.1.mul p.2.2)))) 0#32
    let s1 := if g.bias then fadd s0 (as32 b) else s0
    let s2 := if g.acc then fadd s1 (as32 old) else s1
    let s3 := if g.k = 0 then s2 else mmAct g.act s2
    if g.osc then
      let o := d.winScale x g.osidx (intTarget g.z.fmt)
      let r := fmul o.s s3
      if g.z.fmt.isInt then FV.ofInt (satTo g.z.fmt.intBits (if dec32 r = .nan then Config.oscNan o.s o.z else rne64 r + o.z)) else dec32 r
    else dec32 s3
/-- The new values of TDD in linear index order (R136, R137). -/
def mmValues (d : Dev) (c : Nat) (x : Ctx) (g : MmShape) (e : W64) : List (Option FV) :=
  let signs := if g.rblk = 0 then [] else d.mmSigns c x g e
  let bias := fun m => if g.bias && m < g.c.count then (let p := idxOf g.c m; d.elemAt c x g.c p.1 p.2.1 p.2.2.1 p.2.2.2) else .fin false 0 0
  (List.range g.z.d3).flatMap (fun i3 => (List.range g.z.d2).flatMap (fun i2 =>
    if g.b2 ≤ i2 || g.b3 ≤ i3 then List.replicate (g.z.d0 * g.z.d1) none
    else
      let vs := d.mmVectors c x g signs i2 i3
      let us := (List.range g.m).map (fun m => d.mmWeights c x g m i2 i3)
      (List.range g.z.d1).flatMap (fun n => (List.range g.z.d0).map (fun m =>
        if g.m ≤ m || g.n ≤ n then none
        else some (d.mmElement x g m n ((vs.getD n []).take g.k) (us.getD m []) (if g.acc then d.elemAt c x g.z m n i2 i3 else .fin false 0 0) (bias m))))))
/-- The scale entries that an MM.MAC uses: of A, of W, of the output (R87, R188). -/
def mmScaleUses (d : Dev) (x : Ctx) (g : MmShape) : List (List ScaleUse) :=
  let used := fun (t : Tensor) (tr : Bool) zt k n => if tr then d.scaleUses x t zt n k else d.scaleUses x t zt k n
  -- channels that pass unrotated are not converted back: their entries are not used there (R188, R196)
  let rot := if g.rblk ≠ 0 && !g.none then used g.a g.ta (intTarget g.a.fmt) (g.k - (rotBlock g.k g.rblk).2) g.n else []
  let sum := !g.score && !g.exact && !g.none
  [rot ++ (if sum then used (mmAScale g) g.ta none g.k g.n else []), if sum then used g.w g.tb none g.k g.m else [],
   if g.osc && !g.score && !g.none then [d.winScale x g.osidx (intTarget g.z.fmt)] else []]
/-- The scratch places that an MM.MAC reads, TDD's apart. -/
def mmReads (g : MmShape) : List Nat :=
  if g.none then [] else
  let a := if g.rblk ≠ 0 then allPlaces g.a else if g.ta then extentPlaces g.a g.n g.k g.b2 g.b3 else extentPlaces g.a g.k g.n g.b2 g.b3
  let e2 := if g.w.d2 = 1 then 1 else g.b2
  let e3 := if g.w.d3 = 1 then 1 else g.b3
  (if g.k = 0 then [] else a ++ (if g.tb then extentPlaces g.w g.m g.k e2 e3 else extentPlaces g.w g.k g.m e2 e3)) ++ (if g.bias then linPlaces g.c g.m else [])
/-- Bytes of TDD that overlap an operand hold free values (R161). -/
def mmFree (d : Dev) (x : Ctx) (ops : List Nat) (ws : List SWrite) : List SWrite :=
  ws.map (fun w => if ops.contains (scrClip x w.addr) then { w with val := BitVec.ofNat 8 (d.freeAt (scrClip x w.addr)).toNat } else w)
/-- The place of an element of TDD in the order of the work: problem of separate weights, chunk, output tile (R154). -/
def mmKey (g : MmShape) (mode m n b2 b3 : Nat) : Nat :=
  let own := (if g.w.d2 = 1 then 0 else b2) + (if g.w.d2 = 1 then 1 else g.b2) * (if g.w.d3 = 1 then 0 else b3)
  let shared := (if g.w.d2 = 1 then b2 else 0) + (if g.w.d2 = 1 then g.b2 else 1) * (if g.w.d3 = 1 then b3 else 0)
  let c := (mmMode mode).2.2
  (own * ceilDiv (g.n * mmShared g) (mmChunkRun g mode) + (n + g.n * shared) / mmChunkRun g mode) * ceilDiv g.m c + m / c
/-- The instruction's effect as a whole, and its output in tiles of the mode's columns: the array of each (R154), its results. -/
def mmWork (d : Dev) (c : Nat) (x : Ctx) (w e : W64) (mode : Nat) : Work × List (Nat × List SWrite) :=
  let (g, ops, n) := d.mmShape c x w e
  let sign := g.rblk ≠ 0 && g.k ≠ 0 && !g.none
  let tailClamp := b2n (sign && (rotBlock g.k g.rblk).2 != 0) + b2n (sign && bit64 e 52 && g.c.count < g.k)
  let vals := d.mmValues c x g e
  let overs := ((allPlaces g.a ++ allPlaces g.w ++ (if 3 < ops.length then allPlaces g.c else [])).map (scrClip x)).eraseDups
  let puts := (d.putAt c x g.z (if (tMod w).testBit 4 then some (x.s 31) else none) vals).map (fun p => (p.1, d.mmFree x overs p.2))
  let mt := ceilDiv g.m (mmMode mode).2.2
  let keyed := puts.map (fun p => (mmKey g mode p.1.1 p.1.2.1 p.1.2.2.1 p.1.2.2.2, p.2))
  let keys := (keyed.map (·.1)).eraseDups.foldr (fun k l => (l.filter (· < k)) ++ k :: l.filter (k < ·)) []
  let reads := mmReads g ++ (if sign && bit64 e 52 then linPlaces g.c g.k else []) ++ oldPlaces g.z vals ++ (if g.acc then extentPlaces g.z g.m g.n g.b2 g.b3 else [])
  ({
     ops := ops, clamps := n + tailClamp + scaleClamps (d.mmScaleUses x g), flags := if g.k = 0 then 2 else 0, reads := reads,
     writes := puts.flatMap (·.2), status := none, scales := [], draws := if overs.isEmpty then 0 else x.allot },
   keys.map (fun k => (k % max 1 mt % 4, (keyed.filter (fun p => p.1 == k)).flatMap (·.2))))

/-- MM.MAC is issued (R136, R158): it is whole at once where no pass runs (R137, R157). -/
def mmIssue (d : Dev) (c : Nat) (x : Ctx) (w e : W64) : Leave :=
  if x.mm.isSome then .wait d else
  let g := (d.mmShape c x w e).1
  let mode := mmPick g (d.fld (R.kuduCtrl x.core) F.kuduCtrl_packMax)
  let (k, tiles) := d.mmWork c x w e mode
  match k.reads.find? (fun o => d.scrBad c x [o]) with
  | some o => .overs (((d.noteOpnds c k.ops).clampC c k.clamps).abortTask c 0 0 (mkAddr d.nodeId 0 (scrKey x (scrClip x o))))
  | none =>
    let f := d.noted c x k
    let f : Dev := { f with draws := f.draws + k.draws }
    if g.k = 0 || g.none then .next (f.scrWrite c k.writes)
    else
      let s := mmMode mode
      let mt := ceilDiv g.m s.2.2
      let work := (List.range 4).map (fun a => let q := ((List.range mt).filter (fun t => t % 4 == a)).length; if q = 0 then (0, 0) else mmLane g mode q (mmChunks g mode))
      .next ((f.modCtx c (fun y => { y with mm := some ⟨tiles, 0, ceilDiv g.k ((mmFigures g.a.fmt).1 * s.2.1), mode, work, f.seMoved x.core, false⟩ })).mmGo x.core)
/-- The output stage has written the last element (R158): passes and steps are counted and charged (R165). -/
def mmComplete (d : Dev) (c : Nat) : Dev :=
  match d.ctx? c with
  | none => d
  | some x => match x.mm with
    | none => d
    | some m =>
      let k := x.core
      if (d.core k).cur ≠ some c || d.isFenced (unitId 1 k) || !d.flag (R.kuduCtrl k) F.kuduCtrl_run then d else
      ((d.mmWhole k c m).scrWrite c ((m.tiles.drop m.done).flatMap (·.2))).modCtx c (fun y => { y with mm := none })

end Dev

/-- MM.MAC (R136). -/
def execMmMac (c : BitVec 12) (w x : W64) (s : State) : Out :=
  .next ((s.onDev (fun d => d.run c.toNat w x 4 0 .opt (if (tMod w).testBit 4 then [31] else []) (fun d y e _ => d.mmIssue c.toNat y w e))).settled)
/-- MM_MAC_COMPLETE (R158). -/
def execMmMacComplete (c : BitVec 12) (s : State) : Out := .next (s.onDev (fun d => d.mmComplete c.toNat))

end Sys2Proof.Machine
end

