-- ==== Sys2Proof/Machine/ExecPart.lean ====
section
/-! DEFINITION. The commands of partitions, launches and the scheduler (chapter 09), of stream engines (chapter 08) and of the
arrays and the core control (chapter 06). -/
namespace Sys2Proof.Machine

/-- STREAM_BEAT_GRANT (R204, R205). -/
def execStreamBeatGrant (k : Fin 64) (s : State) : Out := .next (s.onDev (fun d => d.arbStep k))
/-- STREAM_BEAT_LAND (R199, R202, R210): beat b, from the oldest in flight on the core. -/
def execStreamBeatLand (k : Fin 64) (b : Fin 256) (s : State) : Out := .next ((s.onDev (fun d => match (d.core k).inflight[b.val]? with | some q => (d.landBeat k b).tokFlush q.ctx | none => d)).settled)
/-- STREAM_TRANSFER_COMPLETE (R124, R198, R201). -/
def execStreamTransferComplete (c : BitVec 12) (e : Fin 4) (s : State) : Out := .next ((s.onDev (fun d => ((d.tokFlush c.toNat).tokClose c.toNat e).xferComplete c.toNat e)).settled)
/-- TASK_ABORT (R210, R211): causes 4 to 7 do not occur (Table 08-6). -/
def execTaskAbort (c : BitVec 12) (cause : Fin 8) (e : Fin 4) (a : W64) (s : State) : Out :=
  .next (if 4 ≤ cause.val then s else (s.onDev (fun d => d.abortTask c.toNat cause e a)).settled)
/-- TASK_RESTART (R93, R211). -/
def execTaskRestart (c : BitVec 12) (s : State) : Out := .next (s.onDev (fun d => d.restartTask c.toNat))
/-- SE_PAUSE (R216). -/
def execSePause (r : Req) (k : Fin 64) (e : Fin 4) (on : Bool) (s : State) : Out :=
  .next (s.onDev (fun d => d.regDo r (R.seCtrl k e) (fun d => d.setFld (R.seCtrl k e) F.seCtrl_pause (b2n on))))

/-- ARRAY_GAP_BEGIN (R163, R166). -/
def execArrayGapBegin (k : Fin 64) (m : Fin 4) (s : State) : Out := .next (s.onDev (fun d => d.gapBegin k m))
/-- ARRAY_RAMP_DOWN_START (R164). -/
def execArrayRampDownStart (k : Fin 64) (m : Fin 4) (s : State) : Out := .next (s.onDev (fun d => d.rampDown k m))
/-- ARRAY_RAMP_INTERVAL (R164). -/
def execArrayRampInterval (k : Fin 64) (m : Fin 4) (s : State) : Out := .next (s.onDev (fun d => d.rampInterval k m))
/-- ARRAY_RAMP_UP (R164, R166). -/
def execArrayRampUp (k : Fin 64) (m : Fin 4) (s : State) : Out := .next (s.onDev (fun d => d.rampUp k m))
/-- KUDU_CORE_STOP (R167, R170). -/
def execKuduCoreStop (r : Req) (k : Fin 64) (s : State) : Out := .next (s.onDev (fun d => d.regDo r (R.kuduCtrl k) (fun d => d.coreStop k)))
/-- KUDU_CORE_STOPPED (R167). -/
def execKuduCoreStopped (k : Fin 64) (s : State) : Out := .next (s.onDev (fun d => d.coreStopped k))
/-- KUDU_CORE_RUN (R167, R170). -/
def execKuduCoreRun (r : Req) (k : Fin 64) (s : State) : Out := .next (s.onDev (fun d => d.regDo r (R.kuduCtrl k) (fun d => d.coreRun k)))
/-- KUDU_SCALE_WRITE (R171). -/
def execKuduScaleWrite (r : Req) (k : Fin 64) (e : BitVec 12) (hi : Bool) (v : W32) (s : State) : Out :=
  .next (s.onDev (fun d => d.regDo r (R.kuduCtrl k + 0x8000 + 8 * e.toNat + 4 * b2n hi) (fun d => d.scaleWrite k e.toNat hi v)))

/-- LAUNCH_SUBMIT (R223). -/
def execLaunchSubmit (r : Req) (a : W64) (s : State) : Out :=
  .next ((s.onDev (fun d => d.regDo r R.partLaunchLo (fun d => d.launchDoorbell r a))).settled)
/-- LAUNCH_DEQUEUE (R96, R97, R98, R224). -/
def execLaunchDequeue (p : Fin 16) (s : State) : Out := .next ((s.onDev (fun d => d.dequeue p)).settled)
/-- COMPLETION_RECORD_WRITE (R99, R100). -/
def execCompletionRecordWrite (c : BitVec 12) (s : State) : Out := .next ((s.onDev (fun d => d.finishCtx c.toNat)).settled)
/-- PART_KUDU_OWN_WRITE (R221). -/
def execPartKuduOwnWrite (r : Req) (k : Fin 64) (v : W32) (s : State) : Out :=
  .next (s.onDev (fun d => d.regDo r (R.partKuduOwn k) (fun d => d.kuduOwnWrite k v)))
/-- KUDU_OWNER_APPLY (R221). -/
def execKuduOwnerApply (k : Fin 64) (s : State) : Out := .next (s.onDev (fun d => d.kuduOwnApply k))
/-- PART_CHAM_OWN_WRITE (R221). -/
def execPartChamOwnWrite (r : Req) (k : Fin 32) (v : W32) (s : State) : Out :=
  .next (s.onDev (fun d => d.regDo r (R.partChamOwn k) (fun d => d.chamOwnWrite k v)))
/-- PART_CFG_WRITE (R219). -/
def execPartCfgWrite (r : Req) (p : Fin 16) (v : W32) (s : State) : Out :=
  .next (s.onDev (fun d => d.regDo r (R.partCfg p) (fun d => d.partCfgWrite p v)))
/-- PART_ORYX_WRITE (R220). -/
def execPartOryxWrite (r : Req) (p : Fin 16) (v : W32) (s : State) : Out :=
  .next (s.onDev (fun d => d.regDo r (R.partOryx p) (fun d => d.partOryxWrite p v)))
/-- SLICE_END (R228, R230, R231). -/
def execSliceEnd (p : Fin 16) (s : State) : Out := .next ((s.onDev (fun d => d.sliceEnd p)).settled)
/-- CONTEXT_SWITCH (R227). -/
def execContextSwitch (k : Fin 64) (c : BitVec 12) (s : State) : Out := .next (s.onDev (fun d => d.switchOn k c.toNat))
/-- CORE_STEAL (R232). -/
def execCoreSteal (k : Fin 64) (s : State) : Out := .next ((s.onDev (fun d => d.steal k)).settled)
/-- ALL_BLOCKED_SWAP (R233). -/
def execAllBlockedSwap (k : Fin 64) (s : State) : Out := .next ((s.onDev (fun d => d.swap k)).settled)
/-- PREEMPT (R234, R236): of a context that is not resident it has no effect. -/
def execPreempt (c : BitVec 12) (s : State) : Out := .next ((s.onDev (fun d => d.preempt c.toNat)).settled)
/-- CONTEXT_RESTORE (R235). -/
def execContextRestore (k : Fin 64) (c : BitVec 12) (s : State) : Out := .next ((s.onDev (fun d => d.restoreOn k c.toNat)).settled)
/-- CONTEXT_END_REQUEST (R100, R236): PART_CTX_CTRL.END with this context selected. -/
def execContextEndRequest (r : Req) (c : BitVec 12) (s : State) : Out :=
  .next (s.onDev (fun d => d.regDo r R.partCtxCtrl (fun d => d.endRequest c.toNat)))
/-- CONTEXT_CLEAR_CLAMP (R111): PART_CTX_CTRL.CLR_CLAMP with this context selected. -/
def execContextClearClamp (r : Req) (c : BitVec 12) (s : State) : Out :=
  .next (s.onDev (fun d => d.regDo r R.partCtxCtrl (fun d => d.clearClamp c.toNat)))
/-- FENCED_CONTEXT_RESTART (R237, R238). -/
def execFencedContextRestart (c : BitVec 12) (s : State) : Out := .next (s.onDev (fun d => d.restartFenced c.toNat))
/-- CHAM_HALT (R240). -/
def execChamHalt (r : Req) (k : Fin 32) (on : Bool) (s : State) : Out :=
  .next (s.onDev (fun d => d.regDo r (R.chamCtrl k) (fun d => d.chamCtrlWrite k (BitVec.ofNat 32 (b2n on)))))
/-- CHAM_TRAP (R221, R240). -/
def execChamTrap (r : Req) (k : Fin 32) (s : State) : Out :=
  .next (s.onDev (fun d => d.regDo r (R.chamCtrl k) (fun d => d.chamCtrlWrite k (setF (d.reg (R.chamCtrl k)) F.chamCtrl_trap 1))))

end Sys2Proof.Machine
end

