-- ==== Sys2Proof/Machine/ExecPower.lean ====
section
/-! DEFINITION. The commands of power, resets and start-up (chapter 19), but the end of a start-up step. -/
namespace Sys2Proof.Machine

/-- MAIN_POWER_LOSS (R527). -/
def execMainPowerLoss (s : State) : Out := .next s.powerLoss

/-- MAIN_POWER_RETURN (R527). -/
def execMainPowerReturn (s : State) : Out := .next s.powerReturn

/-- STANDBY_POWER_LOSS (R528, R492): after a loss of main power the standby rail falls. -/
def execStandbyPowerLoss (s : State) : Out :=
  .next (if s.aon.inputGood then s
    else (s.onAon (fun a => { a with standby := false, holdup := false, running := none, fawn := none, update := none, charged := false, log := a.log.drop a.uncommitted, uncommitted := 0, nonce := none })).drivePins)

/-- COLD_RESET (R529). -/
def execColdReset (s : State) : Out := .next s.coldReset

/-- DEVICE_RESET (R531) with a cause of Table 19-3; cause 0 is no device reset's and is taken as software. -/
def execDeviceReset (cause : Fin 8) (s : State) : Out := .next (s.deviceReset (if cause.val = 0 then 4 else cause.val))

/-- RESET_PIN_ASSERT (R539): the pulse's length in µs; whether one of 10 to 100 µs starts a reset is a free choice. -/
def execResetPinAssert (us : BitVec 16) (s : State) : Out :=
  let u := us.toNat
  .next (if u < 10 then s
    else if 100 ≤ u then (s.onAon (fun a => { a with resetLow := true })).deviceReset 2
    else
      let (c, d) := s.dev.choose 2
      let s := { s with dev := d }
      if c = 1 then (s.onAon (fun a => { a with resetLow := true })).deviceReset 2 else s)

/-- RESET_PIN_RELEASE (R539). -/
def execResetPinRelease (s : State) : Out := .next (s.onAon (fun a => { a with resetLow := false }))

/-- PWR_CTRL_RESET (R543). -/
def execPwrCtrlReset (r : Req) (s : State) : Out := .next (s.regDo r R.pwrCtrl (fun s => s.deviceReset 4))

/-- NVM_SUBSYSTEM_RESET (R529). -/
def execNvmSubsystemReset (s : State) : Out := .next (s.deviceReset 3)

/-- HOLDUP_BANK_CHARGED (R521). -/
def execHoldupBankCharged (s : State) : Out := .next (if s.aon.standby then s.onAon (fun a => { a with charged := true }) else s)

/-- POWER_CONTROL_SAMPLE (R523): the input power, and the Ibex core supply that the controller sets for it. -/
def execPowerControlSample (watts : BitVec 16) (mv : BitVec 12) (s : State) : Out :=
  let v := clampTo 550 900 mv.toNat
  let s := s.onAon (fun a => { a with samples := watts.toNat :: a.samples.take 9 })
  .next (if !s.aon.mainGood then s
    else s.onDev (fun d =>
      let d := d.setFlds R.pwrStatus [(F.pwrStatus_vcoreMv, v), (F.pwrStatus_atFloor, b2n (v == 550))]
      if v = 550 then d.setFld R.pwrEvt F.pwrEvt_floor 1 else d))

/-- PWR_CAP_WRITE (R522). -/
def execPwrCapWrite (r : Req) (v : W32) (s : State) : Out := .next (s.regDo r R.pwrCap (fun s => s.writeCap (getF v F.pwrCap_w)))

/-- THERMAL_CAP_STEP (R525). -/
def execThermalCapStep (s : State) : Out := .next s.thermStep

/-- THERMAL_TRIP (R526). -/
def execThermalTrip (s : State) : Out := .next s.trip

/-- CAGE_MODULE_INSERT (R541): a module of more than 16 W stays in low-power mode. -/
def execCageModuleInsert (cage : Fin 9) (watts : BitVec 8) (s : State) : Out :=
  .next (s.onAon (fun a => { a with cages := Tab.put a.cages cage (decide (watts.toNat ≤ 16)) }))

/-- FAULT_PAIR_RELEASE (R538): 5 ms after standby power good. -/
def execFaultPairRelease (s : State) : Out := .next s.drivePins

/-- FAULT_PIN_READBACK_MISMATCH (R478): the levels read back, against those driven. -/
def execFaultPinReadbackMismatch (pos neg : Bool) (s : State) : Out :=
  .next (if pos == s.aon.fltP && neg == s.aon.fltN then s.onDev (fun d => d.setFld (R.fltStatus 2) F.fltStatus_pinFault 0)
    else
      let u := unitId 0x12 0
      (s.onDev (fun d => (d.setFld (R.fltStatus 2) F.fltStatus_pinFault 1).raise ⟨0, 0x16, u, u, 9, 0#64, 0, false, false, none⟩)).settled)

end Sys2Proof.Machine
end

