-- ==== Sys2Proof/Machine/ExecQnt.lean ====
section
/-! DEFINITION. QNT and ROT instructions (R139, R188 to R195, Table 05-9). -/
namespace Sys2Proof.Machine

namespace Dev

/-- The extents that two operands share, and one clamp where they differ (R139). -/
def commonDims (a z : Tensor) : (Nat × Nat × Nat × Nat) × Nat :=
  ((min a.d0 z.d0, min a.d1 z.d1, min a.d2 z.d2, min a.d3 z.d3), b2n (a.d0 != z.d0 || a.d1 != z.d1 || a.d2 != z.d2 || a.d3 != z.d3))
/-- An index lies within extents. -/
def within (p m : Nat × Nat × Nat × Nat) : Bool := p.1 < m.1 && p.2.1 < m.2.1 && p.2.2.1 < m.2.2.1 && p.2.2.2 < m.2.2.2
/-- Extents hold no element. -/
def noneIn (m : Nat × Nat × Nat × Nat) : Bool := m.1 * m.2.1 * m.2.2.1 * m.2.2.2 = 0
/-- The places of a tensor within extents. -/
def placesIn (t : Tensor) (m : Nat × Nat × Nat × Nat) : List Nat := if noneIn m then [] else extentPlaces t m.1 m.2.1 m.2.2.1 m.2.2.2
/-- A tensor's scale reference as QNT uses it: SMODE 0b00 of an integer format is taken as 0b01, one clamp (Table 05-9). -/
def qntScale (t : Tensor) : Tensor × Nat := if t.fmt.isInt && t.smode = 0 then ({ t with smode := 1 }, 1) else (t, 0)

/-- QNT.Q and QNT.DQ (R189): dq tells them apart. -/
def qntWork (d : Dev) (c : Nat) (x : Ctx) (w : W64) (dq : Bool) : Work :=
  let z := d.tdOp c x (tTdd w)
  let a := d.tdOp c x (tTda w)
  let m := commonDims a.t z.t
  let q := qntScale (if dq then a.t else z.t)
  let zt := intTarget q.1.fmt
  let val := fun (p : Nat × Nat × Nat × Nat) =>
    let v := d.elemAt c x a.t p.1 p.2.1 p.2.2.1 p.2.2.2
    let u := d.scaleFor x q.1 zt p.1 p.2.1
    if dq then dequantise a.t.fmt u v else quantise z.t.fmt u v
  let vals := (idxs z.t).map (fun p => if within p m.1 then some (val p) else none)
  let uses := if noneIn m.1 then [] else d.scaleUses x q.1 zt m.1.1 m.1.2.1
  { ops := [z, a], clamps := m.2 + q.2 + scaleClamps [uses], flags := 0, reads := placesIn a.t m.1 ++ oldPlaces z.t vals,
    writes := d.putVals c x z.t none vals, status := none, scales := [], draws := 0
    steps := paced (vecLanes [a.t.fmt, z.t.fmt]) (m.1.1 * m.1.2.1 * m.1.2.2.1 * m.1.2.2.2) }

/-- The quantiser that QNT.SGRAD differentiates: QFMT's format, as elements (Table 07-6); one clamp where it becomes INT8. -/
def gradFmt (f : Nat) : Fmt × Nat :=
  match f with
  | 3 | 5 => (.e4m3, 0)
  | 4 | 6 => (.e5m2, 0)
  | 7 => (.mxE2m1, 0)
  | 8 => (.int8, 0)
  | 9 => (.int4, 0)
  | _ => (.int8, 1)
/-- A value goes beyond a format's largest finite one when it is converted. -/
def saturates (k : FK) (v : FV) : Bool :=
  match v with
  | .fin _ m e => m != 0 && decide (k.maxCode < k.codeOf (rneShift m (e - k.quantum m e)) (k.quantum m e))
  | .inf _ => true
  | .nan => false
/-- The scale and zero-point gradients of one element as exact values (Table 07-7); free where the table has no row: an infinite v
of a format that keeps infinities. -/
def gradOf (f : Fmt) (u : ScaleUse) (free : W64) (v : W32) : FV × FV :=
  let x := dec32 v
  if f.isInt then
    let r := rne64 v
    let k := r + u.z
    let lo : Int := -((2 ^ (f.intBits - 1) : Nat) : Int)
    let hi : Int := ((2 ^ (f.intBits - 1) : Nat) : Int) - 1
    if k < lo then (FV.ofInt (lo - u.z), (dec32 u.s).neg)
    else if hi < k then (FV.ofInt (hi - u.z), (dec32 u.s).neg)
    else ((FV.ofInt r).add x.neg, FV.ofInt 0)
  else
    let fv := decF f.fk (encF f.fk x)
    match fv with
    | .inf _ => (dec32 (BitVec.ofNat 32 free.toNat), FV.ofInt 0)
    | _ => if saturates f.fk x then (fv, FV.ofInt 0) else (fv.add x.neg, FV.ofInt 0)
/-- QNT.SGRAD (R192, R193). An element of TDA at whose index TDB holds none has a free gradient. -/
def sgradWork (d : Dev) (c : Nat) (x : Ctx) (w : W64) : Work :=
  let a := d.tdOp c x (tTda w)
  let b := d.tdOp c x (tTdb w)
  let z := d.operandOf c only0 (tensorAs (x.td (tTdd w)) .fp32)
  let t := d.operandOf c only0 (tensorAs (x.td (tTdc w)) .fp32)
  let f := gradFmt (tMod w / 2 % 16)
  let zg0 := (tMod w).testBit 0
  let zg := zg0 && f.1.isInt
  let zt := intTarget f.1
  let n := if a.t.count = 0 then 0 else match a.t.smode with | 0 => 0 | 1 => 1 | 2 => a.t.d0 | _ => a.t.d1
  let m := commonDims a.t b.t
  let terms := (idxs a.t).map (fun p =>
    let e := linOf a.t p.1 p.2.1 p.2.2.1 p.2.2.2
    let u := d.scaleFor x a.t zt p.1 p.2.1
    let v := as32 (d.elemAt c x a.t p.1 p.2.1 p.2.2.1 p.2.2.2)
    let g := if within p m.1 then as32 (d.elemAt c x b.t p.1 p.2.1 p.2.2.1 p.2.2.2) else BitVec.ofNat 32 (d.freeAt e).toNat
    let k := gradOf f.1 u (d.freeAt e) (fdiv v u.s)
    let term := fun (r : FV) => if fisNan v || fisNan g then fnan else enc32 ((dec32 g).mul r)
    (scaleIdx a.t.smode p.1 p.2.1, term k.1, term k.2))
  let old := fun (t : Tensor) j => let p := idxOf t j; as32 (d.elemAt c x t p.1 p.2.1 p.2.2.1 p.2.2.2)
  let sum := fun (t : Tensor) (pick : Nat × W32 × W32 → W32) j => (terms.filter (fun q => q.1 == j)).foldl (fun s q => fadd s (pick q)) (old t j)
  let valsOf := fun (t : Tensor) pick => (List.range t.count).map (fun j => if j < n then some (dec32 (sum t pick j)) else none)
  let short := decide (z.t.count < n) || (zg && decide (t.t.count < n))
  { ops := [z, a, b] ++ (if zg then [t] else []), clamps := f.2 + b2n (zg0 && !zg) + b2n short + scaleClamps [if n = 0 then [] else d.scaleUses x a.t zt a.t.d0 a.t.d1],
    flags := 0, reads := if n = 0 then [] else allPlaces a.t ++ placesIn b.t m.1 ++ linPlaces z.t n ++ (if zg then linPlaces t.t n else []),
    writes := d.putVals c x z.t none (valsOf z.t (·.2.1)) ++ (if zg then d.putVals c x t.t none (valsOf t.t (·.2.2)) else []),
    status := none, scales := [], draws := a.t.count }

/-- The records of QNT.SLD and QNT.SST: DIM0 of 8 bytes each, whatever FMT (Table 05-9). -/
def recordsOf (ws : List W64) : Tensor × Nat := let r := tensorRead ws .int8; ({ r.1 with fmt := .score, d1 := 1, d2 := 1, d3 := 1 }, r.2)
/-- One clamp where records go beyond the window (R87). -/
def recordsOut (x : Ctx) (first n : Nat) : Nat := b2n (n != 0 && decide (x.arch.winLen < first + n))
/-- QNT.SLD. -/
def sldWork (d : Dev) (c : Nat) (x : Ctx) (w : W64) : Work :=
  let a := d.operandOf c only0 (recordsOf (x.td (tTda w)))
  let first := tMod w % 4096
  { ops := [a], clamps := recordsOut x first a.t.d0, flags := 0, reads := allPlaces a.t, writes := [], status := none,
    scales := (List.range a.t.d0).map (fun i => ((winPlace x (first + i)).1, BitVec.ofNat 64 (d.elemCodeAt c x a.t i 0 0 0))), draws := 0 }
/-- QNT.SST. -/
def sstWork (d : Dev) (c : Nat) (x : Ctx) (w : W64) : Work :=
  let z := d.operandOf c only0 (recordsOf (x.td (tTdd w)))
  let first := tMod w % 4096
  { ops := [z], clamps := recordsOut x first z.t.d0, flags := 0, reads := [],
    writes := (List.range z.t.d0).flatMap (fun i => elemPut z.t i 0 0 0 (d.scaleAt x.core (winPlace x (first + i)).1).toNat),
    status := none, scales := [], draws := 0 }

/-- ROT.WHT (R139, R194, R195). -/
def whtWork (d : Dev) (c : Nat) (x : Ctx) (w e : W64) : Work :=
  let z := d.tdOp c x (tTdd w)
  let a := d.tdOp c x (tTda w)
  let m := commonDims a.t z.t
  let b0 := tMod w % 16
  let b := clampTo 4 12 b0
  let seed := (tMod w).testBit 4
  let t := d.operandOf c only0 (tensorRead (x.td (tTdb w)) .int8)
  let n := m.1.1
  let signs := if seed then seedSigns (bits64 e 0 32) n else d.tensorSigns c x t.t n
  let vals := (List.range z.t.d3).flatMap (fun i3 => (List.range z.t.d2).flatMap (fun i2 => (List.range z.t.d1).flatMap (fun i1 =>
    let y := if i1 < m.1.2.1 && i2 < m.1.2.2.1 && i3 < m.1.2.2.2 then
        whtRow b ((tMod w).testBit 5) signs ((List.range n).map (fun i => as32 (d.elemAt c x a.t i i1 i2 i3)))
      else []
    (List.range z.t.d0).map (fun i => (y[i]?).map dec32))))
  { ops := [z, a] ++ (if seed then [] else [t]), clamps := m.2 + b2n (b != b0) + b2n (!seed && t.t.count < n) + b2n ((rotBlock n b).2 != 0 && !noneIn m.1),
    flags := 0, reads := placesIn a.t m.1 ++ (if seed then [] else linPlaces t.t n) ++ oldPlaces z.t vals,
    writes := d.putVals c x z.t none vals, status := none, scales := [], draws := 0, steps := paced 256 (n * m.1.2.1 * m.1.2.2.1 * m.1.2.2.2) }

end Dev

/-- QNT.Q (R189). -/
def execQntQ (c : BitVec 12) (w x : W64) (s : State) : Out :=
  .next ((s.onDev (fun d => d.run c.toNat w x 5 0 .none [] (fun d y _ n => d.doWork c.toNat y n (d.qntWork c.toNat y w false)))).settled)
/-- QNT.DQ (R189). -/
def execQntDq (c : BitVec 12) (w x : W64) (s : State) : Out :=
  .next ((s.onDev (fun d => d.run c.toNat w x 5 1 .none [] (fun d y _ n => d.doWork c.toNat y n (d.qntWork c.toNat y w true)))).settled)
/-- QNT.SGRAD (R193). -/
def execQntSgrad (c : BitVec 12) (w x : W64) (s : State) : Out :=
  .next ((s.onDev (fun d => d.run c.toNat w x 5 2 .none [] (fun d y _ n => d.doWork c.toNat y n (d.sgradWork c.toNat y w)))).settled)
/-- QNT.SLD (R139). -/
def execQntSld (c : BitVec 12) (w x : W64) (s : State) : Out :=
  .next ((s.onDev (fun d => d.run c.toNat w x 5 3 .none [] (fun d y _ n => d.doWork c.toNat y n (d.sldWork c.toNat y w)))).settled)
/-- QNT.SST (R139). -/
def execQntSst (c : BitVec 12) (w x : W64) (s : State) : Out :=
  .next ((s.onDev (fun d => d.run c.toNat w x 5 4 .none [] (fun d y _ n => d.doWork c.toNat y n (d.sstWork c.toNat y w)))).settled)
/-- ROT.WHT (R194). -/
def execRotWht (c : BitVec 12) (w x : W64) (s : State) : Out :=
  .next ((s.onDev (fun d => d.run c.toNat w x 6 0 .opt [] (fun d y e n => d.doWork c.toNat y n (d.whtWork c.toNat y w e)))).settled)

end Sys2Proof.Machine
end

