-- ==== Sys2Proof/Machine/ExecReport.lean ====
section
/-! DEFINITION. Fault reports, scrubs (chapter 17), and the steps of start-up (chapter 19). -/
namespace Sys2Proof.Machine

namespace Dev

/-- A directory entry is uncorrectable (R465): INV goes to every assigned node, the line is poisoned, the entry is freed when
the last INV_ACK has come; what waits at the line waits behind it. The poison is there from the first, as nothing reads the
line before. -/
def dirLost (d : Dev) (a : W64) : Dev :=
  let t := addrTier a
  if t ≠ 1 && t ≠ 2 then d else
  let key := memKey t (alignDown (addrOff a) 128)
  let d := d.poisonRange key 128
  let d : Dev := { d with herd := { d.herd with snps := d.herd.snps.filter (fun x => x.line != key) } }
  let nodes := (Tab.keys d.herd.routes).filter (fun n => n ≠ d.nodeId)
  let e := (d.dirEnt key).getD (d.newEnt 1 0)
  let e : DirEnt := { e with st := 1, coarse := false, nodes := nodes, groups := [], evicting := true }
  if nodes.isEmpty then
    (e.serving.toList ++ e.queue).foldl (fun d w => d.serve w) (d.delDir key)
  else d.snoop key e nodes 0x30

/-- An armed injection of a unit is taken by the next code word that its checker reads (R483): 1 a single error, 2 a double
one; with KIND 0 the word carries none. Answers the report that then holds. -/
def takeInj (d : Dev) (f : FaultReq) : FaultReq × Dev :=
  let b := unitDie f.source
  if f.cause ≤ 1 && d.flag (R.fltInj b) F.fltInj_arm && d.fld (R.fltInj b) F.fltInj_unit = f.source then
    let k := d.fld (R.fltInj b) F.fltInj_kind
    (if k = 0 then f else { f with inj := true, cls := k - 1, cause := k - 1 }, d.setFld (R.fltInj b) F.fltInj_arm 0)
  else (f, d)

/-- A checker's report (R466): its data effect beyond memory, and the report for the fault logic. -/
def report (d : Dev) (f : FaultReq) : Dev :=
  let (f, d) := d.takeInj f
  let d := if f.cause = 0x0D then d.dirLost f.addr else d
  let d := if f.cause = 1 && unitKind f.source = 0x0D then
      { d with flash := { d.flash with wbPoison := ((addrOff f.addr % 2 ^ 34) / 4096) :: d.flash.wbPoison } } else d
  d.raise f

/-- The code word at an offset is the last one of its controller's memory. -/
def lastWord (t off : Nat) : Bool :=
  let half := if t = 1 then 0x6000000000 else 0x8000000000
  let stop := (off / half + 1) * half
  alignDown off 4096 + 4096 * (if t = 1 then 4 else 8) ≥ stop && off % 4096 + codeWordSize t ≥ 4096

/-- A scrub read of the code word at an address: kind 0 clean, 1 corrected, 2 uncorrectable (R459). A memory controller
whose period is 0 does not scrub; a pass ends at its last word. -/
def scrub (d : Dev) (m : Nat) (a : W64) (kind : Nat) : Dev :=
  let k := unitKind m
  let i := unitInst m
  let mc := k = 3 || k = 4
  let b := mcBase k i
  if mc && d.fld (b + 0x18) F.hbmcScrub_hours = 0 then d else
  let t := addrTier a
  let d := if mc then d.setFld (b + 0x18) F.hbmcScrub_active 1 else d
  let d := if mc && ctrlOf t (addrOff a) = (k, i) && lastWord t (addrOff a) then
      (d.count (b + 0x1C) (b + 4) F.hbmcEvt_passOvf).setFld (b + 0x18) F.hbmcScrub_active 0 else d
  let armed := d.flag (R.fltInj (unitDie m)) F.fltInj_arm && d.fld (R.fltInj (unitDie m)) F.fltInj_unit = m
  let inj := d.fld (R.fltInj (unitDie m)) F.fltInj_kind
  let kind := if armed && inj ≠ 0 then inj else kind
  if kind = 0 then (if armed then d.setFld (R.fltInj (unitDie m)) F.fltInj_arm 0 else d)
  else if kind = 1 then d.report ⟨0, 0x00, m, m, 5, a, 0, false, false, none⟩
  else
    let (f, d) := d.takeInj ⟨1, 0x01, m, m, 5, a, 0, false, false, none⟩
    if k = 8 then (d.dirLost a).raise { f with cause := 0x0D } else d.report f

end Dev

/-- A report as the fault log can hold it (Table 17-7): fields in their widths, not of a self-test. -/
def FaultReq.trim (f : FaultReq) : FaultReq :=
  { f with cls := min f.cls 2, cause := f.cause % 64, master := f.master % 65536, source := f.source % 65536, access := f.access % 16,
           detail := f.detail % 2 ^ 32, selftest := false, inj := false, scope := f.scope.map (min 2) }

/-- FAULT_REPORT (R457, R465, R466 to R469). What the consumer of the data does is that consumer's own command. -/
def execFaultReport (f : FaultReq) (s : State) : Out := .next ((s.onDev (fun d => d.report f.trim)).settled)

/-- SCRUB_READ (R459). -/
def execScrubRead (m : BitVec 16) (a : W64) (kind : Fin 3) (s : State) : Out :=
  .next ((s.onDev (fun d => d.scrub m.toNat a kind)).settled)

/-- STARTUP_STEP_END (R533): at the end of step 7 a device whose settings say so begins enumeration (Table 10-8b). -/
def execStartupStepEnd (ms : W32) (fail : List (BitVec 16)) (s : State) : Out :=
  let was := s.aon.step
  let s := s.stepEnd ms.toNat (fail.map (·.toNat))
  let s : State := if was = 7 && s.aon.step = 8 && Tab.getD s.aon.setVals setEnumStart 0#32 ≠ 0#32
    then s.onDev (fun d => d.enumStart s.prefNode) else s
  .next s.settled

end Sys2Proof.Machine
end

