-- ==== Sys2Proof/Machine/ExecScn.lean ====
section
/-! DEFINITION. SCN instructions (R145, Table 05-14): search jobs, appends and deletes as they issue, the current generation. -/
namespace Sys2Proof.Machine

/-- The fields of the extension word (R145), after their clamps, and how many clamps they count. -/
def scnColl (e : W64) : Nat := bits64 e 0 10
def scnK (e : W64) : Nat := clampTo 1 64 (bits64 e 10 7)
def scnDist (e : W64) : Nat := if bits64 e 17 2 = 3 then 0 else bits64 e 17 2
def scnPath (e : W64) : Nat := if bits64 e 19 2 = 3 then 0 else bits64 e 19 2
def scnClamps (e : W64) : Nat := b2n (scnK e != bits64 e 10 7) + b2n (bits64 e 17 2 == 3) + b2n (bits64 e 19 2 == 3)

namespace Dev

/-- An address operand of a job, rounded down to 8 bytes: the place, the address, the clamps of rounding; 0 names nothing. -/
def scnAt (d : Dev) (c : Nat) (v : W64) (n : Nat) : W64 × List Nat × Nat :=
  let r := rounded v 8
  let p := d.widePlace c stay r.1 n
  (placeAddr p, p.kinds, r.2)
/-- The query tensor of a job: FP32 and BF16 as they stand, any other format as FP32 (R145). -/
def queryTensor (ws : List W64) : Tensor × Nat :=
  let t := tensorOf ws
  if t.1.fmt = .fp32 || t.1.fmt = .bf16 then t else tensorAs ws .fp32
/-- Issues a job of SCN.QUERY or SCN.RERANK (R145, R323). -/
def scnJob (d : Dev) (c : Nat) (x : Ctx) (w e : W64) (m : Nat) (rerank : Bool) : Leave :=
  if x.mm.isSome then .wait d else
  let q := d.operandOf c stay (queryTensor (x.td (fTdx w)))
  let z := d.operandOf c noT34 (tensorOf (x.td (fTdy w)))
  let fa := x.s (fSa w)
  let sa := if fa = 0#64 then (0#64, [], 0) else d.scnAt c fa 128
  let sb := if rerank then d.scnAt c (x.s (fSb w)) 8 else (0#64, [], 0)
  let room := z.t.count * z.t.fmt.bits / 8
  -- a TDY smaller than the results counts one clamp (R145)
  let own := scnClamps e + b2n (decide (4096 < q.t.d1)) + b2n (decide (room < min q.t.d1 4096 * (64 + 16 * scnK e))) + sa.2.2 + sb.2.2
  let all := own + opndClamps [q, z] + sa.2.1.length + sb.2.1.length
  let j := newJob (scnColl e) x.part (scnK e) (scnDist e) (scnPath e) (d.collFor (scnColl e) x.part).isSome false rerank (.ctx c x.serial) x.arch.pc (b2n (all + m != 0))
  let d := ((((d.noteOpnds c [q, z]).noteClamps (.ctx c) sa.2.1 fa).noteClamps (.ctx c) sb.2.1 (x.s (fSb w))).clampC c own).addAsync c x w true
  .next (d.addJob { j with src := some (q.t, sa.1, sb.1), dst := some z.t.base, room := room }).2
/-- Issues a change of a collection (R317, R347): of one that is not there, nothing is changed and one clamp counts. What SD then
receives is not stated (log 5). -/
def scnChange (d : Dev) (c : Nat) (x : Ctx) (w e : W64) (n : Nat) (ch : Change) : Dev :=
  let d := d.addAsync c x w true
  match d.collFor (scnColl e) x.part with
  | none => (let r := (d.clampC c 1).draw; r.2.asyncDone c x.serial 0 1 0 (BitVec.ofNat 64 (bits64 r.1 0 48)))
  | some _ => d.addChange (scnColl e) ⟨ch, .ctx c x.serial, b2n (n != 0), x.arch.pc⟩
/-- Counts what an instruction reads of invalid pages of its scratch through an operand (R212): the places of its rows, n bytes each. -/
def noteRows (d : Dev) (c : Nat) (x : Ctx) (z : Tensor) (places : List Nat) (n : Nat) : Dev :=
  if addrTier z.base = 0 && scrInvalid x (places.flatMap (fun o => upFrom o n)) then d.noteInvalid c else d
/-- SCN.APPEND (R317, R318, R348). -/
def scnAppend (d : Dev) (c : Nat) (x : Ctx) (w e : W64) (m : Nat) : Leave :=
  if x.mm.isSome then .wait d else
  let ws := x.td (fTdx w)
  let t := tensorOf ws
  let q := d.operandOf c stay (if t.1.fmt = .fp32 || t.1.fmt = .int8 then t else tensorAs ws .int8)
  let float := q.t.fmt = .fp32
  let k := scnClamps e
  match d.collFor (scnColl e) x.part with
  | none => .next (((d.noteOpnds c [q]).clampC c k).scnChange c x w e 1 (.append []))
  | some l =>
    let want := if float then 8 + l.dim else 32 + l.dim
    let g := d.grabRows (some c) 0 q.t q.t.d1 (min q.t.d0 want * q.t.fmt.esize)
    if !g.1 then .wait g.2.2.2 else
    let d := (g.2.2.2.doneFetch (d.away q.t.base) (some c) 0).noteOpnds c [q]
    if g.2.1 then .overs (d.abortTask c 0 0 q.t.base) else
    let d := d.noteRows c x q.t ((List.range q.t.d1).map (fun i => q.t.at' (q.t.rowOff i 0 0))) (min q.t.d0 want * q.t.fmt.esize)
    let rs := g.2.2.1.map (recordOf l float)
    let own := k + b2n (q.t.d0 != want) + b2n (rs.any (·.2))
    .next ((d.clampC c own).scnChange c x w e (own + m + opndClamps [q]) (.append (rs.map (·.1))))
/-- SCN.DELETE (R348). -/
def scnDelete (d : Dev) (c : Nat) (x : Ctx) (w e : W64) (m : Nat) : Leave :=
  if x.mm.isSome then .wait d else
  let q := d.operandOf c stay (tensorRead (x.td (fTdx w)) .score)
  let k := scnClamps e
  let g := (List.range (q.t.d1 * q.t.d2 * q.t.d3)).foldl (fun (a : Bool × Bool × List Byte × Dev) i =>
    let r := q.t.row q.t.d1 q.t.d2 i
    let b := a.2.2.2.grab (some c) 0 (mkAddr (addrNode q.t.base) (addrTier q.t.base) (q.t.at' (q.t.rowOff r.1 r.2.1 r.2.2))) (8 * q.t.d0)
    (a.1 && b.1, a.2.1 || b.2.1, a.2.2.1 ++ b.2.2.1, b.2.2.2)) (true, false, [], d)
  if !g.1 then .wait g.2.2.2 else
  let d := (g.2.2.2.doneFetch (d.away q.t.base) (some c) 0).noteOpnds c [q]
  if g.2.1 then .overs (d.abortTask c 0 0 q.t.base) else
  let d := d.noteRows c x q.t ((List.range (q.t.d1 * q.t.d2 * q.t.d3)).map (fun i => let r := q.t.row q.t.d1 q.t.d2 i; q.t.at' (q.t.rowOff r.1 r.2.1 r.2.2))) (8 * q.t.d0)
  let ids := (List.range (g.2.2.1.length / 8)).map (fun i => leVal ((g.2.2.1.drop (8 * i)).take 5))
  .next ((d.clampC c k).scnChange c x w e (k + m + opndClamps [q]) (.delete ids))
/-- SCN.GEN (R349): the current generation. Of a collection that is not there it is not stated (log 5). -/
def scnGen (d : Dev) (c : Nat) (x : Ctx) (w e : W64) (n : Nat) : Leave :=
  let k := scnClamps e
  let (g, d) : Nat × Dev := match d.collFor (scnColl e) x.part with
    | some l => (l.gen, d)
    | none => (let r := d.draw; (bits64 r.1 0 48, r.2))
  .next (((d.clampC c k).modCtx c (fun z => z.setS (fSd w) (BitVec.ofNat 64 g))).putStatus c (fSs w) 0 (b2n (k + n != 0)) 0)

end Dev

/-! ## The commands -/

/-- SCN.QUERY (R145, R323). -/
def execScnQuery (c : BitVec 12) (w x : W64) (s : State) : Out :=
  .next ((s.onDev (fun d => d.run c.toNat w x 10 0 .req [fSa w, fSd w, fSs w] (fun d y e n => d.scnJob c.toNat y w e n false))).settled)
/-- SCN.RERANK (R145, R325). -/
def execScnRerank (c : BitVec 12) (w x : W64) (s : State) : Out :=
  .next ((s.onDev (fun d => d.run c.toNat w x 10 1 .req [fSa w, fSb w, fSd w, fSs w] (fun d y e n => d.scnJob c.toNat y w e n true))).settled)
/-- SCN.APPEND (R317). -/
def execScnAppend (c : BitVec 12) (w x : W64) (s : State) : Out :=
  .next ((s.onDev (fun d => d.run c.toNat w x 10 2 .req [fSd w, fSs w] (fun d y e n => d.scnAppend c.toNat y w e n))).settled)
/-- SCN.DELETE (R348). -/
def execScnDelete (c : BitVec 12) (w x : W64) (s : State) : Out :=
  .next ((s.onDev (fun d => d.run c.toNat w x 10 3 .req [fSd w, fSs w] (fun d y e n => d.scnDelete c.toNat y w e n))).settled)
/-- SCN.GEN (R349). -/
def execScnGen (c : BitVec 12) (w x : W64) (s : State) : Out :=
  .next ((s.onDev (fun d => d.run c.toNat w x 10 4 .req [fSd w, fSs w] (fun d y e n => d.scnGen c.toNat y w e n))).settled)

end Sys2Proof.Machine
end

