-- ==== Sys2Proof/Machine/ExecSel.lean ====
section
/-! DEFINITION. SEL instructions (R140, R141, Table 05-10). What the spec leaves unspecified (which of tied entries are taken, the
order among equal keys, the order of SEL.FILT's output) is settled by free words. -/
namespace Sys2Proof.Machine

/-- An item of a selection: its key; the codes of its two elements as an entry; its index along dimension 0; its value. -/
structure Item where
  key : FV
  e0 : Nat
  e1 : Nat
  idx : Nat
  v : FV
  deriving DecidableEq, Repr

namespace Item

/-- One item ranks before another (R140): a NaN after every number. -/
def above (a b : Item) : Bool := a.key != .nan && (b.key == .nan || b.key.lt a.key)
/-- Two items tie. -/
def ties (a b : Item) : Bool := !a.above b && !b.above a
/-- The ID of an entry. -/
def id (a : Item) : Nat := a.e1 % 2 ^ 40
/-- Puts an item, with its free word, into its place: best first, free among equals. -/
def place (a : Item × Nat) : List (Item × Nat) → List (Item × Nat)
  | [] => [a]
  | b :: r => if a.1.above b.1 || (!b.1.above a.1 && a.2 ≤ b.2) then a :: b :: r else b :: place a r
/-- Items best first; f is the free word of the n-th. -/
def ranked (f : Nat → Nat) (l : List Item) : List Item := ((l.zip ((List.range l.length).map f)).foldr place []).map (·.1)
/-- Items in a free order. -/
def shuffled (f : Nat → Nat) (l : List Item) : List Item := (ranked f (l.map (fun a => { a with key := .fin false 0 0, v := a.key }))).map (fun a => { a with key := a.v })
/-- The best k of items already ranked, and whether some that tie with the last taken are left out (R18). -/
def cut (k : Nat) (l : List Item) : List Item × Bool :=
  (l.take k, match l[k - 1]?, l[k]? with | some a, some b => k != 0 && a.ties b | _, _ => false)

end Item

/-- A key code as the device writes it: bits [63:48] copies of bit 47 (R174). -/
def keyCode (k : Nat) : Nat := wrapTo 64 (signedOf 48 k)
/-- Element 1 of the invalid entry (R141, R330). -/
def invalidE1 : Nat := 2 ^ 63 + (2 ^ 40 - 1)
/-- The invalid entry: key 0. -/
def invalidItem : Item := ⟨.fin false 0 0, 0, invalidE1, 0, .fin false 0 0⟩

namespace Dev

/-- An entry tensor's descriptor: DIM0 taken as 2, n clamps where it is not (R140). -/
def entryOf (r : Tensor × Nat) (n : Nat) : Tensor × Nat := ({ r.1 with d0 := 2, odd0 := false }, r.2 + (if r.1.d0 = 2 then 0 else n))
/-- A descriptor whose FMT is Score. -/
def isScore (ws : List W64) : Bool := fmtOf (bits64 (ws.getD 6 0#64) 0 4) = .score
/-- An operand of SEL as it stands: an entry tensor, or a value tensor (R140). -/
def selOp (d : Dev) (c : Nat) (x : Ctx) (i : Nat) : Opnd :=
  d.operandOf c only0 (if isScore (x.td i) then entryOf (tensorOf (x.td i)) 1 else tensorOf (x.td i))
/-- An operand of HIST or FILT: another format than Score is taken as INT32 (Table 05-10). -/
def selOp32 (d : Dev) (c : Nat) (x : Ctx) (i : Nat) : Opnd :=
  d.operandOf c only0 (if isScore (x.td i) then entryOf (tensorOf (x.td i)) 1 else tensorAs (x.td i) .int32)
/-- An operand taken as an entry tensor: one clamp for its FMT, one for its DIM0 (R140). -/
def entryAs (d : Dev) (c : Nat) (x : Ctx) (i : Nat) : Opnd := d.operandOf c only0 (entryOf (tensorAs (x.td i) .score) 1)
/-- The destination of FILT: one clamp in all (Table 05-10). -/
def filtDst (d : Dev) (c : Nat) (x : Ctx) (i : Nat) : Opnd :=
  let r := tensorAs (x.td i) .score
  d.operandOf c only0 (entryOf r (if isScore (x.td i) then 1 else 0))
/-- The rows of dimension 0 or, of an entry tensor, the lists: the indices of each above it. -/
def rowsOf (t : Tensor) : List (Nat × Nat × Nat) := (indices 1 t.d1 t.d2 t.d3).map (·.2)
/-- The lists of an entry tensor: dimension 1 indexes entries, dimension 2 lists. -/
def entryLists (d : Dev) (c : Nat) (x : Ctx) (t : Tensor) : List (List Item) :=
  (List.range t.d3).flatMap (fun i3 => (List.range t.d2).map (fun i2 => (List.range t.d1).map (fun i1 =>
    let e0 := d.elemCodeAt c x t 0 i1 i2 i3
    ⟨FV.ofInt (e0 % 2 ^ 48 : Nat), keyCode (e0 % 2 ^ 48), d.elemCodeAt c x t 1 i1 i2 i3, i1, .fin false 0 0⟩)))
/-- The lists of a value tensor: its rows along dimension 0. -/
def valueLists (d : Dev) (c : Nat) (x : Ctx) (t : Tensor) : List (List Item) :=
  (rowsOf t).map (fun r => (List.range t.d0).map (fun i =>
    let v := d.elemAt c x t i r.1 r.2.1 r.2.2
    ⟨v, 0, i, i, v⟩))
/-- The lists of an operand of SEL. -/
def selLists (d : Dev) (c : Nat) (x : Ctx) (t : Tensor) : List (List Item) := if t.fmt = .score then d.entryLists c x t else d.valueLists c x t
/-- The key of an item in digits (R140): of an entry 48 bits; of an INT32 element the element XOR 0x8000_0000. -/
def digitKey (score : Bool) (a : Item) : Nat := if score then a.e0 % 2 ^ 48 else wrapTo 32 (asInt a.key + (2 ^ 31 : Nat))
/-- Writes lists of entries to an entry tensor, as many as fit. -/
def putEntries (t : Tensor) (l : List (List Item)) : List SWrite :=
  ((indices 1 1 t.d2 t.d3).zip l).flatMap (fun p => ((List.range t.d1).zip p.2).flatMap (fun q =>
    elemPut t 0 q.1 p.1.2.2.1 p.1.2.2.2 q.2.e0 ++ elemPut t 1 q.1 p.1.2.2.1 p.1.2.2.2 q.2.e1))
/-- New values of a value tensor: list by list along dimension 0, as many as fit. -/
def rowVals (t : Tensor) (l : List (List FV)) : List (Option FV) :=
  (List.range (t.d1 * t.d2 * t.d3)).flatMap (fun r => (List.range t.d0).map (fun i => (l.getD r [])[i]?))
/-- A free word for item i of list r. -/
def tieWord (d : Dev) (t : Tensor) (r i : Nat) : Nat := (d.freeAt (r * (t.d0 * t.d1) + i)).toNat

/-- SEL.HIST. -/
def histWork (d : Dev) (c : Nat) (x : Ctx) (w e : W64) : Work :=
  let a := d.selOp32 c x (tTda w)
  let z := d.operandOf c only0 (tensorAs (x.td (tTdd w)) .int32)
  let score := a.t.fmt = .score
  let nd := if score then 6 else 4
  let p0 := tMod w % 8
  let p := if nd ≤ p0 then nd - 1 else p0
  let pre := (x.s (bits64 e 0 5)).toNat % 2 ^ (8 * p)
  let sh := 8 * (nd - 1 - p)
  let ks := ((d.selLists c x a.t).flatten.map (digitKey score)).filter (fun k => k / 2 ^ (sh + 8) == pre)
  let cnt := fun i => (ks.filter (fun k => k / 2 ^ sh % 256 == i)).length
  let n := z.t.count
  { ops := [z, a], clamps := b2n (p != p0) + b2n (n < 256), flags := 0, reads := allPlaces a.t,
    writes := d.putVals c x z.t none ((List.range n).map (fun i => if i < 256 then some (FV.ofInt (cnt i)) else none)), status := none, scales := [], draws := 0
    steps := paced 64 (d.selLists c x a.t).flatten.length }
/-- SEL.FILT. -/
def filtWork (d : Dev) (c : Nat) (x : Ctx) (w e : W64) : Work :=
  let a := d.selOp32 c x (tTda w)
  let z := d.filtDst c x (tTdd w)
  let score := a.t.fmt = .score
  let lim := if score then (x.s (bits64 e 5 5)).toNat % 2 ^ 48 else (x.s (bits64 e 5 5)).toNat
  let l := (d.selLists c x a.t).flatten.map (fun i => if score then i else { i with e0 := digitKey false i, e1 := i.idx })
  let key := fun (i : Item) => if score then i.e0 % 2 ^ 48 else i.e0
  let f := fun i => (d.freeAt i).toNat
  let gt := Item.shuffled f (l.filter (fun i => lim < key i))
  let eq := Item.shuffled (fun i => f (l.length + i)) (l.filter (fun i => key i == lim))
  let out := Item.shuffled (fun i => f (2 * l.length + i)) ((gt ++ eq).take z.t.d1)
  let tie := gt.length < z.t.d1 && z.t.d1 < gt.length + eq.length
  { ops := [z, a], clamps := 0, flags := if tie then 4 else 0, reads := allPlaces a.t, writes := putEntries z.t [out],
    status := some (bits64 e 0 5, gt.length + eq.length), scales := [], draws := 3 * l.length, steps := paced 64 l.length }
/-- SEL.TOPK. -/
def topkWork (d : Dev) (c : Nat) (x : Ctx) (w e : W64) : Work :=
  let a := d.selOp c x (tTda w)
  let score := a.t.fmt = .score
  let k0 := bits64 e 10 7
  let k := clampTo 1 64 k0
  let ls := d.selLists c x a.t
  let best := ((List.range ls.length).zip ls).map (fun p => Item.cut k (Item.ranked (d.tieWord a.t p.1) p.2))
  let tie := best.any (·.2)
  let last := (best.getLast?.map (·.1)).getD []
  let cnt := (last.filter (fun i => !score || i.e1 < 2 ^ 63)).length
  let pad := fun (v : FV) (l : List FV) => l ++ List.replicate (k - l.length) v
  let z := if score then d.entryAs c x (tTdd w) else d.operandOf c only0 (tensorAs (x.td (tTdd w)) .int32)
  let t := d.operandOf c only0 (tensorRead (x.td (tTdc w)) a.t.fmt)
  let both := !score && (tMod w).testBit 0
  let idxVals := rowVals z.t (best.map (fun b => pad (FV.ofInt (-1)) (b.1.map (fun i => FV.ofInt i.idx))))
  let keyVals := rowVals t.t (best.map (fun b => pad (.fin false 0 0) (b.1.map (·.v))))
  { ops := [z, a] ++ (if both then [t] else []), clamps := b2n (k != k0), flags := if tie then 4 else 0,
    reads := allPlaces a.t ++ (if both then oldPlaces t.t keyVals else []),
    writes := if score then putEntries z.t (best.map (fun b => b.1 ++ List.replicate (k - b.1.length) invalidItem))
      else d.putVals c x z.t none idxVals ++ (if both then d.putVals c x t.t none keyVals else []),
    status := some (bits64 e 0 5, cnt), scales := [], draws := a.t.count
    steps := some ((ls.map (fun l => ceilDiv l.length 64 + 64)).foldl (· + ·) 0) }
/-- SEL.MERGE. Its operands are entry tensors; of another format, they are taken as Score. -/
def mergeWork (d : Dev) (c : Nat) (x : Ctx) (w : W64) : Work :=
  let a := d.entryAs c x (tTda w)
  let b := d.entryAs c x (tTdb w)
  let z := d.entryAs c x (tTdd w)
  let la := d.entryLists c x a.t
  let lb := d.entryLists c x b.t
  let n := z.t.d1
  let out := (List.range (max la.length lb.length)).map (fun r =>
    let q := lb.getD r []
    let l := (la.getD r []).filter (fun i => !q.any (fun j => j.id == i.id)) ++ q
    Item.cut n (Item.ranked (fun i => (d.freeAt (r * (a.t.d1 + b.t.d1) + i)).toNat) l))
  { ops := [z, a, b], clamps := 0, flags := if out.any (·.2) then 4 else 0, reads := allPlaces a.t ++ allPlaces b.t,
    writes := putEntries z.t (out.map (fun o => o.1 ++ List.replicate (n - o.1.length) invalidItem)), status := none, scales := [],
    draws := max la.length lb.length * (a.t.d1 + b.t.d1), steps := paced 32 (la.flatten.length + lb.flatten.length) }
/-- SEL.SORT. -/
def sortWork (d : Dev) (c : Nat) (x : Ctx) (w : W64) : Work :=
  let a := d.selOp c x (tTda w)
  let score := a.t.fmt = .score
  let z := if score then d.entryAs c x (tTdd w) else d.tdOp c x (tTdd w)
  let ls := d.selLists c x a.t
  let out := ((List.range ls.length).zip ls).map (fun p => Item.ranked (d.tieWord a.t p.1) p.2)
  let vals := rowVals z.t (out.map (fun l => l.map (·.v)))
  { ops := [z, a], clamps := 0, flags := 0, reads := allPlaces a.t ++ (if score then [] else oldPlaces z.t vals),
    writes := if score then putEntries z.t out else d.putVals c x z.t none vals, status := none, scales := [], draws := a.t.count
    steps := some (sortSteps (ls.map (·.length))) }

end Dev

/-- SEL.HIST (R141). -/
def execSelHist (c : BitVec 12) (w x : W64) (s : State) : Out :=
  .next ((s.onDev (fun d => d.run c.toNat w x 7 0 .req [bits64 (extOf w x) 0 5] (fun d y e n => d.doWork c.toNat y n (d.histWork c.toNat y w e)))).settled)
/-- SEL.FILT (R141). -/
def execSelFilt (c : BitVec 12) (w x : W64) (s : State) : Out :=
  .next ((s.onDev (fun d => d.run c.toNat w x 7 1 .req [bits64 (extOf w x) 0 5, bits64 (extOf w x) 5 5] (fun d y e n => d.doWork c.toNat y n (d.filtWork c.toNat y w e)))).settled)
/-- SEL.TOPK (R141). -/
def execSelTopk (c : BitVec 12) (w x : W64) (s : State) : Out :=
  .next ((s.onDev (fun d => d.run c.toNat w x 7 2 .req [bits64 (extOf w x) 0 5] (fun d y e n => d.doWork c.toNat y n (d.topkWork c.toNat y w e)))).settled)
/-- SEL.MERGE (R141). -/
def execSelMerge (c : BitVec 12) (w x : W64) (s : State) : Out :=
  .next ((s.onDev (fun d => d.run c.toNat w x 7 3 .none [] (fun d y _ n => d.doWork c.toNat y n (d.mergeWork c.toNat y w)))).settled)
/-- SEL.SORT (R141). -/
def execSelSort (c : BitVec 12) (w x : W64) (s : State) : Out :=
  .next ((s.onDev (fun d => d.run c.toNat w x 7 4 .none [] (fun d y _ n => d.doWork c.toNat y n (d.sortWork c.toNat y w)))).settled)

end Sys2Proof.Machine
end

