-- ==== Sys2Proof/Machine/ExecVec.lean ====
section
/-! DEFINITION. VEC instructions: the scalar forms (R133) and the tensor forms (R134, R186, R187, Table 05-6). -/
namespace Sys2Proof.Machine

/-! ## Scalar forms -/

/-- The second operand of format A. -/
def aSecond (y : Ctx) (w e : W64) : W64 := if aIs w then aImm w e else y.s (aSb w)
/-- The registers that the second operand names. -/
def aSecondUse (w : W64) : List Nat := if aIs w then [] else [aSb w]
/-- A field that names a predicate: its low 3 bits, and one clamp where the others are nonzero (R133). -/
def predOf (f : Nat) : Nat × Nat := (f % 8, b2n (f / 8 != 0))

namespace Dev

/-- SD ← f (SA, second operand). -/
def scalarOp (d : Dev) (c : Nat) (w x : W64) (op : Nat) (f : W64 → W64 → W64) : Dev :=
  d.run c w x 3 op .opt (aSd w :: aSa w :: aSecondUse w) (fun d y e _ => .next (d.modCtx c (fun z => z.setS (aSd w) (f (y.s (aSa w)) (aSecond y w e)))))
/-- Predicate SD[2:0] ← f (SA, second operand). -/
def compareOp (d : Dev) (c : Nat) (w x : W64) (op : Nat) (f : W64 → W64 → Bool) : Dev :=
  d.run c w x 3 op .opt (aSa w :: aSecondUse w) (fun d y e _ =>
    let p := predOf (aSd w)
    .next ((d.clampC c p.2).modCtx c (fun z => z.setP p.1 (f (y.s (aSa w)) (aSecond y w e)))))

end Dev

/-- VEC.DIVU and VEC.REMU (R133). -/
def divu (a b : W64) : W64 := if b = 0#64 then 0xFFFFFFFFFFFFFFFF#64 else a / b
def remu (a b : W64) : W64 := if b = 0#64 then a else a % b
/-- VEC.MIN and VEC.MAX (R133). -/
def smin (a b : W64) : W64 := if b.toInt < a.toInt then b else a
def smax (a b : W64) : W64 := if a.toInt < b.toInt then b else a

/-- VEC.ADD (R133). -/
def execVecAdd (c : BitVec 12) (w x : W64) (s : State) : Out := .next (s.onDev (fun d => d.scalarOp c.toNat w x 0x00 (fun a b => a + b)))
/-- VEC.SUB (R133). -/
def execVecSub (c : BitVec 12) (w x : W64) (s : State) : Out := .next (s.onDev (fun d => d.scalarOp c.toNat w x 0x01 (fun a b => a - b)))
/-- VEC.MUL (R133). -/
def execVecMul (c : BitVec 12) (w x : W64) (s : State) : Out := .next (s.onDev (fun d => d.scalarOp c.toNat w x 0x02 (fun a b => a * b)))
/-- VEC.DIVU (R133). -/
def execVecDivu (c : BitVec 12) (w x : W64) (s : State) : Out := .next (s.onDev (fun d => d.scalarOp c.toNat w x 0x03 divu))
/-- VEC.REMU (R133). -/
def execVecRemu (c : BitVec 12) (w x : W64) (s : State) : Out := .next (s.onDev (fun d => d.scalarOp c.toNat w x 0x04 remu))
/-- VEC.AND (R133). -/
def execVecAnd (c : BitVec 12) (w x : W64) (s : State) : Out := .next (s.onDev (fun d => d.scalarOp c.toNat w x 0x05 (fun a b => a &&& b)))
/-- VEC.OR (R133). -/
def execVecOr (c : BitVec 12) (w x : W64) (s : State) : Out := .next (s.onDev (fun d => d.scalarOp c.toNat w x 0x06 (fun a b => a ||| b)))
/-- VEC.XOR (R133). -/
def execVecXor (c : BitVec 12) (w x : W64) (s : State) : Out := .next (s.onDev (fun d => d.scalarOp c.toNat w x 0x07 (fun a b => a ^^^ b)))
/-- VEC.SHL (R133). -/
def execVecShl (c : BitVec 12) (w x : W64) (s : State) : Out := .next (s.onDev (fun d => d.scalarOp c.toNat w x 0x08 (fun a b => a <<< (b.toNat % 64))))
/-- VEC.SHR (R133). -/
def execVecShr (c : BitVec 12) (w x : W64) (s : State) : Out := .next (s.onDev (fun d => d.scalarOp c.toNat w x 0x09 (fun a b => a >>> (b.toNat % 64))))
/-- VEC.SAR (R133). -/
def execVecSar (c : BitVec 12) (w x : W64) (s : State) : Out := .next (s.onDev (fun d => d.scalarOp c.toNat w x 0x0A (fun a b => a.sshiftRight (b.toNat % 64))))
/-- VEC.MIN (R133). -/
def execVecMin (c : BitVec 12) (w x : W64) (s : State) : Out := .next (s.onDev (fun d => d.scalarOp c.toNat w x 0x0B smin))
/-- VEC.MAX (R133). -/
def execVecMax (c : BitVec 12) (w x : W64) (s : State) : Out := .next (s.onDev (fun d => d.scalarOp c.toNat w x 0x0C smax))
/-- VEC.LI (R133): SA is no operand of it. -/
def execVecLi (c : BitVec 12) (w x : W64) (s : State) : Out :=
  .next (s.onDev (fun d => d.run c.toNat w x 3 0x0D .opt (aSd w :: aSecondUse w) (fun d y e _ => .next (d.modCtx c.toNat (fun z => z.setS (aSd w) (aSecond y w e))))))
/-- VEC.CMPEQ (R133). -/
def execVecCmpeq (c : BitVec 12) (w x : W64) (s : State) : Out := .next (s.onDev (fun d => d.compareOp c.toNat w x 0x0E (fun a b => a == b)))
/-- VEC.CMPLT (R133). -/
def execVecCmplt (c : BitVec 12) (w x : W64) (s : State) : Out := .next (s.onDev (fun d => d.compareOp c.toNat w x 0x0F (fun a b => decide (a.toInt < b.toInt))))
/-- VEC.CMPLTU (R133). -/
def execVecCmpltu (c : BitVec 12) (w x : W64) (s : State) : Out := .next (s.onDev (fun d => d.compareOp c.toNat w x 0x10 (fun a b => decide (a.toNat < b.toNat))))
/-- VEC.PAND (R133). -/
def execVecPand (c : BitVec 12) (w x : W64) (s : State) : Out :=
  .next (s.onDev (fun d => d.run c.toNat w x 3 0x11 .opt [] (fun d y _ _ =>
    let p := predOf (aSd w)
    let a := predOf (aSa w)
    let b := predOf (aSb w)
    .next ((d.clampC c.toNat (p.2 + a.2 + b.2)).modCtx c.toNat (fun z => z.setP p.1 (y.p a.1 && y.p b.1))))))
/-- VEC.POR (R133). -/
def execVecPor (c : BitVec 12) (w x : W64) (s : State) : Out :=
  .next (s.onDev (fun d => d.run c.toNat w x 3 0x12 .opt [] (fun d y _ _ =>
    let p := predOf (aSd w)
    let a := predOf (aSa w)
    let b := predOf (aSb w)
    .next ((d.clampC c.toNat (p.2 + a.2 + b.2)).modCtx c.toNat (fun z => z.setP p.1 (y.p a.1 || y.p b.1))))))
/-- VEC.PNOT (R133). -/
def execVecPnot (c : BitVec 12) (w x : W64) (s : State) : Out :=
  .next (s.onDev (fun d => d.run c.toNat w x 3 0x13 .opt [] (fun d y _ _ =>
    let p := predOf (aSd w)
    let a := predOf (aSa w)
    .next ((d.clampC c.toNat (p.2 + a.2)).modCtx c.toNat (fun z => z.setP p.1 (!y.p a.1))))))

/-! ## Tensor forms -/

/-- The stochastic rounding of a VEC tensor form: S31 at issue (R135). -/
def vecSr (x : Ctx) (w : W64) : Option W64 := if bit64 w 6 then some (x.s 31) else none

/-- S31 is an operand where SR is set. -/
def vecSrUse (w : W64) : List Nat := if bit64 w 6 then [31] else []

/-- The integer functions of VEC.ELT, each saturating to 64 bits (R134). -/
def eltInt (f : Nat) (a b : Int) : Int :=
  match f with
  | 0 => satTo 64 (a + b)
  | 1 => satTo 64 (a - b)
  | 2 => satTo 64 (a * b)
  | 3 => max a b
  | 4 => min a b
  | 5 => max a 0
  | 12 => (a.natAbs : Int)
  | _ => a
/-- The FP32 functions of VEC.ELT (Table 05-6, R178, Table 07-4). -/
def eltF (f : Nat) (a b : W32) : W32 :=
  let nan := fisNan a || fisNan b
  match f with
  | 0 => fadd a b
  | 1 => fsub a b
  | 2 => fmul a b
  | 3 => if nan then fnan else if (dec32 a).lt (dec32 b) then b else a
  | 4 => if nan then fnan else if (dec32 b).lt (dec32 a) then b else a
  | 5 => frelu a
  | 6 => fexp a
  | 7 => frecip a
  | 8 => frsqrt a
  | 9 => fsilu a
  | 10 => fgelu a
  | 12 => fabs a
  | _ => a
/-- The functions that R134 lets compute in integers. -/
def eltIntOk (f : Nat) : Bool := f ≤ 5 || f == 11 || f == 12

/-- A sum of integers that saturates at each step (R134): in the order of the terms where no order saturates, or all have one sign;
else a free value, the same for the same terms on every run (R114), since the spec gives the terms no order (log 27). -/
def intSum (l : List Int) : Int :=
  let p := (l.filter (0 < ·)).foldl (· + ·) 0
  let n := (l.filter (· < 0)).foldl (· + ·) 0
  if p = 0 || n = 0 || (satTo 64 p = p && satTo 64 n = n) then satTo 64 (p + n) else Config.satSum l
/-- A quotient rounded to the nearest integer, ties to even (R134). -/
def rneDiv (s : Int) (n : Nat) : Int :=
  let q := s / (n : Int)
  let r := s % (n : Int)
  if 2 * r > n || (2 * r = n && q % 2 = 1) then q + 1 else q
/-- An FP32 maximum or minimum of a nonempty list (R177, R178): where both signs of an extreme zero are present, the sign of the
result is free, the same for the same terms on every run (R114; log 27). -/
def fext (big : Bool) (l : List W32) : W32 :=
  if l.any fisNan then fnan else
  let r := l.tail.foldl (fun b v => if (if big then (dec32 b).lt (dec32 v) else (dec32 v).lt (dec32 b)) then v else b) (l.headD 0#32)
  if (r == 0#32 || r == 0x80000000#32) && l.contains 0#32 && l.contains 0x80000000#32 then (if Config.zeroSign big l then 0x80000000#32 else 0#32) else r
/-- The result of an empty MAX (big) or MIN in a format (Table 05-6). -/
def emptyExt (f : Fmt) (big : Bool) : FV :=
  if f.isMx then
    match decF f.fk f.fk.maxCode with
    | .fin _ m e => .fin big m (e + 127)
    | v => v
  else .inf big
/-- One reduction of VEC.RED (Table 05-6, R187). -/
def reduce (op : Nat) (int : Bool) (f : Fmt) (l : List FV) : FV :=
  if int then
    let v := l.map Dev.asInt
    match op with
    | 0 => FV.ofInt (intSum v)
    | 3 => FV.ofInt (intSum (v.map (fun a => satTo 64 (a * a))))
    | 4 => if v.isEmpty then FV.ofInt 0 else FV.ofInt (rneDiv (intSum v) v.length)
    | 1 => if v.isEmpty then emptyExt f true else FV.ofInt (v.tail.foldl max (v.headD 0))
    | _ => if v.isEmpty then emptyExt f false else FV.ofInt (v.tail.foldl min (v.headD 0))
  else
    let v := l.map Dev.as32
    match op with
    | 0 => dec32 (fredSum v)
    | 3 => dec32 (fredSum (v.map (fun a => fmul a a)))
    | 4 => if v.isEmpty then FV.ofInt 0 else dec32 (enc32 ((dec32 (fredSum v)).div (FV.ofInt v.length)))
    | 1 => if v.isEmpty then emptyExt f true else dec32 (fext true v)
    | _ => if v.isEmpty then emptyExt f false else dec32 (fext false v)

namespace Dev

/-- A VEC tensor form from its parts: TDD and other operands, clamps, places read, new values, free words. -/
def vecWork (d : Dev) (c : Nat) (x : Ctx) (w : W64) (z : Opnd) (ops : List Opnd) (clamps : Nat) (reads : List Nat) (vals : List (Option FV)) (draws : Nat) : Work :=
  { ops := z :: ops, clamps := clamps + srBad z.t.fmt (bit64 w 6), flags := 0, reads := reads ++ oldPlaces z.t vals,
    writes := d.putVals c x z.t (vecSr x w) vals, status := none, scales := [], draws := draws }

/-- VEC.ELT (Table 05-6). -/
def eltWork (d : Dev) (c : Nat) (x : Ctx) (w : W64) : Work :=
  let f0 := tMod w % 64
  let f := if 12 < f0 then 11 else f0
  let two := decide (f < 5)
  let z := d.tdOp c x (tTdd w)
  let a := d.tdOp c x (tTda w)
  let b := d.tdOp c x (tTdb w)
  let int := eltIntOk f && a.t.fmt.isInt && (!two || b.t.fmt.isInt)
  let val := fun p =>
    let u := d.bcAt c x a.t z.t p
    let v := if two then d.bcAt c x b.t z.t p else .fin false 0 0
    if int then FV.ofInt (eltInt f (asInt u) (asInt v)) else dec32 (eltF f (as32 u) (as32 v))
  { d.vecWork c x w z (if two then [a, b] else [a]) (b2n (12 < f0) + bcBad a.t z.t [0, 1, 2, 3] + (if two then bcBad b.t z.t [0, 1, 2, 3] else 0))
    (bcPlaces a.t z.t ++ (if two then bcPlaces b.t z.t else [])) ((idxs z.t).map (fun p => some (val p))) 0 with
    steps := paced (if 6 ≤ f && f ≤ 10 then 32 else vecLanes ([a.t.fmt, z.t.fmt] ++ (if two then [b.t.fmt] else []))) z.t.count }
/-- VEC.RED (Table 05-6). -/
def redWork (d : Dev) (c : Nat) (x : Ctx) (w : W64) : Work :=
  let z := d.tdOp c x (tTdd w)
  let a := d.tdOp c x (tTda w)
  let op := if 4 < tMod w % 8 then 0 else tMod w % 8
  let k0 := tMod w / 8 % 4
  let k := if a.t.rank ≤ k0 then 0 else k0
  let others := [0, 1, 2, 3].filter (· ≠ k)
  let at' := fun p j => if a.t.count = 0 then FV.fin false 0 0 else
    let q := idxSet (bcIdx a.t z.t 0 (idxGet p 0), bcIdx a.t z.t 1 (idxGet p 1), bcIdx a.t z.t 2 (idxGet p 2), bcIdx a.t z.t 3 (idxGet p 3)) k j
    d.elemAt c x a.t q.1 q.2.1 q.2.2.1 q.2.2.2
  let val := fun p => reduce op a.t.fmt.isInt z.t.fmt ((List.range (a.t.dim k)).map (at' p))
  let e := fun i => if i = k || a.t.dim i = z.t.dim i then a.t.dim i else 1
  d.vecWork c x w z [a] (b2n (4 < tMod w % 8) + b2n (a.t.rank ≤ k0) + bcBad a.t z.t others + b2n (z.t.dim k != 1))
    (if a.t.count = 0 || z.t.count = 0 then [] else extentPlaces a.t (e 0) (e 1) (e 2) (e 3))
    ((idxs z.t).map (fun p => if idxGet p k = 0 then some (val p) else none)) 0
/-- VEC.SOFTMAX (Tables 05-6 and 07-4). -/
def softmaxWork (d : Dev) (c : Nat) (x : Ctx) (w : W64) : Work :=
  let z := d.tdOp c x (tTdd w)
  let a := d.tdOp c x (tTda w)
  let k0 := tMod w % 4
  let k := if a.t.rank ≤ k0 then 0 else k0
  let val := fun p =>
    let l := (List.range (z.t.dim k)).map (fun j => as32 (d.bcAt c x a.t z.t (idxSet p k j)))
    let mx := fext true l
    let t := fun v => fexp (fsub v mx)
    dec32 (fmul (t (as32 (d.bcAt c x a.t z.t p))) (frecip (fredSum (l.map t))))
  d.vecWork c x w z [a] (b2n (a.t.rank ≤ k0) + bcBad a.t z.t [0, 1, 2, 3]) (bcPlaces a.t z.t) ((idxs z.t).map (fun p => some (val p))) 0
/-- VEC.RMSNORM (Tables 05-6 and 07-4): ext is the extension word, where there is one. -/
def rmsnormWork (d : Dev) (c : Nat) (x : Ctx) (w : W64) (ext : Option W64) : Work :=
  let z := d.tdOp c x (tTdd w)
  let a := d.tdOp c x (tTda w)
  let b := d.tdOp c x (tTdb w)
  let eps := match ext with | some e => BitVec.ofNat 32 e.toNat | none => 0x35800000#32
  let val := fun p =>
    let l := (List.range z.t.d0).map (fun j => as32 (d.bcAt c x a.t z.t (idxSet p 0 j)))
    let ms := enc32 ((dec32 (fredSum (l.map (fun v => fmul v v)))).div (FV.ofInt z.t.d0))
    let q := frsqrt (fadd ms eps)
    dec32 (fmul (fmul (as32 (d.bcAt c x a.t z.t p)) q) (as32 (d.bcAt c x b.t z.t p)))
  d.vecWork c x w z [a, b] (bcBad a.t z.t [0, 1, 2, 3] + bcBad b.t z.t [0, 1, 2, 3]) (bcPlaces a.t z.t ++ bcPlaces b.t z.t)
    ((idxs z.t).map (fun p => some (val p))) 0
/-- The indices that VEC.GATHER and VEC.SCATTER read of TDB, at most n, held below lim; how many places it has (Table 05-6). -/
def columnIds (d : Dev) (c : Nat) (x : Ctx) (t : Tensor) (n lim : Nat) : List Nat × Nat × Nat :=
  let have' := if t.count = 0 then 0 else t.d0
  let raw := (List.range (min n have')).map (fun i => signedOf 32 (d.elemCodeAt c x t i 0 0 0))
  let ids := raw.map (fun v => if v < 0 then 0 else min v.toNat (lim - 1))
  (ids, have', b2n (raw.any (fun v => decide (v < 0) || decide (lim ≤ v.toNat && v.toNat != 0))))
/-- An element that a gather or scatter moves (Table 05-6): in FP32, of whichever format (R134). -/
def moved (d : Dev) (c : Nat) (x : Ctx) (a z : Tensor) (p : Nat × Nat × Nat × Nat) (j : Nat) : FV :=
  if a.count = 0 then .fin false 0 0 else
  dec32 (as32 (d.elemAt c x a (bcIdx a z 0 p.1) j (bcIdx a z 2 p.2.2.1) (bcIdx a z 3 p.2.2.2)))
/-- The places that a gather or scatter reads of TDA: of the named columns. -/
def movedPlaces (a z : Tensor) (js : List Nat) : List Nat :=
  if a.count = 0 || z.count = 0 then [] else
  let e := fun k => if a.dim k = z.dim k then a.dim k else 1
  js.eraseDups.flatMap (fun j => (indices (e 0) 1 (e 2) (e 3)).flatMap (fun p => elemPlaces a p.1 j p.2.2.1 p.2.2.2 ++
    (if a.fmt.isMx && p.1 % 32 == 0 then [a.at' (a.scaleOff (p.1 / 32) j p.2.2.1 p.2.2.2)] else [])))
/-- VEC.GATHER (Table 05-6). -/
def gatherWork (d : Dev) (c : Nat) (x : Ctx) (w : W64) : Work :=
  let z := d.tdOp c x (tTdd w)
  let a := d.tdOp c x (tTda w)
  let b := d.operandOf c only0 (tensorAs (x.td (tTdb w)) .int32)
  let ids := d.columnIds c x b.t z.t.d1 a.t.d1
  { d.vecWork c x w z [a, b] (bcBad a.t z.t [0, 2, 3] + ids.2.2 + b2n (ids.2.1 < z.t.d1))
    (extentPlaces b.t (min z.t.d1 ids.2.1) 1 1 1 ++ movedPlaces a.t z.t ids.1)
    ((idxs z.t).map (fun p => (ids.1[p.2.1]?).map (fun j => d.moved c x a.t z.t p j))) 0 with steps := paced (vecLanes [a.t.fmt, z.t.fmt]) z.t.count }
/-- VEC.SCATTER (Table 05-6): of several columns that name one, the one that stands is free. -/
def scatterWork (d : Dev) (c : Nat) (x : Ctx) (w : W64) : Work :=
  let z := d.tdOp c x (tTdd w)
  let a := d.tdOp c x (tTda w)
  let b := d.operandOf c only0 (tensorAs (x.td (tTdb w)) .int32)
  let ids := d.columnIds c x b.t a.t.d1 z.t.d1
  let from' := fun col =>
    let l := (List.range ids.1.length).filter (fun i => ids.1.getD i 0 == col)
    l[(d.freeAt col).toNat % l.length]?
  { d.vecWork c x w z [a, b] (bcBad a.t z.t [0, 2, 3] + ids.2.2 + b2n (ids.2.1 < a.t.d1))
    (extentPlaces b.t (min a.t.d1 ids.2.1) 1 1 1 ++ movedPlaces a.t z.t (List.range ids.1.length))
    ((idxs z.t).map (fun p => (from' p.2.1).map (fun i => d.moved c x a.t z.t p i))) z.t.d1 with steps := paced (vecLanes [a.t.fmt, z.t.fmt]) z.t.count }

end Dev

/-- VEC.ELT (R134). -/
def execVecElt (c : BitVec 12) (w x : W64) (s : State) : Out :=
  .next ((s.onDev (fun d => d.run c.toNat w x 3 0x20 .none (vecSrUse w) (fun d y _ n => d.doWork c.toNat y n (d.eltWork c.toNat y w)))).settled)
/-- VEC.RED (R134). -/
def execVecRed (c : BitVec 12) (w x : W64) (s : State) : Out :=
  .next ((s.onDev (fun d => d.run c.toNat w x 3 0x21 .none (vecSrUse w) (fun d y _ n => d.doWork c.toNat y n (d.redWork c.toNat y w)))).settled)
/-- VEC.SOFTMAX (R186). -/
def execVecSoftmax (c : BitVec 12) (w x : W64) (s : State) : Out :=
  .next ((s.onDev (fun d => d.run c.toNat w x 3 0x22 .none (vecSrUse w) (fun d y _ n => d.doWork c.toNat y n (d.softmaxWork c.toNat y w)))).settled)
/-- VEC.RMSNORM (R186). -/
def execVecRmsnorm (c : BitVec 12) (w x : W64) (s : State) : Out :=
  .next ((s.onDev (fun d => d.run c.toNat w x 3 0x23 .opt (vecSrUse w) (fun d y e n =>
    d.doWork c.toNat y n (d.rmsnormWork c.toNat y w (if iExt w then some e else none))))).settled)
/-- VEC.GATHER (R134). -/
def execVecGather (c : BitVec 12) (w x : W64) (s : State) : Out :=
  .next ((s.onDev (fun d => d.run c.toNat w x 3 0x24 .none (vecSrUse w) (fun d y _ n => d.doWork c.toNat y n (d.gatherWork c.toNat y w)))).settled)
/-- VEC.SCATTER (R134). -/
def execVecScatter (c : BitVec 12) (w x : W64) (s : State) : Out :=
  .next ((s.onDev (fun d => d.run c.toNat w x 3 0x25 .none (vecSrUse w) (fun d y _ n => d.doWork c.toNat y n (d.scatterWork c.toNat y w)))).settled)

end Sys2Proof.Machine
end

