-- ==== Sys2Proof/Machine/Dispatch.lean ====
section
/-! DEFINITION. The dispatch: one arm for each command, each a direct call of its meaning. -/
namespace Sys2Proof.Machine

def exec (i : Instr) (s : State) : Host.Outcome State Fault Refusal :=
  match i with
  | .registerWrite r a n v => Sys2Proof.Machine.execRegisterWrite r a n v s
  | .registerHoleAccess r a wr => Sys2Proof.Machine.execRegisterHoleAccess r a wr s
  | .chamois8bytePairAccess k a wr v => Sys2Proof.Machine.execChamois8bytePairAccess k a wr v s
  | .pairLowWordRead r a => Sys2Proof.Machine.execPairLowWordRead r a s
  | .pairHighWordWrite r a v => Sys2Proof.Machine.execPairHighWordWrite r a v s
  | .pairLowWordWrite r a v => Sys2Proof.Machine.execPairLowWordWrite r a v s
  | .tempoWindowComplete ix rate => Sys2Proof.Machine.execTempoWindowComplete ix rate s
  | .tempoClrCount r ix => Sys2Proof.Machine.execTempoClrCount r ix s
  | .tempoMinRead r ix => Sys2Proof.Machine.execTempoMinRead r ix s
  | .addrClampCntRead r j => Sys2Proof.Machine.execAddrClampCntRead r j s
  | .tsSkewCompare d0 d1 => Sys2Proof.Machine.execTsSkewCompare d0 d1 s
  | .dcqWrite q ix up e => Sys2Proof.Machine.execDcqWrite q ix up e s
  | .dcqRead q ix up => Sys2Proof.Machine.execDcqRead q ix up s
  | .clockStop dom ix => Sys2Proof.Machine.execClockStop dom ix s
  | .clockRestart dom ix => Sys2Proof.Machine.execClockRestart dom ix s
  | .queueResync q ix up wr rd => Sys2Proof.Machine.execQueueResync q ix up wr rd s
  | .d2dFlitReceive l up m sq vc good e => Sys2Proof.Machine.execD2dFlitReceive l up m sq vc good e s
  | .d2dModuleRetrain l m lanes => Sys2Proof.Machine.execD2dModuleRetrain l m lanes s
  | .d2dRetrainComplete l m good => Sys2Proof.Machine.execD2dRetrainComplete l m good s
  | .chamoisMemoryAccess k a op n v => Sys2Proof.Machine.execChamoisMemoryAccess k a op n v s
  | .instructionFetchEnd c => Sys2Proof.Machine.execInstructionFetchEnd c s
  | .undefinedOpcode c w x => Sys2Proof.Machine.execUndefinedOpcode c w x s
  | .ctlNop c w x => Sys2Proof.Machine.execCtlNop c w x s
  | .ctlEnd c w x => Sys2Proof.Machine.execCtlEnd c w x s
  | .ctlBr c w x => Sys2Proof.Machine.execCtlBr c w x s
  | .ctlJr c w x => Sys2Proof.Machine.execCtlJr c w x s
  | .ctlCall c w x => Sys2Proof.Machine.execCtlCall c w x s
  | .ctlCallr c w x => Sys2Proof.Machine.execCtlCallr c w x s
  | .ctlLoop c w x => Sys2Proof.Machine.execCtlLoop c w x s
  | .qryCap c w x => Sys2Proof.Machine.execQryCap c w x s
  | .qrySelf c w x => Sys2Proof.Machine.execQrySelf c w x s
  | .qryTime c w x => Sys2Proof.Machine.execQryTime c w x s
  | .qryEvent c w x => Sys2Proof.Machine.execQryEvent c w x s
  | .synSignal c w x => Sys2Proof.Machine.execSynSignal c w x s
  | .synWait c w x => Sys2Proof.Machine.execSynWait c w x s
  | .eventWaitSatisfied c => Sys2Proof.Machine.execEventWaitSatisfied c s
  | .synFence c w x => Sys2Proof.Machine.execSynFence c w x s
  | .synTask c w x => Sys2Proof.Machine.execSynTask c w x s
  | .taskBoundaryRecord c => Sys2Proof.Machine.execTaskBoundaryRecord c s
  | .synLda c w x => Sys2Proof.Machine.execSynLda c w x s
  | .synStrel c w x => Sys2Proof.Machine.execSynStrel c w x s
  | .synWaitm c w x => Sys2Proof.Machine.execSynWaitm c w x s
  | .synBar c w x => Sys2Proof.Machine.execSynBar c w x s
  | .waitmRecheck c => Sys2Proof.Machine.execWaitmRecheck c s
  | .waitmPoll c => Sys2Proof.Machine.execWaitmPoll c s
  | .vecAdd c w x => Sys2Proof.Machine.execVecAdd c w x s
  | .vecSub c w x => Sys2Proof.Machine.execVecSub c w x s
  | .vecMul c w x => Sys2Proof.Machine.execVecMul c w x s
  | .vecDivu c w x => Sys2Proof.Machine.execVecDivu c w x s
  | .vecRemu c w x => Sys2Proof.Machine.execVecRemu c w x s
  | .vecAnd c w x => Sys2Proof.Machine.execVecAnd c w x s
  | .vecOr c w x => Sys2Proof.Machine.execVecOr c w x s
  | .vecXor c w x => Sys2Proof.Machine.execVecXor c w x s
  | .vecShl c w x => Sys2Proof.Machine.execVecShl c w x s
  | .vecShr c w x => Sys2Proof.Machine.execVecShr c w x s
  | .vecSar c w x => Sys2Proof.Machine.execVecSar c w x s
  | .vecMin c w x => Sys2Proof.Machine.execVecMin c w x s
  | .vecMax c w x => Sys2Proof.Machine.execVecMax c w x s
  | .vecLi c w x => Sys2Proof.Machine.execVecLi c w x s
  | .vecCmpeq c w x => Sys2Proof.Machine.execVecCmpeq c w x s
  | .vecCmplt c w x => Sys2Proof.Machine.execVecCmplt c w x s
  | .vecCmpltu c w x => Sys2Proof.Machine.execVecCmpltu c w x s
  | .vecPand c w x => Sys2Proof.Machine.execVecPand c w x s
  | .vecPor c w x => Sys2Proof.Machine.execVecPor c w x s
  | .vecPnot c w x => Sys2Proof.Machine.execVecPnot c w x s
  | .vecElt c w x => Sys2Proof.Machine.execVecElt c w x s
  | .vecRed c w x => Sys2Proof.Machine.execVecRed c w x s
  | .vecSoftmax c w x => Sys2Proof.Machine.execVecSoftmax c w x s
  | .vecRmsnorm c w x => Sys2Proof.Machine.execVecRmsnorm c w x s
  | .vecGather c w x => Sys2Proof.Machine.execVecGather c w x s
  | .vecScatter c w x => Sys2Proof.Machine.execVecScatter c w x s
  | .mmMac c w x => Sys2Proof.Machine.execMmMac c w x s
  | .mmMacComplete c => Sys2Proof.Machine.execMmMacComplete c s
  | .qntQ c w x => Sys2Proof.Machine.execQntQ c w x s
  | .qntDq c w x => Sys2Proof.Machine.execQntDq c w x s
  | .qntSgrad c w x => Sys2Proof.Machine.execQntSgrad c w x s
  | .qntSld c w x => Sys2Proof.Machine.execQntSld c w x s
  | .qntSst c w x => Sys2Proof.Machine.execQntSst c w x s
  | .rotWht c w x => Sys2Proof.Machine.execRotWht c w x s
  | .selHist c w x => Sys2Proof.Machine.execSelHist c w x s
  | .selFilt c w x => Sys2Proof.Machine.execSelFilt c w x s
  | .selTopk c w x => Sys2Proof.Machine.execSelTopk c w x s
  | .selMerge c w x => Sys2Proof.Machine.execSelMerge c w x s
  | .selSort c w x => Sys2Proof.Machine.execSelSort c w x s
  | .strLd c w x => Sys2Proof.Machine.execStrLd c w x s
  | .strSt c w x => Sys2Proof.Machine.execStrSt c w x s
  | .strPf c w x => Sys2Proof.Machine.execStrPf c w x s
  | .strMove c w x => Sys2Proof.Machine.execStrMove c w x s
  | .strLds c w x => Sys2Proof.Machine.execStrLds c w x s
  | .strSts c w x => Sys2Proof.Machine.execStrSts c w x s
  | .strLds4 c w x => Sys2Proof.Machine.execStrLds4 c w x s
  | .strSts4 c w x => Sys2Proof.Machine.execStrSts4 c w x s
  | .strTdld c w x => Sys2Proof.Machine.execStrTdld c w x s
  | .strTdst c w x => Sys2Proof.Machine.execStrTdst c w x s
  | .strTdw c w x => Sys2Proof.Machine.execStrTdw c w x s
  | .strTdr c w x => Sys2Proof.Machine.execStrTdr c w x s
  | .strTdadd c w x => Sys2Proof.Machine.execStrTdadd c w x s
  | .fabAmo c w x => Sys2Proof.Machine.execFabAmo c w x s
  | .fabPut c w x => Sys2Proof.Machine.execFabPut c w x s
  | .fabSendTokens c w x => Sys2Proof.Machine.execFabSendTokens c w x s
  | .fabRecvTokens c w x => Sys2Proof.Machine.execFabRecvTokens c w x s
  | .tokenGatherComplete c => Sys2Proof.Machine.execTokenGatherComplete c s
  | .fabReplyTokens c w x => Sys2Proof.Machine.execFabReplyTokens c w x s
  | .scnQuery c w x => Sys2Proof.Machine.execScnQuery c w x s
  | .scnRerank c w x => Sys2Proof.Machine.execScnRerank c w x s
  | .scnAppend c w x => Sys2Proof.Machine.execScnAppend c w x s
  | .scnDelete c w x => Sys2Proof.Machine.execScnDelete c w x s
  | .scnGen c w x => Sys2Proof.Machine.execScnGen c w x s
  | .streamBeatGrant k => Sys2Proof.Machine.execStreamBeatGrant k s
  | .streamBeatLand k b => Sys2Proof.Machine.execStreamBeatLand k b s
  | .streamTransferComplete c e => Sys2Proof.Machine.execStreamTransferComplete c e s
  | .taskAbort c cause e a => Sys2Proof.Machine.execTaskAbort c cause e a s
  | .taskRestart c => Sys2Proof.Machine.execTaskRestart c s
  | .sePause r k e on => Sys2Proof.Machine.execSePause r k e on s
  | .arrayGapBegin k m => Sys2Proof.Machine.execArrayGapBegin k m s
  | .arrayRampDownStart k m => Sys2Proof.Machine.execArrayRampDownStart k m s
  | .arrayRampInterval k m => Sys2Proof.Machine.execArrayRampInterval k m s
  | .arrayRampUp k m => Sys2Proof.Machine.execArrayRampUp k m s
  | .kuduCoreStop r k => Sys2Proof.Machine.execKuduCoreStop r k s
  | .kuduCoreStopped k => Sys2Proof.Machine.execKuduCoreStopped k s
  | .kuduCoreRun r k => Sys2Proof.Machine.execKuduCoreRun r k s
  | .kuduScaleWrite r k e hi v => Sys2Proof.Machine.execKuduScaleWrite r k e hi v s
  | .launchSubmit r a => Sys2Proof.Machine.execLaunchSubmit r a s
  | .launchDequeue p => Sys2Proof.Machine.execLaunchDequeue p s
  | .completionRecordWrite c => Sys2Proof.Machine.execCompletionRecordWrite c s
  | .partKuduOwnWrite r k v => Sys2Proof.Machine.execPartKuduOwnWrite r k v s
  | .kuduOwnerApply k => Sys2Proof.Machine.execKuduOwnerApply k s
  | .partChamOwnWrite r k v => Sys2Proof.Machine.execPartChamOwnWrite r k v s
  | .partCfgWrite r p v => Sys2Proof.Machine.execPartCfgWrite r p v s
  | .partOryxWrite r p v => Sys2Proof.Machine.execPartOryxWrite r p v s
  | .sliceEnd p => Sys2Proof.Machine.execSliceEnd p s
  | .contextSwitch k c => Sys2Proof.Machine.execContextSwitch k c s
  | .coreSteal k => Sys2Proof.Machine.execCoreSteal k s
  | .allBlockedSwap k => Sys2Proof.Machine.execAllBlockedSwap k s
  | .preempt c => Sys2Proof.Machine.execPreempt c s
  | .capturedReplyLand c ix good e => Sys2Proof.Machine.execCapturedReplyLand c ix good e s
  | .contextRestore k c => Sys2Proof.Machine.execContextRestore k c s
  | .contextEndRequest r c => Sys2Proof.Machine.execContextEndRequest r c s
  | .contextClearClamp r c => Sys2Proof.Machine.execContextClearClamp r c s
  | .fencedContextRestart c => Sys2Proof.Machine.execFencedContextRestart c s
  | .chamHalt r k on => Sys2Proof.Machine.execChamHalt r k on s
  | .chamTrap r k => Sys2Proof.Machine.execChamTrap r k s
  | .ocmdCreate k a => Sys2Proof.Machine.execOcmdCreate k a s
  | .ocmdFree k a => Sys2Proof.Machine.execOcmdFree k a s
  | .ocmdMove k a => Sys2Proof.Machine.execOcmdMove k a s
  | .ocmdPin k a => Sys2Proof.Machine.execOcmdPin k a s
  | .ocmdUnpin k a => Sys2Proof.Machine.execOcmdUnpin k a s
  | .ocmdRebaseAck k a => Sys2Proof.Machine.execOcmdRebaseAck k a s
  | .ocmdQuery k a => Sys2Proof.Machine.execOcmdQuery k a s
  | .objectMovePublish o => Sys2Proof.Machine.execObjectMovePublish o s
  | .forwardRetire f => Sys2Proof.Machine.execForwardRetire f s
  | .forwardLate f => Sys2Proof.Machine.execForwardLate f s
  | .poolDemote j => Sys2Proof.Machine.execPoolDemote j s
  | .allocWaitExpire f => Sys2Proof.Machine.execAllocWaitExpire f s
  | .herdFlitReceive h e => Sys2Proof.Machine.execHerdFlitReceive h e s
  | .herdNakReceive h ack => Sys2Proof.Machine.execHerdNakReceive h ack s
  | .herdNakRepeat h => Sys2Proof.Machine.execHerdNakRepeat h s
  | .herdLinkTransmit h => Sys2Proof.Machine.execHerdLinkTransmit h s
  | .hlSignalDetect h => Sys2Proof.Machine.execHlSignalDetect h s
  | .hlTrainingComplete h => Sys2Proof.Machine.execHlTrainingComplete h s
  | .hlTrainingTimeout h => Sys2Proof.Machine.execHlTrainingTimeout h s
  | .hlTrainingRetry h => Sys2Proof.Machine.execHlTrainingRetry h s
  | .hlRetrainEnter h lost => Sys2Proof.Machine.execHlRetrainEnter h lost s
  | .hlRetrainComplete h => Sys2Proof.Machine.execHlRetrainComplete h s
  | .hlRetrainTimeout h => Sys2Proof.Machine.execHlRetrainTimeout h s
  | .hlDisable r h on => Sys2Proof.Machine.execHlDisable r h on s
  | .rd h m => Sys2Proof.Machine.execRd h m s
  | .rdShared h m => Sys2Proof.Machine.execRdShared h m s
  | .rdOwn h m => Sys2Proof.Machine.execRdOwn h m s
  | .upgrade h m => Sys2Proof.Machine.execUpgrade h m s
  | .wr h m => Sys2Proof.Machine.execWr h m s
  | .wrp h m => Sys2Proof.Machine.execWrp h m s
  | .wb h m => Sys2Proof.Machine.execWb h m s
  | .amo h m => Sys2Proof.Machine.execAmo h m s
  | .evict h m => Sys2Proof.Machine.execEvict h m s
  | .lendReq h m => Sys2Proof.Machine.execLendReq h m s
  | .lendFree h m => Sys2Proof.Machine.execLendFree h m s
  | .recall h m => Sys2Proof.Machine.execRecall h m s
  | .data h m => Sys2Proof.Machine.execData h m s
  | .dataS h m => Sys2Proof.Machine.execDataS h m s
  | .dataE h m => Sys2Proof.Machine.execDataE h m s
  | .ack h m => Sys2Proof.Machine.execAck h m s
  | .ackE h m => Sys2Proof.Machine.execAckE h m s
  | .invAck h m => Sys2Proof.Machine.execInvAck h m s
  | .fwdData h m => Sys2Proof.Machine.execFwdData h m s
  | .receipt h m => Sys2Proof.Machine.execReceipt h m s
  | .lendGrant h m => Sys2Proof.Machine.execLendGrant h m s
  | .inv h m => Sys2Proof.Machine.execInv h m s
  | .fwdS h m => Sys2Proof.Machine.execFwdS h m s
  | .fwdI h m => Sys2Proof.Machine.execFwdI h m s
  | .token h m => Sys2Proof.Machine.execToken h m s
  | .close h m => Sys2Proof.Machine.execClose h m s
  | .tokenReply h m => Sys2Proof.Machine.execTokenReply h m s
  | .hello h m => Sys2Proof.Machine.execHello h m s
  | .probe h m => Sys2Proof.Machine.execProbe h m s
  | .probeReply h m => Sys2Proof.Machine.execProbeReply h m s
  | .assign h m => Sys2Proof.Machine.execAssign h m s
  | .route h m => Sys2Proof.Machine.execRoute h m s
  | .nodeGone h m => Sys2Proof.Machine.execNodeGone h m s
  | .helloPeriod h => Sys2Proof.Machine.execHelloPeriod h s
  | .enumerationStart r => Sys2Proof.Machine.execEnumerationStart r s
  | .probeTimeout t => Sys2Proof.Machine.execProbeTimeout t s
  | .nodeGoneTimer n => Sys2Proof.Machine.execNodeGoneTimer n s
  | .herdRequestTimeout tag => Sys2Proof.Machine.execHerdRequestTimeout tag s
  | .tagReuseGuard tag => Sys2Proof.Machine.execTagReuseGuard tag s
  | .snpResend n a => Sys2Proof.Machine.execSnpResend n a s
  | .snpCutoff n a => Sys2Proof.Machine.execSnpCutoff n a s
  | .routeLoss n => Sys2Proof.Machine.execRouteLoss n s
  | .roundTimer g rd => Sys2Proof.Machine.execRoundTimer g rd s
  | .serveTimer g rd => Sys2Proof.Machine.execServeTimer g rd s
  | .replyTimer c tok ex => Sys2Proof.Machine.execReplyTimer c tok ex s
  | .dirGrpReset r g => Sys2Proof.Machine.execDirGrpReset r g s
  | .collCreate k a => Sys2Proof.Machine.execCollCreate k a s
  | .collDestroy k a => Sys2Proof.Machine.execCollDestroy k a s
  | .collInfo k a => Sys2Proof.Machine.execCollInfo k a s
  | .collectionRelease l => Sys2Proof.Machine.execCollectionRelease l s
  | .searchJobStart j => Sys2Proof.Machine.execSearchJobStart j s
  | .oryxPass ch j => Sys2Proof.Machine.execOryxPass ch j s
  | .reselect j ix => Sys2Proof.Machine.execReselect j ix s
  | .oryxPassComplete ch => Sys2Proof.Machine.execOryxPassComplete ch s
  | .partialListMerge j ix => Sys2Proof.Machine.execPartialListMerge j ix s
  | .searchJobComplete j => Sys2Proof.Machine.execSearchJobComplete j s
  | .largeKReselect j => Sys2Proof.Machine.execLargeKReselect j s
  | .generationPublish l => Sys2Proof.Machine.execGenerationPublish l s
  | .compactionStart l => Sys2Proof.Machine.execCompactionStart l s
  | .compactionPublish l => Sys2Proof.Machine.execCompactionPublish l s
  | .compactionRelease l => Sys2Proof.Machine.execCompactionRelease l s
  | .compactionRetry l => Sys2Proof.Machine.execCompactionRetry l s
  | .oryxEnableWrite r ch v => Sys2Proof.Machine.execOryxEnableWrite r ch v s
  | .fchSubmit r ch q v => Sys2Proof.Machine.execFchSubmit r ch q v s
  | .fchCqHeadWrite r ch q v => Sys2Proof.Machine.execFchCqHeadWrite r ch q v s
  | .fchQueueReset r ch q => Sys2Proof.Machine.execFchQueueReset r ch q s
  | .flashNop ch q ix => Sys2Proof.Machine.execFlashNop ch q ix s
  | .flashRead ch q ix => Sys2Proof.Machine.execFlashRead ch q ix s
  | .flashProgram ch q ix => Sys2Proof.Machine.execFlashProgram ch q ix s
  | .flashErase ch q ix => Sys2Proof.Machine.execFlashErase ch q ix s
  | .flashSetBlock ch q ix => Sys2Proof.Machine.execFlashSetBlock ch q ix s
  | .flashGetBlock ch q ix => Sys2Proof.Machine.execFlashGetBlock ch q ix s
  | .flashDieOpComplete ch t good e => Sys2Proof.Machine.execFlashDieOpComplete ch t good e s
  | .eraseSuspended ch t => Sys2Proof.Machine.execEraseSuspended ch t s
  | .eraseResume ch t => Sys2Proof.Machine.execEraseResume ch t s
  | .eraseHoldExpire ch t => Sys2Proof.Machine.execEraseHoldExpire ch t s
  | .dieTimeout ch t => Sys2Proof.Machine.execDieTimeout ch t s
  | .parityRebuild ch t pl b cw n a good => Sys2Proof.Machine.execParityRebuild ch t pl b cw n a good s
  | .blockAdmission => Sys2Proof.Machine.execBlockAdmission s
  | .wbFlushToFlash u => Sys2Proof.Machine.execWbFlushToFlash u s
  | .wbSlotAge b => Sys2Proof.Machine.execWbSlotAge b s
  | .wbcDrain r => Sys2Proof.Machine.execWbcDrain r s
  | .heatDecay => Sys2Proof.Machine.execHeatDecay s
  | .gcReclaim => Sys2Proof.Machine.execGcReclaim s
  | .gcReclaimComplete => Sys2Proof.Machine.execGcReclaimComplete s
  | .gcIdleTimer => Sys2Proof.Machine.execGcIdleTimer s
  | .holdupMeasure mj => Sys2Proof.Machine.execHoldupMeasure mj s
  | .nvmFlush p q => Sys2Proof.Machine.execNvmFlush p q s
  | .nvmWrite p q => Sys2Proof.Machine.execNvmWrite p q s
  | .nvmRead p q => Sys2Proof.Machine.execNvmRead p q s
  | .nvmWriteUncorrectable p q => Sys2Proof.Machine.execNvmWriteUncorrectable p q s
  | .nvmCompare p q => Sys2Proof.Machine.execNvmCompare p q s
  | .nvmWriteZeroes p q => Sys2Proof.Machine.execNvmWriteZeroes p q s
  | .nvmDatasetManagement p q => Sys2Proof.Machine.execNvmDatasetManagement p q s
  | .nvmVerify p q => Sys2Proof.Machine.execNvmVerify p q s
  | .executeProgram p q => Sys2Proof.Machine.execExecuteProgram p q s
  | .loadProgram p q => Sys2Proof.Machine.execLoadProgram p q s
  | .programActivationManagement p q => Sys2Proof.Machine.execProgramActivationManagement p q s
  | .memoryRangeSetManagement p q => Sys2Proof.Machine.execMemoryRangeSetManagement p q s
  | .slmRead p q => Sys2Proof.Machine.execSlmRead p q s
  | .slmWrite p q => Sys2Proof.Machine.execSlmWrite p q s
  | .memoryCopy p q => Sys2Proof.Machine.execMemoryCopy p q s
  | .createIoSubmissionQueue p q => Sys2Proof.Machine.execCreateIoSubmissionQueue p q s
  | .deleteIoSubmissionQueue p q => Sys2Proof.Machine.execDeleteIoSubmissionQueue p q s
  | .createIoCompletionQueue p q => Sys2Proof.Machine.execCreateIoCompletionQueue p q s
  | .deleteIoCompletionQueue p q => Sys2Proof.Machine.execDeleteIoCompletionQueue p q s
  | .getLogPage p q => Sys2Proof.Machine.execGetLogPage p q s
  | .identify p q => Sys2Proof.Machine.execIdentify p q s
  | .nvmeAbort p q => Sys2Proof.Machine.execNvmeAbort p q s
  | .setFeatures p q => Sys2Proof.Machine.execSetFeatures p q s
  | .getFeatures p q => Sys2Proof.Machine.execGetFeatures p q s
  | .asynchronousEventRequest p q => Sys2Proof.Machine.execAsynchronousEventRequest p q s
  | .namespaceManagement p q => Sys2Proof.Machine.execNamespaceManagement p q s
  | .namespaceAttachment p q => Sys2Proof.Machine.execNamespaceAttachment p q s
  | .formatNvm p q => Sys2Proof.Machine.execFormatNvm p q s
  | .sanitize p q => Sys2Proof.Machine.execSanitize p q s
  | .nvmeMiSend p q => Sys2Proof.Machine.execNvmeMiSend p q s
  | .nvmeMiReceive p q => Sys2Proof.Machine.execNvmeMiReceive p q s
  | .firmwareImageDownload p q => Sys2Proof.Machine.execFirmwareImageDownload p q s
  | .firmwareCommit p q => Sys2Proof.Machine.execFirmwareCommit p q s
  | .securitySend p q => Sys2Proof.Machine.execSecuritySend p q s
  | .securityReceive p q => Sys2Proof.Machine.execSecurityReceive p q s
  | .invalidCommandOpcode p opc q => Sys2Proof.Machine.execInvalidCommandOpcode p opc q s
  | .partitionSet p q => Sys2Proof.Machine.execPartitionSet p q s
  | .partitionGet p q => Sys2Proof.Machine.execPartitionGet p q s
  | .contextControl p q => Sys2Proof.Machine.execContextControl p q s
  | .contextState p q => Sys2Proof.Machine.execContextState p q s
  | .objectCommand p q => Sys2Proof.Machine.execObjectCommand p q s
  | .collectionCommand p q => Sys2Proof.Machine.execCollectionCommand p q s
  | .rindImport p q => Sys2Proof.Machine.execRindImport p q s
  | .rindExport p q => Sys2Proof.Machine.execRindExport p q s
  | .fabricEnumerate p q => Sys2Proof.Machine.execFabricEnumerate p q s
  | .fabricStatus p q => Sys2Proof.Machine.execFabricStatus p q s
  | .search p q => Sys2Proof.Machine.execSearch p q s
  | .searchLargeK p q => Sys2Proof.Machine.execSearchLargeK p q s
  | .collectionAppend p q => Sys2Proof.Machine.execCollectionAppend p q s
  | .collectionDelete p q => Sys2Proof.Machine.execCollectionDelete p q s
  | .controllerEnable p => Sys2Proof.Machine.execControllerEnable p s
  | .controllerReset p => Sys2Proof.Machine.execControllerReset p s
  | .functionLevelReset p => Sys2Proof.Machine.execFunctionLevelReset p s
  | .shutdownNotification p abrupt => Sys2Proof.Machine.execShutdownNotification p abrupt s
  | .apstTransition p ps => Sys2Proof.Machine.execApstTransition p ps s
  | .ps3Wake => Sys2Proof.Machine.execPs3Wake s
  | .nonOperationalWake p => Sys2Proof.Machine.execNonOperationalWake p s
  | .portResetPerst conn => Sys2Proof.Machine.execPortResetPerst conn s
  | .perstDeassert conn => Sys2Proof.Machine.execPerstDeassert conn s
  | .hostLinkDown p => Sys2Proof.Machine.execHostLinkDown p s
  | .faultReport f => Sys2Proof.Machine.execFaultReport f s
  | .coreStallTimeout k => Sys2Proof.Machine.execCoreStallTimeout k s
  | .fabricStallTimeout d => Sys2Proof.Machine.execFabricStallTimeout d s
  | .scrubRead m a kind => Sys2Proof.Machine.execScrubRead m a kind s
  | .faultCaptureAck r d cls => Sys2Proof.Machine.execFaultCaptureAck r d cls s
  | .faultInjectArm r d m kind => Sys2Proof.Machine.execFaultInjectArm r d m kind s
  | .faultPinReadbackMismatch pos neg => Sys2Proof.Machine.execFaultPinReadbackMismatch pos neg s
  | .memoryRetire r lpc ix bank old spare => Sys2Proof.Machine.execMemoryRetire r lpc ix bank old spare s
  | .memoryRetireComplete lpc ix => Sys2Proof.Machine.execMemoryRetireComplete lpc ix s
  | .tahrLogPoll => Sys2Proof.Machine.execTahrLogPoll s
  | .tahrLogCommit => Sys2Proof.Machine.execTahrLogCommit s
  | .tempSample e => Sys2Proof.Machine.execTempSample e s
  | .monitorSample e => Sys2Proof.Machine.execMonitorSample e s
  | .settingsSave r => Sys2Proof.Machine.execSettingsSave r s
  | .svnFuseAdvance => Sys2Proof.Machine.execSvnFuseAdvance s
  | .bootRomStart => Sys2Proof.Machine.execBootRomStart s
  | .bootWatchdogExpire => Sys2Proof.Machine.execBootWatchdogExpire s
  | .fawnNop => Sys2Proof.Machine.execFawnNop s
  | .fawnWrite a off e => Sys2Proof.Machine.execFawnWrite a off e s
  | .fawnCommit => Sys2Proof.Machine.execFawnCommit s
  | .fawnBoot => Sys2Proof.Machine.execFawnBoot s
  | .fawnBootOther => Sys2Proof.Machine.execFawnBootOther s
  | .fawnReadLog a off len => Sys2Proof.Machine.execFawnReadLog a off len s
  | .fawnAbort => Sys2Proof.Machine.execFawnAbort s
  | .fawnReservedOp op => Sys2Proof.Machine.execFawnReservedOp op s
  | .getNonce => Sys2Proof.Machine.execGetNonce s
  | .transition target serial nonce owner sig => Sys2Proof.Machine.execTransition target serial nonce owner sig s
  | .readNvmeMiDataStructure typ p => Sys2Proof.Machine.execReadNvmeMiDataStructure typ p s
  | .nvmSubsystemHealthStatusPoll clear => Sys2Proof.Machine.execNvmSubsystemHealthStatusPoll clear s
  | .controllerHealthStatusPoll p => Sys2Proof.Machine.execControllerHealthStatusPoll p s
  | .configurationGet id port => Sys2Proof.Machine.execConfigurationGet id port s
  | .configurationSet id port v => Sys2Proof.Machine.execConfigurationSet id port v s
  | .vpdRead off len => Sys2Proof.Machine.execVpdRead off len s
  | .vpdWrite off e => Sys2Proof.Machine.execVpdWrite off e s
  | .nvmeMiReset => Sys2Proof.Machine.execNvmeMiReset s
  | .tunnelledAdminCommand p opc q => Sys2Proof.Machine.execTunnelledAdminCommand p opc q s
  | .pldmBaseRequest cmd e => Sys2Proof.Machine.execPldmBaseRequest cmd e s
  | .pldmGetSensorReading id => Sys2Proof.Machine.execPldmGetSensorReading id s
  | .pldmRequestUpdate => Sys2Proof.Machine.execPldmRequestUpdate s
  | .pldmActivateFirmware => Sys2Proof.Machine.execPldmActivateFirmware s
  | .getVersion => Sys2Proof.Machine.execGetVersion s
  | .getCapabilities flags => Sys2Proof.Machine.execGetCapabilities flags s
  | .negotiateAlgorithms asym hash => Sys2Proof.Machine.execNegotiateAlgorithms asym hash s
  | .getDigests => Sys2Proof.Machine.execGetDigests s
  | .getCertificate slot off len => Sys2Proof.Machine.execGetCertificate slot off len s
  | .challenge slot e => Sys2Proof.Machine.execChallenge slot e s
  | .getMeasurements idx e => Sys2Proof.Machine.execGetMeasurements idx e s
  | .mainPowerLoss => Sys2Proof.Machine.execMainPowerLoss s
  | .mainPowerReturn => Sys2Proof.Machine.execMainPowerReturn s
  | .coldReset => Sys2Proof.Machine.execColdReset s
  | .deviceReset cause => Sys2Proof.Machine.execDeviceReset cause s
  | .resetPinAssert us => Sys2Proof.Machine.execResetPinAssert us s
  | .resetPinRelease => Sys2Proof.Machine.execResetPinRelease s
  | .pwrCtrlReset r => Sys2Proof.Machine.execPwrCtrlReset r s
  | .nvmSubsystemReset => Sys2Proof.Machine.execNvmSubsystemReset s
  | .startupStepEnd ms fail => Sys2Proof.Machine.execStartupStepEnd ms fail s
  | .holdupBankCharged => Sys2Proof.Machine.execHoldupBankCharged s
  | .powerControlSample watts mv => Sys2Proof.Machine.execPowerControlSample watts mv s
  | .pwrCapWrite r v => Sys2Proof.Machine.execPwrCapWrite r v s
  | .thermalCapStep => Sys2Proof.Machine.execThermalCapStep s
  | .thermalTrip => Sys2Proof.Machine.execThermalTrip s
  | .cageModuleInsert cage watts => Sys2Proof.Machine.execCageModuleInsert cage watts s
  | .hlSignalLoss h => Sys2Proof.Machine.execHlSignalLoss h s
  | .standbyPowerLoss => Sys2Proof.Machine.execStandbyPowerLoss s
  | .eraseMinRunMet ch t => Sys2Proof.Machine.execEraseMinRunMet ch t s
  | .hostLinkUp p speed width flit => Sys2Proof.Machine.execHostLinkUp p speed width flit s
  | .cablePresentChange conn present => Sys2Proof.Machine.execCablePresentChange conn present s
  | .i3cDynamicAddressAssign a => Sys2Proof.Machine.execI3cDynamicAddressAssign a s
  | .mctpSetEndpointId id => Sys2Proof.Machine.execMctpSetEndpointId id s
  | .faultPairRelease => Sys2Proof.Machine.execFaultPairRelease s
  | .pldmFirmwareData off e => Sys2Proof.Machine.execPldmFirmwareData off e s
  | .pcieConfigurationRequest p off wr v => Sys2Proof.Machine.execPcieConfigurationRequest p off wr v s

end Sys2Proof.Machine
end

