-- ==== Sys2Proof/Machine/Step.lean ====
section
/-! DEFINITION. One step of the block: the command at the front of the queue, or one nanosecond of time. -/
namespace Sys2Proof.Machine

/-- One nanosecond passes with no command (log 1): on the main rails the time goes on, and with it what R448 leaves out of the controllers'
idle times. -/
def State.tick (s : State) : State :=
  { s with dev := if s.aon.mainGood then { s.dev.idlePause with now := s.dev.now + 1 } else s.dev, aon := { s.aon with ns := s.aon.ns + 1 } }

/-- Takes the command at the front of the queue and runs it on the state with the queue's rest; on an empty queue time
passes. -/
def step (s : State) : Host.Outcome State Fault Refusal :=
  match s.pending with
  | [] => .next s.tick
  | c :: r => exec c { s with pending := r }

/-- The state with the command that a word spells put at the front of its queue. -/
def State.withFetchWord (s : State) (nbits w : Nat) : State :=
  match Sys2Proof.decodeTableWord nbits w with
  | some c => { s with pending := c :: s.pending }
  | none => s

end Sys2Proof.Machine
end

