-- ==== Sys2Proof/WellFormed.lean ====
section
/-! DEFINITION. Which commands are well formed: what their operands must say beyond their types. -/
namespace Sys2Proof.Machine

/-- A requester that the device has (R68, Table 03-6f): a context, a Chamois core, a node, a port, a partition. -/
def Req.wf : Req → Bool
  | .ctx c => decide (c < 4096)
  | .cham n => decide (n < 32)
  | .remote n => decide (n < 4096)
  | .host p => decide (p < 4)
  | .hostFor p n => decide (p < 4) && decide (n < 16)
  | .unit k i => decide (k < 64) && decide (i < 1024)
/-- A message whose fields fit their places (Table 11-4): nodes of 12 bits, a TAG of 16, data in whole units of 16 bytes. -/
def Msg.wf (m : Msg) : Bool :=
  decide (m.opc < 128) && decide (m.dst < 4096) && decide (m.src < 4096) && decide (m.tag < 65536) && m.data.length % 16 == 0
/-- An NVMe command whose queue, identifier and namespace fit their places (log 44). -/
def NvmeCmd.wf (q : NvmeCmd) : Bool := decide (q.sq < 65536) && decide (q.cid < 65536) && decide (q.nsid < 2 ^ 32)
/-- A fault report of a class and a cause that the spec has, between units of 16 bits (Table 17-7). -/
def FaultReq.wf (f : FaultReq) : Bool := decide (f.cls < 3) && decide (f.cause < 64) && decide (f.master < 65536) && decide (f.source < 65536)
/-- A word bears a class and an operation (Table 05-2). -/
def wordIs (w : W64) (cls op : Nat) : Bool := bits64 w 60 4 == cls && bits64 w 54 6 == op

end Sys2Proof.Machine

namespace Sys2Proof
open Sys2Proof.Machine

/-- The context, the word, the class and the operation of a row that is an ITNUM instruction. -/
def Instr.itnum (i : Instr) : Option (BitVec 12 × W64 × Nat × Nat) :=
  match i with
  | .registerWrite _ _ _ _ => none
  | .registerHoleAccess _ _ _ => none
  | .chamois8bytePairAccess _ _ _ _ => none
  | .pairLowWordRead _ _ => none
  | .pairHighWordWrite _ _ _ => none
  | .pairLowWordWrite _ _ _ => none
  | .tempoWindowComplete _ _ => none
  | .tempoClrCount _ _ => none
  | .tempoMinRead _ _ => none
  | .addrClampCntRead _ _ => none
  | .tsSkewCompare _ _ => none
  | .dcqWrite _ _ _ _ => none
  | .dcqRead _ _ _ => none
  | .clockStop _ _ => none
  | .clockRestart _ _ => none
  | .queueResync _ _ _ _ _ => none
  | .d2dFlitReceive _ _ _ _ _ _ _ => none
  | .d2dModuleRetrain _ _ _ => none
  | .d2dRetrainComplete _ _ _ => none
  | .chamoisMemoryAccess _ _ _ _ _ => none
  | .instructionFetchEnd _ => none
  | .undefinedOpcode c w _ => some (c, w, bits64 w 60 4, bits64 w 54 6)
  | .ctlNop c w _ => some (c, w, 0, 0)
  | .ctlEnd c w _ => some (c, w, 0, 1)
  | .ctlBr c w _ => some (c, w, 0, 2)
  | .ctlJr c w _ => some (c, w, 0, 3)
  | .ctlCall c w _ => some (c, w, 0, 4)
  | .ctlCallr c w _ => some (c, w, 0, 5)
  | .ctlLoop c w _ => some (c, w, 0, 6)
  | .qryCap c w _ => some (c, w, 1, 0)
  | .qrySelf c w _ => some (c, w, 1, 1)
  | .qryTime c w _ => some (c, w, 1, 2)
  | .qryEvent c w _ => some (c, w, 1, 3)
  | .synSignal c w _ => some (c, w, 2, 0)
  | .synWait c w _ => some (c, w, 2, 1)
  | .eventWaitSatisfied _ => none
  | .synFence c w _ => some (c, w, 2, 2)
  | .synTask c w _ => some (c, w, 2, 3)
  | .taskBoundaryRecord _ => none
  | .synLda c w _ => some (c, w, 2, 4)
  | .synStrel c w _ => some (c, w, 2, 5)
  | .synWaitm c w _ => some (c, w, 2, 6)
  | .synBar c w _ => some (c, w, 2, 7)
  | .waitmRecheck _ => none
  | .waitmPoll _ => none
  | .vecAdd c w _ => some (c, w, 3, 0x00)
  | .vecSub c w _ => some (c, w, 3, 0x01)
  | .vecMul c w _ => some (c, w, 3, 0x02)
  | .vecDivu c w _ => some (c, w, 3, 0x03)
  | .vecRemu c w _ => some (c, w, 3, 0x04)
  | .vecAnd c w _ => some (c, w, 3, 0x05)
  | .vecOr c w _ => some (c, w, 3, 0x06)
  | .vecXor c w _ => some (c, w, 3, 0x07)
  | .vecShl c w _ => some (c, w, 3, 0x08)
  | .vecShr c w _ => some (c, w, 3, 0x09)
  | .vecSar c w _ => some (c, w, 3, 0x0A)
  | .vecMin c w _ => some (c, w, 3, 0x0B)
  | .vecMax c w _ => some (c, w, 3, 0x0C)
  | .vecLi c w _ => some (c, w, 3, 0x0D)
  | .vecCmpeq c w _ => some (c, w, 3, 0x0E)
  | .vecCmplt c w _ => some (c, w, 3, 0x0F)
  | .vecCmpltu c w _ => some (c, w, 3, 0x10)
  | .vecPand c w _ => some (c, w, 3, 0x11)
  | .vecPor c w _ => some (c, w, 3, 0x12)
  | .vecPnot c w _ => some (c, w, 3, 0x13)
  | .vecElt c w _ => some (c, w, 3, 0x20)
  | .vecRed c w _ => some (c, w, 3, 0x21)
  | .vecSoftmax c w _ => some (c, w, 3, 0x22)
  | .vecRmsnorm c w _ => some (c, w, 3, 0x23)
  | .vecGather c w _ => some (c, w, 3, 0x24)
  | .vecScatter c w _ => some (c, w, 3, 0x25)
  | .mmMac c w _ => some (c, w, 4, 0)
  | .mmMacComplete _ => none
  | .qntQ c w _ => some (c, w, 5, 0)
  | .qntDq c w _ => some (c, w, 5, 1)
  | .qntSgrad c w _ => some (c, w, 5, 2)
  | .qntSld c w _ => some (c, w, 5, 3)
  | .qntSst c w _ => some (c, w, 5, 4)
  | .rotWht c w _ => some (c, w, 6, 0)
  | .selHist c w _ => some (c, w, 7, 0)
  | .selFilt c w _ => some (c, w, 7, 1)
  | .selTopk c w _ => some (c, w, 7, 2)
  | .selMerge c w _ => some (c, w, 7, 3)
  | .selSort c w _ => some (c, w, 7, 4)
  | .strLd c w _ => some (c, w, 8, 0)
  | .strSt c w _ => some (c, w, 8, 1)
  | .strPf c w _ => some (c, w, 8, 2)
  | .strMove c w _ => some (c, w, 8, 3)
  | .strLds c w _ => some (c, w, 8, 4)
  | .strSts c w _ => some (c, w, 8, 5)
  | .strLds4 c w _ => some (c, w, 8, 6)
  | .strSts4 c w _ => some (c, w, 8, 7)
  | .strTdld c w _ => some (c, w, 8, 8)
  | .strTdst c w _ => some (c, w, 8, 9)
  | .strTdw c w _ => some (c, w, 8, 0xA)
  | .strTdr c w _ => some (c, w, 8, 0xB)
  | .strTdadd c w _ => some (c, w, 8, 0xC)
  | .fabAmo c w _ => some (c, w, 9, 0)
  | .fabPut c w _ => some (c, w, 9, 4)
  | .fabSendTokens c w _ => some (c, w, 9, 1)
  | .fabRecvTokens c w _ => some (c, w, 9, 2)
  | .tokenGatherComplete _ => none
  | .fabReplyTokens c w _ => some (c, w, 9, 3)
  | .scnQuery c w _ => some (c, w, 10, 0)
  | .scnRerank c w _ => some (c, w, 10, 1)
  | .scnAppend c w _ => some (c, w, 10, 2)
  | .scnDelete c w _ => some (c, w, 10, 3)
  | .scnGen c w _ => some (c, w, 10, 4)
  | .streamBeatGrant _ => none
  | .streamBeatLand _ _ => none
  | .streamTransferComplete _ _ => none
  | .taskAbort _ _ _ _ => none
  | .taskRestart _ => none
  | .sePause _ _ _ _ => none
  | .arrayGapBegin _ _ => none
  | .arrayRampDownStart _ _ => none
  | .arrayRampInterval _ _ => none
  | .arrayRampUp _ _ => none
  | .kuduCoreStop _ _ => none
  | .kuduCoreStopped _ => none
  | .kuduCoreRun _ _ => none
  | .kuduScaleWrite _ _ _ _ _ => none
  | .launchSubmit _ _ => none
  | .launchDequeue _ => none
  | .completionRecordWrite _ => none
  | .partKuduOwnWrite _ _ _ => none
  | .kuduOwnerApply _ => none
  | .partChamOwnWrite _ _ _ => none
  | .partCfgWrite _ _ _ => none
  | .partOryxWrite _ _ _ => none
  | .sliceEnd _ => none
  | .contextSwitch _ _ => none
  | .coreSteal _ => none
  | .allBlockedSwap _ => none
  | .preempt _ => none
  | .capturedReplyLand _ _ _ _ => none
  | .contextRestore _ _ => none
  | .contextEndRequest _ _ => none
  | .contextClearClamp _ _ => none
  | .fencedContextRestart _ => none
  | .chamHalt _ _ _ => none
  | .chamTrap _ _ => none
  | .ocmdCreate _ _ => none
  | .ocmdFree _ _ => none
  | .ocmdMove _ _ => none
  | .ocmdPin _ _ => none
  | .ocmdUnpin _ _ => none
  | .ocmdRebaseAck _ _ => none
  | .ocmdQuery _ _ => none
  | .objectMovePublish _ => none
  | .forwardRetire _ => none
  | .forwardLate _ => none
  | .poolDemote _ => none
  | .allocWaitExpire _ => none
  | .herdFlitReceive _ _ => none
  | .herdNakReceive _ _ => none
  | .herdNakRepeat _ => none
  | .herdLinkTransmit _ => none
  | .hlSignalDetect _ => none
  | .hlTrainingComplete _ => none
  | .hlTrainingTimeout _ => none
  | .hlTrainingRetry _ => none
  | .hlRetrainEnter _ _ => none
  | .hlRetrainComplete _ => none
  | .hlRetrainTimeout _ => none
  | .hlDisable _ _ _ => none
  | .rd _ _ => none
  | .rdShared _ _ => none
  | .rdOwn _ _ => none
  | .upgrade _ _ => none
  | .wr _ _ => none
  | .wrp _ _ => none
  | .wb _ _ => none
  | .amo _ _ => none
  | .evict _ _ => none
  | .lendReq _ _ => none
  | .lendFree _ _ => none
  | .recall _ _ => none
  | .data _ _ => none
  | .dataS _ _ => none
  | .dataE _ _ => none
  | .ack _ _ => none
  | .ackE _ _ => none
  | .invAck _ _ => none
  | .fwdData _ _ => none
  | .receipt _ _ => none
  | .lendGrant _ _ => none
  | .inv _ _ => none
  | .fwdS _ _ => none
  | .fwdI _ _ => none
  | .token _ _ => none
  | .close _ _ => none
  | .tokenReply _ _ => none
  | .hello _ _ => none
  | .probe _ _ => none
  | .probeReply _ _ => none
  | .assign _ _ => none
  | .route _ _ => none
  | .nodeGone _ _ => none
  | .helloPeriod _ => none
  | .enumerationStart _ => none
  | .probeTimeout _ => none
  | .nodeGoneTimer _ => none
  | .herdRequestTimeout _ => none
  | .tagReuseGuard _ => none
  | .snpResend _ _ => none
  | .snpCutoff _ _ => none
  | .routeLoss _ => none
  | .roundTimer _ _ => none
  | .serveTimer _ _ => none
  | .replyTimer _ _ _ => none
  | .dirGrpReset _ _ => none
  | .collCreate _ _ => none
  | .collDestroy _ _ => none
  | .collInfo _ _ => none
  | .collectionRelease _ => none
  | .searchJobStart _ => none
  | .oryxPass _ _ => none
  | .reselect _ _ => none
  | .oryxPassComplete _ => none
  | .partialListMerge _ _ => none
  | .searchJobComplete _ => none
  | .largeKReselect _ => none
  | .generationPublish _ => none
  | .compactionStart _ => none
  | .compactionPublish _ => none
  | .compactionRelease _ => none
  | .compactionRetry _ => none
  | .oryxEnableWrite _ _ _ => none
  | .fchSubmit _ _ _ _ => none
  | .fchCqHeadWrite _ _ _ _ => none
  | .fchQueueReset _ _ _ => none
  | .flashNop _ _ _ => none
  | .flashRead _ _ _ => none
  | .flashProgram _ _ _ => none
  | .flashErase _ _ _ => none
  | .flashSetBlock _ _ _ => none
  | .flashGetBlock _ _ _ => none
  | .flashDieOpComplete _ _ _ _ => none
  | .eraseSuspended _ _ => none
  | .eraseResume _ _ => none
  | .eraseHoldExpire _ _ => none
  | .dieTimeout _ _ => none
  | .parityRebuild _ _ _ _ _ _ _ _ => none
  | .blockAdmission => none
  | .wbFlushToFlash _ => none
  | .wbSlotAge _ => none
  | .wbcDrain _ => none
  | .heatDecay => none
  | .gcReclaim => none
  | .gcReclaimComplete => none
  | .gcIdleTimer => none
  | .holdupMeasure _ => none
  | .nvmFlush _ _ => none
  | .nvmWrite _ _ => none
  | .nvmRead _ _ => none
  | .nvmWriteUncorrectable _ _ => none
  | .nvmCompare _ _ => none
  | .nvmWriteZeroes _ _ => none
  | .nvmDatasetManagement _ _ => none
  | .nvmVerify _ _ => none
  | .executeProgram _ _ => none
  | .loadProgram _ _ => none
  | .programActivationManagement _ _ => none
  | .memoryRangeSetManagement _ _ => none
  | .slmRead _ _ => none
  | .slmWrite _ _ => none
  | .memoryCopy _ _ => none
  | .createIoSubmissionQueue _ _ => none
  | .deleteIoSubmissionQueue _ _ => none
  | .createIoCompletionQueue _ _ => none
  | .deleteIoCompletionQueue _ _ => none
  | .getLogPage _ _ => none
  | .identify _ _ => none
  | .nvmeAbort _ _ => none
  | .setFeatures _ _ => none
  | .getFeatures _ _ => none
  | .asynchronousEventRequest _ _ => none
  | .namespaceManagement _ _ => none
  | .namespaceAttachment _ _ => none
  | .formatNvm _ _ => none
  | .sanitize _ _ => none
  | .nvmeMiSend _ _ => none
  | .nvmeMiReceive _ _ => none
  | .firmwareImageDownload _ _ => none
  | .firmwareCommit _ _ => none
  | .securitySend _ _ => none
  | .securityReceive _ _ => none
  | .invalidCommandOpcode _ _ _ => none
  | .partitionSet _ _ => none
  | .partitionGet _ _ => none
  | .contextControl _ _ => none
  | .contextState _ _ => none
  | .objectCommand _ _ => none
  | .collectionCommand _ _ => none
  | .rindImport _ _ => none
  | .rindExport _ _ => none
  | .fabricEnumerate _ _ => none
  | .fabricStatus _ _ => none
  | .search _ _ => none
  | .searchLargeK _ _ => none
  | .collectionAppend _ _ => none
  | .collectionDelete _ _ => none
  | .controllerEnable _ => none
  | .controllerReset _ => none
  | .functionLevelReset _ => none
  | .shutdownNotification _ _ => none
  | .apstTransition _ _ => none
  | .ps3Wake => none
  | .nonOperationalWake _ => none
  | .portResetPerst _ => none
  | .perstDeassert _ => none
  | .hostLinkDown _ => none
  | .faultReport _ => none
  | .coreStallTimeout _ => none
  | .fabricStallTimeout _ => none
  | .scrubRead _ _ _ => none
  | .faultCaptureAck _ _ _ => none
  | .faultInjectArm _ _ _ _ => none
  | .faultPinReadbackMismatch _ _ => none
  | .memoryRetire _ _ _ _ _ _ => none
  | .memoryRetireComplete _ _ => none
  | .tahrLogPoll => none
  | .tahrLogCommit => none
  | .tempSample _ => none
  | .monitorSample _ => none
  | .settingsSave _ => none
  | .svnFuseAdvance => none
  | .bootRomStart => none
  | .bootWatchdogExpire => none
  | .fawnNop => none
  | .fawnWrite _ _ _ => none
  | .fawnCommit => none
  | .fawnBoot => none
  | .fawnBootOther => none
  | .fawnReadLog _ _ _ => none
  | .fawnAbort => none
  | .fawnReservedOp _ => none
  | .getNonce => none
  | .transition _ _ _ _ _ => none
  | .readNvmeMiDataStructure _ _ => none
  | .nvmSubsystemHealthStatusPoll _ => none
  | .controllerHealthStatusPoll _ => none
  | .configurationGet _ _ => none
  | .configurationSet _ _ _ => none
  | .vpdRead _ _ => none
  | .vpdWrite _ _ => none
  | .nvmeMiReset => none
  | .tunnelledAdminCommand _ _ _ => none
  | .pldmBaseRequest _ _ => none
  | .pldmGetSensorReading _ => none
  | .pldmRequestUpdate => none
  | .pldmActivateFirmware => none
  | .getVersion => none
  | .getCapabilities _ => none
  | .negotiateAlgorithms _ _ => none
  | .getDigests => none
  | .getCertificate _ _ _ => none
  | .challenge _ _ => none
  | .getMeasurements _ _ => none
  | .mainPowerLoss => none
  | .mainPowerReturn => none
  | .coldReset => none
  | .deviceReset _ => none
  | .resetPinAssert _ => none
  | .resetPinRelease => none
  | .pwrCtrlReset _ => none
  | .nvmSubsystemReset => none
  | .startupStepEnd _ _ => none
  | .holdupBankCharged => none
  | .powerControlSample _ _ => none
  | .pwrCapWrite _ _ => none
  | .thermalCapStep => none
  | .thermalTrip => none
  | .cageModuleInsert _ _ => none
  | .hlSignalLoss _ => none
  | .standbyPowerLoss => none
  | .eraseMinRunMet _ _ => none
  | .hostLinkUp _ _ _ _ => none
  | .cablePresentChange _ _ => none
  | .i3cDynamicAddressAssign _ => none
  | .mctpSetEndpointId _ => none
  | .faultPairRelease => none
  | .pldmFirmwareData _ _ => none
  | .pcieConfigurationRequest _ _ _ _ => none

/-- A command is well formed: an ITNUM row's word bears the row's class and operation (Table 05-3), the undefined row's word
bears none that is defined (R119), and requesters, messages, host commands and reports hold what the device can meet. -/
def Instr.wf (i : Instr) : Bool :=
  match i with
  | .registerWrite r _ _ _ => r.wf
  | .registerHoleAccess r _ _ => r.wf
  | .chamois8bytePairAccess _ _ _ _ => true
  | .pairLowWordRead r _ => r.wf
  | .pairHighWordWrite r _ _ => r.wf
  | .pairLowWordWrite r _ _ => r.wf
  | .tempoWindowComplete _ _ => true
  | .tempoClrCount r _ => r.wf
  | .tempoMinRead r _ => r.wf
  | .addrClampCntRead r _ => r.wf
  | .tsSkewCompare _ _ => true
  | .dcqWrite _ _ _ _ => true
  | .dcqRead _ _ _ => true
  | .clockStop _ _ => true
  | .clockRestart _ _ => true
  | .queueResync _ _ _ _ _ => true
  | .d2dFlitReceive _ _ _ _ _ _ _ => true
  | .d2dModuleRetrain _ _ _ => true
  | .d2dRetrainComplete _ _ _ => true
  | .chamoisMemoryAccess _ _ _ _ _ => true
  | .instructionFetchEnd _ => true
  | .undefinedOpcode _ w _ => !definedOp (bits64 w 60 4) (bits64 w 54 6)
  | .ctlNop _ w _ => wordIs w 0 0
  | .ctlEnd _ w _ => wordIs w 0 1
  | .ctlBr _ w _ => wordIs w 0 2
  | .ctlJr _ w _ => wordIs w 0 3
  | .ctlCall _ w _ => wordIs w 0 4
  | .ctlCallr _ w _ => wordIs w 0 5
  | .ctlLoop _ w _ => wordIs w 0 6
  | .qryCap _ w _ => wordIs w 1 0
  | .qrySelf _ w _ => wordIs w 1 1
  | .qryTime _ w _ => wordIs w 1 2
  | .qryEvent _ w _ => wordIs w 1 3
  | .synSignal _ w _ => wordIs w 2 0
  | .synWait _ w _ => wordIs w 2 1
  | .eventWaitSatisfied _ => true
  | .synFence _ w _ => wordIs w 2 2
  | .synTask _ w _ => wordIs w 2 3
  | .taskBoundaryRecord _ => true
  | .synLda _ w _ => wordIs w 2 4
  | .synStrel _ w _ => wordIs w 2 5
  | .synWaitm _ w _ => wordIs w 2 6
  | .synBar _ w _ => wordIs w 2 7
  | .waitmRecheck _ => true
  | .waitmPoll _ => true
  | .vecAdd _ w _ => wordIs w 3 0x00
  | .vecSub _ w _ => wordIs w 3 0x01
  | .vecMul _ w _ => wordIs w 3 0x02
  | .vecDivu _ w _ => wordIs w 3 0x03
  | .vecRemu _ w _ => wordIs w 3 0x04
  | .vecAnd _ w _ => wordIs w 3 0x05
  | .vecOr _ w _ => wordIs w 3 0x06
  | .vecXor _ w _ => wordIs w 3 0x07
  | .vecShl _ w _ => wordIs w 3 0x08
  | .vecShr _ w _ => wordIs w 3 0x09
  | .vecSar _ w _ => wordIs w 3 0x0A
  | .vecMin _ w _ => wordIs w 3 0x0B
  | .vecMax _ w _ => wordIs w 3 0x0C
  | .vecLi _ w _ => wordIs w 3 0x0D
  | .vecCmpeq _ w _ => wordIs w 3 0x0E
  | .vecCmplt _ w _ => wordIs w 3 0x0F
  | .vecCmpltu _ w _ => wordIs w 3 0x10
  | .vecPand _ w _ => wordIs w 3 0x11
  | .vecPor _ w _ => wordIs w 3 0x12
  | .vecPnot _ w _ => wordIs w 3 0x13
  | .vecElt _ w _ => wordIs w 3 0x20
  | .vecRed _ w _ => wordIs w 3 0x21
  | .vecSoftmax _ w _ => wordIs w 3 0x22
  | .vecRmsnorm _ w _ => wordIs w 3 0x23
  | .vecGather _ w _ => wordIs w 3 0x24
  | .vecScatter _ w _ => wordIs w 3 0x25
  | .mmMac _ w _ => wordIs w 4 0
  | .mmMacComplete _ => true
  | .qntQ _ w _ => wordIs w 5 0
  | .qntDq _ w _ => wordIs w 5 1
  | .qntSgrad _ w _ => wordIs w 5 2
  | .qntSld _ w _ => wordIs w 5 3
  | .qntSst _ w _ => wordIs w 5 4
  | .rotWht _ w _ => wordIs w 6 0
  | .selHist _ w _ => wordIs w 7 0
  | .selFilt _ w _ => wordIs w 7 1
  | .selTopk _ w _ => wordIs w 7 2
  | .selMerge _ w _ => wordIs w 7 3
  | .selSort _ w _ => wordIs w 7 4
  | .strLd _ w _ => wordIs w 8 0
  | .strSt _ w _ => wordIs w 8 1
  | .strPf _ w _ => wordIs w 8 2
  | .strMove _ w _ => wordIs w 8 3
  | .strLds _ w _ => wordIs w 8 4
  | .strSts _ w _ => wordIs w 8 5
  | .strLds4 _ w _ => wordIs w 8 6
  | .strSts4 _ w _ => wordIs w 8 7
  | .strTdld _ w _ => wordIs w 8 8
  | .strTdst _ w _ => wordIs w 8 9
  | .strTdw _ w _ => wordIs w 8 0xA
  | .strTdr _ w _ => wordIs w 8 0xB
  | .strTdadd _ w _ => wordIs w 8 0xC
  | .fabAmo _ w _ => wordIs w 9 0
  | .fabPut _ w _ => wordIs w 9 4
  | .fabSendTokens _ w _ => wordIs w 9 1
  | .fabRecvTokens _ w _ => wordIs w 9 2
  | .tokenGatherComplete _ => true
  | .fabReplyTokens _ w _ => wordIs w 9 3
  | .scnQuery _ w _ => wordIs w 10 0
  | .scnRerank _ w _ => wordIs w 10 1
  | .scnAppend _ w _ => wordIs w 10 2
  | .scnDelete _ w _ => wordIs w 10 3
  | .scnGen _ w _ => wordIs w 10 4
  | .streamBeatGrant _ => true
  | .streamBeatLand _ _ => true
  | .streamTransferComplete _ _ => true
  | .taskAbort _ _ _ _ => true
  | .taskRestart _ => true
  | .sePause r _ _ _ => r.wf
  | .arrayGapBegin _ _ => true
  | .arrayRampDownStart _ _ => true
  | .arrayRampInterval _ _ => true
  | .arrayRampUp _ _ => true
  | .kuduCoreStop r _ => r.wf
  | .kuduCoreStopped _ => true
  | .kuduCoreRun r _ => r.wf
  | .kuduScaleWrite r _ _ _ _ => r.wf
  | .launchSubmit r _ => r.wf
  | .launchDequeue _ => true
  | .completionRecordWrite _ => true
  | .partKuduOwnWrite r _ _ => r.wf
  | .kuduOwnerApply _ => true
  | .partChamOwnWrite r _ _ => r.wf
  | .partCfgWrite r _ _ => r.wf
  | .partOryxWrite r _ _ => r.wf
  | .sliceEnd _ => true
  | .contextSwitch _ _ => true
  | .coreSteal _ => true
  | .allBlockedSwap _ => true
  | .preempt _ => true
  | .capturedReplyLand _ _ _ _ => true
  | .contextRestore _ _ => true
  | .contextEndRequest r _ => r.wf
  | .contextClearClamp r _ => r.wf
  | .fencedContextRestart _ => true
  | .chamHalt r _ _ => r.wf
  | .chamTrap r _ => r.wf
  | .ocmdCreate _ _ => true
  | .ocmdFree _ _ => true
  | .ocmdMove _ _ => true
  | .ocmdPin _ _ => true
  | .ocmdUnpin _ _ => true
  | .ocmdRebaseAck _ _ => true
  | .ocmdQuery _ _ => true
  | .objectMovePublish _ => true
  | .forwardRetire _ => true
  | .forwardLate _ => true
  | .poolDemote _ => true
  | .allocWaitExpire _ => true
  | .herdFlitReceive _ _ => true
  | .herdNakReceive _ _ => true
  | .herdNakRepeat _ => true
  | .herdLinkTransmit _ => true
  | .hlSignalDetect _ => true
  | .hlTrainingComplete _ => true
  | .hlTrainingTimeout _ => true
  | .hlTrainingRetry _ => true
  | .hlRetrainEnter _ _ => true
  | .hlRetrainComplete _ => true
  | .hlRetrainTimeout _ => true
  | .hlDisable r _ _ => r.wf
  | .rd _ m => m.wf
  | .rdShared _ m => m.wf
  | .rdOwn _ m => m.wf
  | .upgrade _ m => m.wf
  | .wr _ m => m.wf
  | .wrp _ m => m.wf
  | .wb _ m => m.wf
  | .amo _ m => m.wf
  | .evict _ m => m.wf
  | .lendReq _ m => m.wf
  | .lendFree _ m => m.wf
  | .recall _ m => m.wf
  | .data _ m => m.wf
  | .dataS _ m => m.wf
  | .dataE _ m => m.wf
  | .ack _ m => m.wf
  | .ackE _ m => m.wf
  | .invAck _ m => m.wf
  | .fwdData _ m => m.wf
  | .receipt _ m => m.wf
  | .lendGrant _ m => m.wf
  | .inv _ m => m.wf
  | .fwdS _ m => m.wf
  | .fwdI _ m => m.wf
  | .token _ m => m.wf
  | .close _ m => m.wf
  | .tokenReply _ m => m.wf
  | .hello _ m => m.wf
  | .probe _ m => m.wf
  | .probeReply _ m => m.wf
  | .assign _ m => m.wf
  | .route _ m => m.wf
  | .nodeGone _ m => m.wf
  | .helloPeriod _ => true
  | .enumerationStart r => r.wf
  | .probeTimeout _ => true
  | .nodeGoneTimer _ => true
  | .herdRequestTimeout _ => true
  | .tagReuseGuard _ => true
  | .snpResend _ _ => true
  | .snpCutoff _ _ => true
  | .routeLoss _ => true
  | .roundTimer _ _ => true
  | .serveTimer _ _ => true
  | .replyTimer _ _ _ => true
  | .dirGrpReset r _ => r.wf
  | .collCreate _ _ => true
  | .collDestroy _ _ => true
  | .collInfo _ _ => true
  | .collectionRelease _ => true
  | .searchJobStart _ => true
  | .oryxPass _ _ => true
  | .reselect _ _ => true
  | .oryxPassComplete _ => true
  | .partialListMerge _ _ => true
  | .searchJobComplete _ => true
  | .largeKReselect _ => true
  | .generationPublish _ => true
  | .compactionStart _ => true
  | .compactionPublish _ => true
  | .compactionRelease _ => true
  | .compactionRetry _ => true
  | .oryxEnableWrite r _ _ => r.wf
  | .fchSubmit r _ _ _ => r.wf
  | .fchCqHeadWrite r _ _ _ => r.wf
  | .fchQueueReset r _ _ => r.wf
  | .flashNop _ _ _ => true
  | .flashRead _ _ _ => true
  | .flashProgram _ _ _ => true
  | .flashErase _ _ _ => true
  | .flashSetBlock _ _ _ => true
  | .flashGetBlock _ _ _ => true
  | .flashDieOpComplete _ _ _ _ => true
  | .eraseSuspended _ _ => true
  | .eraseResume _ _ => true
  | .eraseHoldExpire _ _ => true
  | .dieTimeout _ _ => true
  | .parityRebuild _ _ _ _ _ _ _ _ => true
  | .blockAdmission => true
  | .wbFlushToFlash _ => true
  | .wbSlotAge _ => true
  | .wbcDrain r => r.wf
  | .heatDecay => true
  | .gcReclaim => true
  | .gcReclaimComplete => true
  | .gcIdleTimer => true
  | .holdupMeasure _ => true
  | .nvmFlush _ q => q.wf
  | .nvmWrite _ q => q.wf
  | .nvmRead _ q => q.wf
  | .nvmWriteUncorrectable _ q => q.wf
  | .nvmCompare _ q => q.wf
  | .nvmWriteZeroes _ q => q.wf
  | .nvmDatasetManagement _ q => q.wf
  | .nvmVerify _ q => q.wf
  | .executeProgram _ q => q.wf
  | .loadProgram _ q => q.wf
  | .programActivationManagement _ q => q.wf
  | .memoryRangeSetManagement _ q => q.wf
  | .slmRead _ q => q.wf
  | .slmWrite _ q => q.wf
  | .memoryCopy _ q => q.wf
  | .createIoSubmissionQueue _ q => q.wf
  | .deleteIoSubmissionQueue _ q => q.wf
  | .createIoCompletionQueue _ q => q.wf
  | .deleteIoCompletionQueue _ q => q.wf
  | .getLogPage _ q => q.wf
  | .identify _ q => q.wf
  | .nvmeAbort _ q => q.wf
  | .setFeatures _ q => q.wf
  | .getFeatures _ q => q.wf
  | .asynchronousEventRequest _ q => q.wf
  | .namespaceManagement _ q => q.wf
  | .namespaceAttachment _ q => q.wf
  | .formatNvm _ q => q.wf
  | .sanitize _ q => q.wf
  | .nvmeMiSend _ q => q.wf
  | .nvmeMiReceive _ q => q.wf
  | .firmwareImageDownload _ q => q.wf
  | .firmwareCommit _ q => q.wf
  | .securitySend _ q => q.wf
  | .securityReceive _ q => q.wf
  | .invalidCommandOpcode _ _ q => q.wf
  | .partitionSet _ q => q.wf
  | .partitionGet _ q => q.wf
  | .contextControl _ q => q.wf
  | .contextState _ q => q.wf
  | .objectCommand _ q => q.wf
  | .collectionCommand _ q => q.wf
  | .rindImport _ q => q.wf
  | .rindExport _ q => q.wf
  | .fabricEnumerate _ q => q.wf
  | .fabricStatus _ q => q.wf
  | .search _ q => q.wf
  | .searchLargeK _ q => q.wf
  | .collectionAppend _ q => q.wf
  | .collectionDelete _ q => q.wf
  | .controllerEnable _ => true
  | .controllerReset _ => true
  | .functionLevelReset _ => true
  | .shutdownNotification _ _ => true
  | .apstTransition _ _ => true
  | .ps3Wake => true
  | .nonOperationalWake _ => true
  | .portResetPerst _ => true
  | .perstDeassert _ => true
  | .hostLinkDown _ => true
  | .faultReport f => f.wf
  | .coreStallTimeout _ => true
  | .fabricStallTimeout _ => true
  | .scrubRead _ _ _ => true
  | .faultCaptureAck r _ _ => r.wf
  | .faultInjectArm r _ _ _ => r.wf
  | .faultPinReadbackMismatch _ _ => true
  | .memoryRetire r _ _ _ _ _ => r.wf
  | .memoryRetireComplete _ _ => true
  | .tahrLogPoll => true
  | .tahrLogCommit => true
  | .tempSample _ => true
  | .monitorSample _ => true
  | .settingsSave r => r.wf
  | .svnFuseAdvance => true
  | .bootRomStart => true
  | .bootWatchdogExpire => true
  | .fawnNop => true
  | .fawnWrite _ _ _ => true
  | .fawnCommit => true
  | .fawnBoot => true
  | .fawnBootOther => true
  | .fawnReadLog _ _ _ => true
  | .fawnAbort => true
  | .fawnReservedOp _ => true
  | .getNonce => true
  | .transition _ _ _ _ _ => true
  | .readNvmeMiDataStructure _ _ => true
  | .nvmSubsystemHealthStatusPoll _ => true
  | .controllerHealthStatusPoll _ => true
  | .configurationGet _ _ => true
  | .configurationSet _ _ _ => true
  | .vpdRead _ _ => true
  | .vpdWrite _ _ => true
  | .nvmeMiReset => true
  | .tunnelledAdminCommand _ _ q => q.wf
  | .pldmBaseRequest _ _ => true
  | .pldmGetSensorReading _ => true
  | .pldmRequestUpdate => true
  | .pldmActivateFirmware => true
  | .getVersion => true
  | .getCapabilities _ => true
  | .negotiateAlgorithms _ _ => true
  | .getDigests => true
  | .getCertificate _ _ _ => true
  | .challenge _ _ => true
  | .getMeasurements _ _ => true
  | .mainPowerLoss => true
  | .mainPowerReturn => true
  | .coldReset => true
  | .deviceReset _ => true
  | .resetPinAssert _ => true
  | .resetPinRelease => true
  | .pwrCtrlReset r => r.wf
  | .nvmSubsystemReset => true
  | .startupStepEnd _ _ => true
  | .holdupBankCharged => true
  | .powerControlSample _ _ => true
  | .pwrCapWrite r _ => r.wf
  | .thermalCapStep => true
  | .thermalTrip => true
  | .cageModuleInsert _ _ => true
  | .hlSignalLoss _ => true
  | .standbyPowerLoss => true
  | .eraseMinRunMet _ _ => true
  | .hostLinkUp _ _ _ _ => true
  | .cablePresentChange _ _ => true
  | .i3cDynamicAddressAssign _ => true
  | .mctpSetEndpointId _ => true
  | .faultPairRelease => true
  | .pldmFirmwareData _ _ => true
  | .pcieConfigurationRequest _ _ _ _ => true

end Sys2Proof
end

