-- ==== Sys2Proof/Safety.lean ====
section
/-! DEFINITION. What claims are stated in: the invariant of the standby records, what may change across a step, and the frames
of commands. -/
namespace Sys2Proof.Machine

/-- The standby records hold what their places can hold: the fused security version (R508), a life-cycle state of Table 18-6,
one of two image slots, active and pending (R507), failed boots up to 3 (R512), the thermal cap (R525), a persistent log of at
most 64,000 entries, of which no more than there are wait for the flash (R492). -/
def AonSt.Inv (a : AonSt) : Prop :=
  a.svn ≤ 64 ∧ a.lc ≤ 4 ∧ (a.active = 1 ∨ a.active = 2) ∧ (∀ n, a.pendAct = some n → n = 1 ∨ n = 2) ∧ a.bootCnt ≤ 3 ∧
  250 ≤ a.thermCap ∧ a.thermCap ≤ 450 ∧ a.log.length ≤ 64000 ∧ a.uncommitted ≤ a.log.length

/-- What time cannot undo: the fused security version does not fall (R508), and the life cycle stays or takes a transition of
Table 18-6. -/
def AonSt.Onward (a b : AonSt) : Prop := a.svn ≤ b.svn ∧ (b.lc = a.lc ∨ lcAllowed a.lc b.lc = true)

/-- Two states have the same standby records but for the fault pair (R478), which follows DEV_FATAL. -/
def State.sameStandby (s t : State) : Prop := t.aon = { s.aon with fltP := t.aon.fltP, fltN := t.aon.fltN }

/-- Only registers changed, and of these none but the listed ones. -/
def State.onlyRegs (s t : State) (l : List Nat) : Prop :=
  t = { s with dev := { s.dev with regs := t.dev.regs } } ∧ ∀ a, a ∉ l → t.dev.reg a = s.dev.reg a

/-- Only the table of contexts changed, and in it none but one context. -/
def State.onlyCtx (s t : State) (c : Nat) : Prop :=
  t = { s with dev := { s.dev with ctxs := t.dev.ctxs } } ∧ ∀ k, k ≠ c → t.dev.ctx? k = s.dev.ctx? k

/-- An instruction word of a context executes now (R116 to R120, R125): the context executes, the word has the class and the
operation and lies in the code with its extension word, its predicate holds, and no register that it uses waits for an
outstanding instruction. -/
structure Dev.Runs (d : Dev) (c : Nat) (x : Ctx) (w : W64) (cls op : Nat) (uses : List Nat) : Prop where
  here : d.ctx? c = some x
  runs : d.execs x = true
  isCls : bits64 w 60 4 = cls
  isOp : bits64 w 54 6 = op
  code : Dev.inCode x x.arch.pc = true
  ext : iExt w = true → Dev.inCode x (x.arch.pc + 8#64) = true
  holds : x.p (bits64 w 50 3) ≠ bit64 w 49
  free : ∀ r ∈ uses, r = 0 ∨ r ∉ x.pendingRegs

/-- A context that has ended with a status at a time (R100). -/
def Ctx.ended (x : Ctx) (now st : Nat) : Ctx :=
  if x.st = .ending then x else { x with st := .ending, endStatus := some st, wait := .none, blockedAt := now }

/-- A context whose instruction has executed: n clamps counted for it (R111), the program counter moved; where a clamp has been
counted and the launch set CLAMP_TRAP, the context has ended with status 0x12 (R112). -/
def Ctx.executed (x : Ctx) (now n : Nat) (next : W64) : Ctx :=
  let y := (x.clampAt x.arch.pc n).setPc next
  if y.launch.clampTrap && y.clamps ≠ 0 then y.ended now 0x12 else y

/-- A state with one context replaced, and nothing else. -/
def State.putCtx (s : State) (c : Nat) (y : Ctx) : State :=
  { s with dev := { s.dev with ctxs := Tab.modify s.dev.ctxs c (fun _ => y) } }

/-- The bytes of a context's scratch that a list of writes leaves, each under its mask, the last write of a place standing: f gives
them before, by offset in the allotment. -/
def Dev.scratchAfter (x : Ctx) : List SWrite → (Nat → Byte) → Nat → Byte
  | [], f, o => f o
  | w :: r, f, o => Dev.scratchAfter x r (fun q => if q = Dev.scrClip x w.addr then (f q &&& ~~~w.mask) ||| (w.val &&& w.mask) else f q) o

/-- A state whose device has become d by the effect of a context's instruction, which has then executed with n clamps of its word:
fault reports are taken. -/
def State.issued (s : State) (c : Nat) (d : Dev) (n : Nat) (next : W64) : State :=
  ({ s with dev := d.modCtx c (fun y => y.executed d.now n next) } : State).settled

/-- One clamp where an instruction that takes no extension word has one (R118). -/
def extClamp (w : W64) : Nat := b2n (iExt w)

/-- The comparison of SYN.WAITM (Table 05-5). -/
def waitHolds (k : Nat) (v b : W64) : Bool :=
  match k with
  | 0 => v == b
  | 1 => v != b
  | 2 => b.ule v
  | 3 => v.ult b
  | 4 => b.sle v
  | _ => v.slt b

end Sys2Proof.Machine
end

