-- ==== Sys2Proof/Certificates/Slice0/Obligations.lean ====
section
/-! DEFINITION. The statements about the model. Each conclusion gives the next state whole, or says which of its parts are as
before, so that it is its own frame. -/
open Sys2Proof Sys2Proof.Machine

/-- R86: S0 reads 0, P0 reads 1, and what is written to them is discarded; any other register reads what was written last, and a
write to a register leaves every other one as it was. -/
def Obligations.HardwiredRegisters : Prop :=
  ∀ (x : Ctx) (i : Nat) (v : W64) (b : Bool),
    x.s 0 = 0#64 ∧ x.p 0 = true ∧ x.setS 0 v = x ∧ x.setP 0 b = x ∧
    (i ≠ 0 → (x.setS i v).s i = v ∧ (x.setP i b).p i = b) ∧
    (∀ j, j ≠ i → (x.setS i v).s j = x.s j ∧ (x.setP i b).p j = x.p j) ∧
    (∀ j, (x.setS i v).p j = x.p j ∧ (x.setP i b).s j = x.s j)

/-- R133 (with R118, R111): every scalar form of VEC, where it executes: SD, or predicate SD[2:0], takes the value of the operation;
bits of a predicate's field above the third count one clamp each field; nothing else of the machine changes but the program counter
(and, at a first clamp under CLAMP_TRAP, the end of the context). -/
def Obligations.ScalarForms : Prop :=
  ∀ (c : BitVec 12) (w e : W64) (s : State) (x : Ctx),
    let a := x.s (aSa w)
    let b := if aIs w then (if iExt w then e else simm w 33) else x.s (aSb w)
    let uses2 := if aIs w then [] else [aSb w]
    let d := aSd w
    let sets := fun (v : W64) => s.putCtx c.toNat ((x.setS d v).executed s.dev.now 0 (Dev.behind' x w))
    let setp := fun (n : Nat) (v : Bool) => s.putCtx c.toNat ((x.setP (d % 8) v).executed s.dev.now n (Dev.behind' x w))
    let go := fun (op : Nat) (uses : List Nat) => s.dev.Runs c.toNat x w 3 op uses
    let hi := fun (f : Nat) => if f < 8 then 0 else 1
    (go 0x00 (d :: aSa w :: uses2) → exec (.vecAdd c w e) s = .next (sets (a + b))) ∧
    (go 0x01 (d :: aSa w :: uses2) → exec (.vecSub c w e) s = .next (sets (a - b))) ∧
    (go 0x02 (d :: aSa w :: uses2) → exec (.vecMul c w e) s = .next (sets (a * b))) ∧
    (go 0x03 (d :: aSa w :: uses2) → exec (.vecDivu c w e) s = .next (sets (if b = 0#64 then 0xFFFFFFFFFFFFFFFF#64 else a / b))) ∧
    (go 0x04 (d :: aSa w :: uses2) → exec (.vecRemu c w e) s = .next (sets (if b = 0#64 then a else a % b))) ∧
    (go 0x05 (d :: aSa w :: uses2) → exec (.vecAnd c w e) s = .next (sets (a &&& b))) ∧
    (go 0x06 (d :: aSa w :: uses2) → exec (.vecOr c w e) s = .next (sets (a ||| b))) ∧
    (go 0x07 (d :: aSa w :: uses2) → exec (.vecXor c w e) s = .next (sets (a ^^^ b))) ∧
    (go 0x08 (d :: aSa w :: uses2) → exec (.vecShl c w e) s = .next (sets (a <<< (b.toNat % 64)))) ∧
    (go 0x09 (d :: aSa w :: uses2) → exec (.vecShr c w e) s = .next (sets (a >>> (b.toNat % 64)))) ∧
    (go 0x0A (d :: aSa w :: uses2) → exec (.vecSar c w e) s = .next (sets (a.sshiftRight (b.toNat % 64)))) ∧
    (go 0x0B (d :: aSa w :: uses2) → exec (.vecMin c w e) s = .next (sets (if b.slt a then b else a))) ∧
    (go 0x0C (d :: aSa w :: uses2) → exec (.vecMax c w e) s = .next (sets (if a.slt b then b else a))) ∧
    (go 0x0D (d :: uses2) → exec (.vecLi c w e) s = .next (sets b)) ∧
    (go 0x0E (aSa w :: uses2) → exec (.vecCmpeq c w e) s = .next (setp (hi d) (decide (a = b)))) ∧
    (go 0x0F (aSa w :: uses2) → exec (.vecCmplt c w e) s = .next (setp (hi d) (a.slt b))) ∧
    (go 0x10 (aSa w :: uses2) → exec (.vecCmpltu c w e) s = .next (setp (hi d) (a.ult b))) ∧
    (go 0x11 [] → exec (.vecPand c w e) s = .next (setp (hi d + hi (aSa w) + hi (aSb w)) (x.p (aSa w % 8) && x.p (aSb w % 8)))) ∧
    (go 0x12 [] → exec (.vecPor c w e) s = .next (setp (hi d + hi (aSa w) + hi (aSb w)) (x.p (aSa w % 8) || x.p (aSb w % 8)))) ∧
    (go 0x13 [] → exec (.vecPnot c w e) s = .next (setp (hi d + hi (aSa w)) (!x.p (aSa w % 8)))) ∧
    (∀ v, d % 8 = 0 → x.setP (d % 8) v = x)

/-- R129, R130 (with R118, R111, R112): CTL.NOP, BR, JR, CALL, CALLR and LOOP where they execute. A target that is not a multiple of
8 is rounded down, one below the first instruction becomes the first instruction, each for one clamp; a link is written before the
jump; a counter that is 0 stays 0, one that becomes 0 does not branch. Nothing but the context changes.
The model's own choices in it: log 25. -/
def Obligations.ControlFlow : Prop :=
  ∀ (c : BitVec 12) (w e : W64) (s : State) (x : Ctx),
    let go := fun (op : Nat) (uses : List Nat) => s.dev.Runs c.toNat x w 0 op uses
    let behind := if iExt w then x.arch.pc + 16#64 else x.arch.pc + 8#64
    let falls := fun (y : Ctx) (n : Nat) => s.putCtx c.toNat (y.executed s.dev.now n behind)
    let low := fun (a : W64) => decide (a.toNat - a.toNat % 8 < x.launch.codeLo.toNat)
    let dest := fun (a : W64) => if low a then x.launch.codeLo else BitVec.ofNat 64 (a.toNat - a.toNat % 8)
    let bad := fun (a : W64) => (if a.toNat % 8 = 0 then 0 else 1) + (if low a then 1 else 0)
    let jumps := fun (y : Ctx) (n : Nat) (a : W64) => s.putCtx c.toNat (y.executed s.dev.now (bad a + n) (dest a))
    let rel := x.arch.pc + simm w 32 * 8#64
    let abs' := x.s (aSa w) + (if iExt w then e else simm w 33)
    let k := x.s (aSa w) - 1#64
    (go 0 [] → exec (.ctlNop c w e) s = .next (falls x (extClamp w))) ∧
    (go 2 [] → exec (.ctlBr c w e) s = .next (jumps x (extClamp w) rel)) ∧
    (go 3 [aSa w] → exec (.ctlJr c w e) s = .next (jumps x 0 abs')) ∧
    (go 4 [aSd w] → exec (.ctlCall c w e) s = .next (jumps (x.setS (aSd w) behind) (extClamp w) rel)) ∧
    (go 5 [aSa w, aSd w] → exec (.ctlCallr c w e) s = .next (jumps (x.setS (aSd w) behind) 0 abs')) ∧
    (go 6 [aSa w] → exec (.ctlLoop c w e) s = .next (
      if x.s (aSa w) = 0#64 then falls x (extClamp w)
      else if k = 0#64 then falls (x.setS (aSa w) 0#64) (extClamp w)
      else jumps (x.setS (aSa w) k) (extClamp w) rel))

/-- R129 and R92: CTL.END waits, as nothing had happened, for the context's transfers, searches, token sends and stores, then ends
the context with status 0, or 0x19 where IMM[0] is 1 (with 0x12 where a clamp was counted under CLAMP_TRAP, R112).
The model's own choices in it: log 24. -/
def Obligations.ProgramEnd : Prop :=
  ∀ (c : BitVec 12) (w e : W64) (s : State) (x : Ctx), s.dev.Runs c.toNat x w 0 1 [] →
    (s.dev.boundaryReady c.toNat x = false → exec (.ctlEnd c w e) s = .next s) ∧
    (s.dev.boundaryReady c.toNat x = true →
      exec (.ctlEnd c w e) s = .next (s.putCtx c.toNat ((x.executed s.dev.now (extClamp w) x.arch.pc).ended s.dev.now (if bit64 w 0 then 0x19 else 0))))

/-- R129 (with R109, R110, R62): the QRY instructions where they execute: SD takes the CAP word of an index up to 4,095 or 0 with
one clamp, the self-item, the time-stamp, or the count of an event entry; nothing but the context changes (a time-stamp draws on
the free values of its skew).
The model's own choices in it: log 5 and 70. -/
def Obligations.Queries : Prop :=
  ∀ (c : BitVec 12) (w e : W64) (s : State) (x : Ctx),
    let go := fun (op : Nat) (uses : List Nat) => s.dev.Runs c.toNat x w 1 op uses
    let gives := fun (t : State) (v : W64) (n : Nat) => t.putCtx c.toNat ((x.setS (aSd w) v).executed s.dev.now n (Dev.behind' x w))
    let i := (x.s (aSa w) + (if iExt w then e else simm w 33)).toNat
    let ts := s.dev.stepTs (x.core / 32)
    (go 0 [aSa w, aSd w] → exec (.qryCap c w e) s = .next (
      if 4095 < i then gives s 0#64 1 else gives s ((s.dev.capWord s.aon c.toNat i).setWidth 64) 0)) ∧
    (go 1 [aSd w] → exec (.qrySelf c w e) s = .next (gives s (match bits64 w 0 4 with
      | 0 => c.setWidth 64
      | 1 => BitVec.ofNat 64 x.part
      | 2 => if s.dev.assigned then BitVec.ofNat 64 s.dev.nodeId else 0xFFFFFFFFFFFFFFFF#64
      | 3 => BitVec.ofNat 64 (x.clamps + (if x.clampOvf then 2 ^ 32 else 0))
      | 4 => BitVec.ofNat 64 (x.launch.retryLimit - x.retries)
      | 5 => BitVec.ofNat 64 (x.flags % 8)
      | _ => 0#64) (extClamp w))) ∧
    (go 2 [aSd w] → exec (.qryTime c w e) s = .next (gives { s with dev := { s.dev with draws := ts.2.draws } } (BitVec.ofNat 64 ts.1) (extClamp w)) ∧
      (s.dev.flag (R.tsStatus (x.core / 32)) F.tsStatus_running = false → ts.1 = 0)) ∧
    (go 3 [aSd w] → exec (.qryEvent c w e) s = .next (gives s (BitVec.ofNat 64 (x.evt (bits64 w 0 6)))
      ((if bits64 w 6 27 = 0 then 0 else 1) + extClamp w)))

/-- R120: an instruction whose guard is false only moves the program counter behind itself and its extension word, whatever the
instruction: no register, event, counter or byte of memory changes. (`settled` takes the fault reports that wait: none, between
commands.) With PG = 0 and PNEG = 0 the guard is never false. -/
def Obligations.FalseGuardSkips : Prop :=
  (∀ (w : W64) (x : Ctx), bits64 w 50 3 = 0 → bit64 w 49 = false → x.p (bits64 w 50 3) ≠ bit64 w 49) ∧
  ∀ (i : Instr) (c : BitVec 12) (w : W64) (cls op : Nat) (s : State) (x : Ctx),
    i.wf = true → i.itnum = some (c, w, cls, op) → s.dev.ctx? c.toNat = some x → s.dev.execs x = true →
    Dev.inCode x x.arch.pc = true → (iExt w = true → Dev.inCode x (x.arch.pc + 8#64) = true) →
    x.p (bits64 w 50 3) = bit64 w 49 →
    ∃ t, exec i s = .next t ∧
      let u := s.putCtx c.toNat (x.setPc (if iExt w then x.arch.pc + 16#64 else x.arch.pc + 8#64))
      (t = u ∨ t = u.settled)

/-- Table 09-2 and R117: no instruction of a context executes while the context is absent, is not RUNNING, waits or is fenced, while
its core is stopped or fenced, or at an address beyond the code: the state stays as it is.
The model's own choices in it: log 3. -/
def Obligations.GatedInstructionsWait : Prop :=
  ∀ (i : Instr) (c : BitVec 12) (w : W64) (cls op : Nat) (s : State),
    i.itnum = some (c, w, cls, op) →
    (∀ x, s.dev.ctx? c.toNat = some x → s.dev.execs x = false ∨ Dev.inCode x x.arch.pc = false) →
    ∃ t, exec i s = .next t ∧ (t = s ∨ t = s.settled)

/-- R90, R91, R92, R104, R131: the SYN instructions that need no memory and the events that complete them. A signal adds up to
65,535, as a release not before the context's earlier accesses are over; a wait takes its count or blocks behind itself, and a
blocked wait whose count is reached wakes and takes it; a fence that orders anything waits; a task boundary waits, and when its
waits are over records the architected state as the restart point, with SCR_CKPT (R238) also the live pages not recorded yet.
R97, R117: a fetch at or beyond the end of the code, and an instruction whose extension word would lie there, end the program
with one clamp, once the context's earlier work is over (until then nothing happens). R119, R128: every class and operation outside
Table 05-3 does nothing but count one clamp and move behind its extension word.
The model's own choices in it: log 3 and 24. -/
def Obligations.EventsBoundariesAndEnds : Prop :=
  (∀ (c : BitVec 12) (w e : W64) (s : State) (x : Ctx),
     let go := fun (op : Nat) (uses : List Nat) => s.dev.Runs c.toNat x w 2 op uses
     let v := if eSa w = 0 then bits64 w 0 16 else (x.s (eSa w)).toNat
     let m := if v < 1 then 1 else if 65535 < v then 65535 else v
     let k := if m = v then 0 else 1
     let done := fun (y : Ctx) (n : Nat) => s.putCtx c.toNat (y.executed s.dev.now n (Dev.behind' x w))
     let behind := fun (n : Nat) => (x.clampAt x.arch.pc n).setPc (Dev.behind' x w)
     -- SYN.SIGNAL
     (go 0 [eSa w] → (bit64 w 37 = false ∨ s.dev.boundaryReady c.toNat x = true) →
       exec (.synSignal c w e) s = .next (done (x.addEvt (eEv w) (min 65535 v)) ((if 65535 < v then 1 else 0) + extClamp w))) ∧
     (go 0 [eSa w] → bit64 w 37 = true → s.dev.boundaryReady c.toNat x = false → exec (.synSignal c w e) s = .next s) ∧
     (∀ n, (x.addEvt (eEv w) n).evt (eEv w) = min 65535 (x.evt (eEv w) + n) ∧
       (x.addEvt (eEv w) n).eventOvf = (x.eventOvf || decide (65535 < x.evt (eEv w) + n))) ∧
     -- SYN.WAIT
     (go 1 [eSa w] → m ≤ x.evt (eEv w) → exec (.synWait c w e) s = .next (done (x.setEvt (eEv w) (x.evt (eEv w) - m)) (k + extClamp w))) ∧
     (go 1 [eSa w] → x.evt (eEv w) < m → exec (.synWait c w e) s = .next (s.putCtx c.toNat
       { behind (k + extClamp w) with wait := .event (eEv w) m, st := .residentBlocked, woke := false, blockedAt := s.dev.now })) ∧
     -- SYN.FENCE
     (go 2 [] → (bits64 w 39 4 = 0 ∨ s.dev.boundaryReady c.toNat x = true) → exec (.synFence c w e) s = .next (done x (extClamp w))) ∧
     (go 2 [] → bits64 w 39 4 ≠ 0 → s.dev.boundaryReady c.toNat x = false → exec (.synFence c w e) s = .next s) ∧
     -- SYN.TASK
     (go 3 [] → exec (.synTask c w e) s = .next (s.putCtx c.toNat { behind (extClamp w) with wait := .boundary })) ∧
     -- EVENT_WAIT_SATISFIED
     (∀ ev n, s.dev.ctx? c.toNat = some x → x.wait = .event ev n → n ≤ x.evt ev → x.fenced = false →
       (x.st = .running ∨ (x.st = .residentBlocked ∧ (s.dev.core x.core).cur = some c.toNat) →
         exec (.eventWaitSatisfied c) s = .next (s.putCtx c.toNat
           (({ x.setEvt ev (x.evt ev - n) with st := .running, wait := .none } : Ctx).executed s.dev.now 0 x.arch.pc))) ∧
       (x.st = .residentBlocked → (s.dev.core x.core).cur ≠ some c.toNat →
         exec (.eventWaitSatisfied c) s = .next (s.putCtx c.toNat { x with st := .residentRunnable })) ∧
       (x.st = .savedBlocked → exec (.eventWaitSatisfied c) s = .next (s.putCtx c.toNat { x with st := .savedRunnable }))) ∧
     (∀ ev n, s.dev.ctx? c.toNat = some x → x.wait = .event ev n → x.evt ev < n → exec (.eventWaitSatisfied c) s = .next s) ∧
     -- TASK_BOUNDARY_RECORD
     (s.dev.ctx? c.toNat = some x → x.wait = .boundary → x.st = .running → x.fenced = false → s.dev.boundaryReady c.toNat x = true →
       let ckpt := s.dev.flag (R.partCfg x.part) F.partCfg_scrCkpt
       ∃ (m : List Host.Cell) (pages : List Nat), exec (.taskBoundaryRecord c) s = .next ((s.putCtx c.toNat
         (({ x with
             restart := x.arch, restartWin := s.dev.windowNow x, retries := 0, dirty := [], wait := .none, ckptOn := ckpt, ckpt := m, ckptPages := pages } : Ctx).executed
           s.dev.now 0 x.arch.pc)).onDev (fun d => d.passBoundary c.toNat)) ∧
         (ckpt = false → m = x.ckpt ∧ pages = x.ckptPages) ∧
         (ckpt = true → pages = x.live ∧ (Memory.wf s.dev.mem = true → ∀ o, o < x.allot →
           Memory.get m o = if o / 4096 ∈ x.live ∧ o / 4096 ∉ x.ckptPages then Memory.get s.dev.mem (Dev.scrKey x o) else Memory.get x.ckpt o)))) ∧
  (∀ (c : BitVec 12) (w e : W64) (s : State) (x : Ctx),
     let pc := x.arch.pc
     let ends := s.putCtx c.toNat ((x.executed s.dev.now 1 pc).ended s.dev.now 0)
     (s.dev.ctx? c.toNat = some x → s.dev.execs x = true → s.dev.boundaryReady c.toNat x = true →
       (Dev.inCode x pc = false → exec (.instructionFetchEnd c) s = .next ends) ∧
       (Dev.inCode x pc = true → Dev.inCode x (pc + 8#64) = false → addrNode pc = s.dev.nodeId →
         iExt (BitVec.ofNat 64 (s.dev.lword (addrTier pc) (addrOff pc) 8)) = true → exec (.instructionFetchEnd c) s = .next ends)) ∧
     (s.dev.ctx? c.toNat = some x → s.dev.execs x = true → s.dev.boundaryReady c.toNat x = false →
       exec (.instructionFetchEnd c) s = .next s) ∧
     (∀ cls op, s.dev.Runs c.toNat x w cls op [] →
       (11 ≤ cls ∨ (cls = 0 ∧ 6 < op) ∨ (cls = 1 ∧ 3 < op) ∨ (cls = 2 ∧ 7 < op) ∨
         (cls = 3 ∧ ((0x13 < op ∧ op < 0x20) ∨ 0x25 < op)) ∨ ((cls = 4 ∨ cls = 6) ∧ 0 < op) ∨
         ((cls = 5 ∨ cls = 7 ∨ cls = 9 ∨ cls = 10) ∧ 4 < op) ∨ (cls = 8 ∧ 0xC < op)) →
       exec (.undefinedOpcode c w e) s = .next (s.putCtx c.toNat (x.executed s.dev.now 1 (if iExt w then pc + 16#64 else pc + 8#64)))))

/-- R74, R122: a place that lies in the tier is reached as it is; one at or beyond the end of its tier becomes the place of the
tier's last line with the same low 7 bits, cut down so that the access ends within the tier; codes 6 and 7 become tier 1. Each
change is one clamp, and every access of this device falls inside its tier. -/
def Obligations.AddressClamping : Prop :=
  ∀ (d : Dev) (r : Req) (itnum : Bool) (redirect : Nat → Nat) (a : W64) (n : Nat),
    let p := d.clampSteps r itnum redirect a n
    (addrNode a = d.nodeId → addrTier a ≤ 4 → redirect (addrTier a) = addrTier a → addrOff a < d.sizeFor r itnum (addrTier a) →
      p = ⟨d.nodeId, addrTier a, addrOff a, []⟩) ∧
    (addrNode a = d.nodeId → addrTier a ≤ 4 → redirect (addrTier a) = addrTier a → d.sizeFor r itnum (addrTier a) ≤ addrOff a →
      p = ⟨d.nodeId, addrTier a, d.sizeFor r itnum (addrTier a) - 128 + min (addrOff a % 128) (128 - min n 128), [2]⟩) ∧
    (addrNode a = d.nodeId → 6 ≤ addrTier a → redirect 1 = 1 →
      p.tier = 1 ∧ p.node = d.nodeId ∧ p.kinds = (if addrOff a < d.tierSize 1 then [0] else [0, 2])) ∧
    (itnum = true → addrTier a = 0 → redirect 0 = 0 → p.node = d.nodeId ∧ p.tier = 0 ∧ (5 ∈ p.kinds ↔ addrNode a ≠ d.nodeId)) ∧
    (p.node = d.nodeId → 128 ≤ d.sizeFor r itnum p.tier → 1 ≤ n → p.off < d.sizeFor r itnum p.tier) ∧
    (2 ∈ p.kinds → 128 ≤ d.sizeFor r itnum p.tier → n ≤ 128 → p.off + n ≤ d.sizeFor r itnum p.tier)

/-- R131, R142 (with R75, R81, R103, R122): the scalar loads SYN.LDA, STR.LDS and STR.LDS4 where they execute. The address is rounded
down to the word for one clamp. From scratch, HBM, LPDDR or flash of this device the register takes the little-endian word that
stands there, once the directory holds no line of it and matrix work is over; of another node a read is sent and the context is
held at the instruction until the reply.
The model's own choices in it: log 3, 24 and 25. -/
def Obligations.ScalarLoads : Prop :=
  ∀ (c : BitVec 12) (w e : W64) (s : State) (x : Ctx),
    let ld := fun (i : Instr) (cls op : Nat) (uses : List Nat) (a0 : W64) (sd n : Nat) =>
      let a := BitVec.ofNat 64 (a0.toNat - a0.toNat % n)
      let k := if a0.toNat % n = 0 then 0 else 1
      let lo := addrOff a
      s.dev.Runs c.toNat x w cls op uses →
      (addrNode a = s.dev.nodeId → addrTier a = 0 → lo < x.allot → x.mm = none →
        Dev.scrInvalid x (upFrom lo n) = false → s.dev.scrBad c.toNat x (upFrom lo n) = false →
        exec i s = .next ((s.putCtx c.toNat ((x.setS sd (BitVec.ofNat 64 (leVal ((upFrom lo n).map (s.dev.scrByte c.toNat x))))).executed
          s.dev.now (k + extClamp w) (Dev.behind' x w))).settled)) ∧
      (addrNode a = s.dev.nodeId → addrTier a = 0 → lo < x.allot → x.mm ≠ none → exec i s = .next s.settled) ∧
      (addrNode a = s.dev.nodeId → (addrTier a = 1 ∨ addrTier a = 2 ∨ addrTier a = 3) → lo < s.dev.tierSize (addrTier a) →
        s.dev.lholds (addrTier a) lo n false = [] → (s.dev.lread (addrTier a) lo n).2 = false →
        exec i s = .next (({ s with dev := (s.dev.lmeet (unitId 1 x.core) (addrTier a) lo n) }.onDev (fun d => d.modCtx c.toNat (fun _ =>
          (x.setS sd (BitVec.ofNat 64 (leVal (s.dev.lread (addrTier a) lo n).1))).executed d.now (k + extClamp w) (Dev.behind' x w)))).settled)) ∧
      (addrNode a ≠ s.dev.nodeId → (addrTier a = 1 ∨ addrTier a = 2 ∨ addrTier a = 3) → ∀ t d,
        s.dev.request (x.core / 32) (some x.part) 1 (mkAddr (addrNode a) (addrTier a) (lo - lo % 16)) [] (.load c.toNat sd n (lo % 16)) = .sent t d →
        exec i s = .next (({ s with dev := d }.onDev (fun d => d.modCtx c.toNat (fun y =>
          { y.clampAt y.arch.pc (k + extClamp w) with wait := .remote t (Dev.behind' x w) }))).settled))
    ld (.synLda c w e) 2 4 [eSa w, eSd w] (x.s (eSa w) + simm w 16) (eSd w) 8 ∧
    ld (.strLds c w e) 8 4 [aSa w, aSd w] (x.s (aSa w) + simm w 33) (aSd w) 8 ∧
    ld (.strLds4 c w e) 8 6 [aSa w, aSd w] (x.s (aSa w) + simm w 33) (aSd w) 4

/-- R131, R142 (with R72, R101, R122): the scalar stores SYN.STREL, STR.STS and STR.STS4 where they execute; SYN.STREL, a release, not
before the context's earlier accesses are over. In scratch exactly the bytes of the word change, as every later read of the context
sees; in HBM and LPDDR of this device the bytes are written once the directory holds no line of them; a store to flash is performed
in HBM and counts one address clamp more; a store to another node is sent, and the context goes on.
The model's own choices in it: log 3, 24 and 25. -/
def Obligations.ScalarStores : Prop :=
  ∀ (c : BitVec 12) (w e : W64) (s : State) (x : Ctx),
    let st := fun (i : Instr) (cls op : Nat) (uses : List Nat) (rel : Bool) (a0 : W64) (n : Nat) (v : W64) =>
      let a := BitVec.ofNat 64 (a0.toNat - a0.toNat % n)
      let k := if a0.toNat % n = 0 then 0 else 1
      let lo := addrOff a
      let l := leBytes n v.toNat
      let after := fun (d : Dev) => ({ s with dev := d }.onDev (fun d => d.modCtx c.toNat (fun y =>
        y.executed d.now (k + extClamp w) (Dev.behind' x w)))).settled
      s.dev.Runs c.toNat x w cls op uses →
      (rel = true → s.dev.boundaryReady c.toNat x = false → exec i s = .next s.settled) ∧
      ((rel = false ∨ s.dev.boundaryReady c.toNat x = true) →
        (addrNode a = s.dev.nodeId → addrTier a = 0 → lo + n ≤ x.allot → x.mm = none → s.dev.isRes c.toNat x = true →
          ∃ (u : State) (y : Ctx), exec i s = .next u.settled ∧ u.dev.ctx? c.toNat = some y ∧ y.arch = { x.arch with pc := Dev.behind' x w } ∧
            (∀ o, o < x.allot → u.dev.scrByte c.toNat y o = if lo ≤ o ∧ o < lo + n then l.getD (o - lo) 0#8 else s.dev.scrByte c.toNat x o) ∧
            (∀ j, j ≠ c.toNat → u.dev.ctx? j = s.dev.ctx? j) ∧ u.dev.regs = s.dev.regs ∧ u.aon = s.aon) ∧
        (addrNode a = s.dev.nodeId → addrTier a = 0 → lo + n ≤ x.allot → x.mm ≠ none → exec i s = .next s.settled) ∧
        (addrNode a = s.dev.nodeId → (addrTier a = 1 ∨ addrTier a = 2) → lo < s.dev.tierSize (addrTier a) →
          s.dev.lholds (addrTier a) lo n true = [] → s.dev.lcanWrite (addrTier a) lo n = true →
          exec i s = .next (after (s.dev.lwrite (addrTier a) lo l))) ∧
        (addrNode a = s.dev.nodeId → addrTier a = 3 → lo < s.dev.tierSize 1 →
          s.dev.lholds 1 lo n true = [] → s.dev.lcanWrite 1 lo n = true →
          exec i s = .next (after ((s.dev.lwrite 1 lo l).noteClamps (.ctx c.toNat) [6] a))) ∧
        (addrNode a ≠ s.dev.nodeId → (addrTier a = 1 ∨ addrTier a = 2) → ∀ t d,
          s.dev.sendBytes x (addrNode a) (addrTier a) lo l (.store c.toNat x.arch.pc) = .sent t d → exec i s = .next (after d)))
    st (.synStrel c w e) 2 5 [eSa w, eSb w] true (x.s (eSa w) + simm w 16) 8 (x.s (eSb w)) ∧
    st (.strSts c w e) 8 5 [aSa w, aSb w] false (x.s (aSa w) + simm w 33) 8 (x.s (aSb w)) ∧
    st (.strSts4 c w e) 8 7 [aSa w, aSb w] false (x.s (aSa w) + simm w 33) 4 (x.s (aSb w))

/-- R131, R132, R226, R298: SYN.WAITM and SYN.BAR on a word of the context's scratch, and the rereads of a watched word. A true
comparison lets the context go on; a false one blocks it behind the instruction; SYN.BAR first adds 1 to the word, as a release.
A reread that compares true wakes the blocked context, one that does not leaves it blocked.
The model's own choices in it: log 24. -/
def Obligations.WatchedWords : Prop :=
  ∀ (c : BitVec 12) (w e : W64) (s : State) (x : Ctx),
    let a := BitVec.ofNat 64 ((x.s (eSa w)).toNat - (x.s (eSa w)).toNat % 8)
    let r := if (x.s (eSa w)).toNat % 8 = 0 then 0 else 1
    let k := if 5 < bits64 w 0 3 then 0 else bits64 w 0 3
    let n := r + (if 5 < bits64 w 0 3 then 1 else 0) + extClamp w
    let b := x.s (eSb w)
    let lo := addrOff a
    let word := fun (o : Nat) => BitVec.ofNat 64 (leVal ((upFrom o 8).map (s.dev.scrByte c.toNat x)))
    let scratch := fun (a : W64) => addrNode a = s.dev.nodeId ∧ addrTier a = 0 ∧ addrOff a + 8 ≤ x.allot ∧ x.mm = none ∧
      Dev.scrInvalid x (upFrom (addrOff a) 8) = false ∧ s.dev.scrBad c.toNat x (upFrom (addrOff a) 8) = false
    let blocked := fun (y : Ctx) (n k : Nat) => { (y.clampAt x.arch.pc n).setPc (Dev.behind' x w) with
      wait := .word (mkAddr s.dev.nodeId 0 lo) k b, st := .residentBlocked, woke := false, blockedAt := s.dev.now }
    -- SYN.WAITM
    (s.dev.Runs c.toNat x w 2 6 [eSa w, eSb w] → scratch a →
      exec (.synWaitm c w e) s = .next ((s.putCtx c.toNat (
        if waitHolds k (word lo) b then x.executed s.dev.now n (Dev.behind' x w) else blocked x n k)).settled)) ∧
    -- SYN.BAR
    (s.dev.Runs c.toNat x w 2 7 [eSa w, eSb w] → s.dev.boundaryReady c.toNat x = false → exec (.synBar c w e) s = .next s.settled) ∧
    (s.dev.Runs c.toNat x w 2 7 [eSa w, eSb w] → s.dev.boundaryReady c.toNat x = true → scratch a → s.dev.isRes c.toNat x = true →
      ∃ (u : State) (y : Ctx), exec (.synBar c w e) s = .next u.settled ∧ u.dev.ctx? c.toNat = some y ∧
        y.arch = { x.arch with pc := Dev.behind' x w } ∧
        (∀ o, o < x.allot → u.dev.scrByte c.toNat y o = if lo ≤ o ∧ o < lo + 8 then (leBytes 8 (word lo + 1#64).toNat).getD (o - lo) 0#8
          else s.dev.scrByte c.toNat x o) ∧
        (if b.ule (word lo + 1#64) then y.wait = .none else y.wait = .word (mkAddr s.dev.nodeId 0 lo) 2 b ∧ y.st = .residentBlocked) ∧
        (∀ j, j ≠ c.toNat → u.dev.ctx? j = s.dev.ctx? j) ∧ u.dev.regs = s.dev.regs ∧ u.aon = s.aon) ∧
    -- WAITM_POLL of a word of scratch
    (∀ (q : W64) (m : Nat) (v : W64), s.dev.ctx? c.toNat = some x → x.wait = .word q m v → scratch q → x.fenced = false → m ≤ 5 →
      (x.st = .residentBlocked → waitHolds m (word (addrOff q)) v = false → exec (.waitmPoll c) s = .next s.settled) ∧
      (x.st = .residentBlocked → waitHolds m (word (addrOff q)) v = true → (s.dev.core x.core).cur = some c.toNat →
        exec (.waitmPoll c) s = .next ((s.putCtx c.toNat (({ x with st := .running, wait := .none } : Ctx).executed s.dev.now 0 x.arch.pc)).settled)) ∧
      (x.st = .residentBlocked → waitHolds m (word (addrOff q)) v = true → (s.dev.core x.core).cur ≠ some c.toNat →
        exec (.waitmPoll c) s = .next ((s.putCtx c.toNat { x with st := .residentRunnable }).settled))) ∧
    -- WAITM_RECHECK of a word of HBM or LPDDR
    (∀ (q : W64) (m : Nat) (v : W64), s.dev.ctx? c.toNat = some x → x.wait = .word q m v → addrNode q = s.dev.nodeId →
      (addrTier q = 1 ∨ addrTier q = 2) → addrOff q < s.dev.tierSize (addrTier q) → x.fenced = false → m ≤ 5 → x.st = .residentBlocked →
      s.dev.lholds (addrTier q) (addrOff q) 8 false = [] → (s.dev.lread (addrTier q) (addrOff q) 8).2 = false →
      let u : State := { s with dev := s.dev.lmeet (unitId 1 x.core) (addrTier q) (addrOff q) 8 }
      let holds := waitHolds m (BitVec.ofNat 64 (s.dev.lword (addrTier q) (addrOff q) 8)) v
      (holds = false → exec (.waitmRecheck c) s = .next u.settled) ∧
      (holds = true → (s.dev.core x.core).cur = some c.toNat →
        exec (.waitmRecheck c) s = .next ((u.putCtx c.toNat (({ x with st := .running, wait := .none } : Ctx).executed u.dev.now 0 x.arch.pc)).settled)) ∧
      (holds = true → (s.dev.core x.core).cur ≠ some c.toNat →
        exec (.waitmRecheck c) s = .next ((u.putCtx c.toNat { x with st := .residentRunnable }).settled)))

/-- R123, R134, R139, R141: the compute instructions, where they execute: not while matrix work is in progress; else the context's
scratch holds what the instruction's work writes, and every other byte of it as before; the program counter moves; descriptors,
predicates, events and window stay, and the other contexts and the standby records with them.
The model's own choices in it: log 5, 27 and 35. -/
def Obligations.ComputeInstructions : Prop :=
  ∀ (c : BitVec 12) (w e : W64) (s : State) (x : Ctx),
    -- the order in which writes are made: their own, but which of several words that run to one place of the last line (R74) is last is free
    let lands := fun (n : Nat) (l : List SWrite) => (Dev.lastOrder { s.dev with draws := n } x.allot SWrite.addr l).1
    let does := fun (i : Instr) (cls op : Nat) (uses : List Nat) (k : Work) =>
      s.dev.Runs c.toNat x w cls op uses →
      (x.mm ≠ none → exec i s = .next s.settled) ∧
      (x.mm = none → s.dev.isRes c.toNat x = true → (∀ o, o ∈ k.reads → s.dev.scrBad c.toNat x [o] = false) →
        ∃ (u : State) (y : Ctx), exec i s = .next u.settled ∧ u.dev.ctx? c.toNat = some y ∧ y.arch.pc = Dev.behind' x w ∧
          y.arch.td = x.arch.td ∧ y.arch.pred = x.arch.pred ∧ y.arch.ev = x.arch.ev ∧ y.arch.winBase = x.arch.winBase ∧
          y.arch.winLen = x.arch.winLen ∧ (k.status = none → y.arch.sreg = x.arch.sreg) ∧
          (∃ n, ∀ o, o < x.allot → u.dev.scrByte c.toNat y o = Dev.scratchAfter x (lands n k.writes) (s.dev.scrByte c.toNat x) o) ∧
          (∀ j, j ≠ c.toNat → u.dev.ctx? j = s.dev.ctx? j) ∧ u.aon = s.aon ∧ u.pending = s.pending)
    let sr := if bit64 w 6 then [31] else []
    let x0 := if iExt w then e else 0#64
    let sd := bits64 x0 0 5
    does (.vecElt c w e) 3 0x20 sr (s.dev.eltWork c.toNat x w) ∧
    does (.vecRed c w e) 3 0x21 sr (s.dev.redWork c.toNat x w) ∧
    does (.vecSoftmax c w e) 3 0x22 sr (s.dev.softmaxWork c.toNat x w) ∧
    does (.vecRmsnorm c w e) 3 0x23 sr (s.dev.rmsnormWork c.toNat x w (if iExt w then some e else none)) ∧
    does (.vecGather c w e) 3 0x24 sr (s.dev.gatherWork c.toNat x w) ∧
    does (.vecScatter c w e) 3 0x25 sr (s.dev.scatterWork c.toNat x w) ∧
    does (.qntQ c w e) 5 0 [] (s.dev.qntWork c.toNat x w false) ∧
    does (.qntDq c w e) 5 1 [] (s.dev.qntWork c.toNat x w true) ∧
    does (.qntSgrad c w e) 5 2 [] (s.dev.sgradWork c.toNat x w) ∧
    does (.rotWht c w e) 6 0 [] (s.dev.whtWork c.toNat x w x0) ∧
    does (.selHist c w e) 7 0 [sd] (s.dev.histWork c.toNat x w x0) ∧
    does (.selFilt c w e) 7 1 [sd, bits64 x0 5 5] (s.dev.filtWork c.toNat x w x0) ∧
    does (.selTopk c w e) 7 2 [sd] (s.dev.topkWork c.toNat x w x0) ∧
    does (.selMerge c w e) 7 3 [] (s.dev.mergeWork c.toNat x w) ∧
    does (.selSort c w e) 7 4 [] (s.dev.sortWork c.toNat x w)

/-- R87, R139: QNT.SLD writes the entries of its work to the scale file of the context's core and no byte of scratch; QNT.SST writes
entries of the window to scratch and no entry.
The model's own choices in it: log 48. -/
def Obligations.ScaleFileInstructions : Prop :=
  ∀ (c : BitVec 12) (w e : W64) (s : State) (x : Ctx),
    let goes := fun (i : Instr) (op : Nat) (k : Work) =>
      s.dev.Runs c.toNat x w 5 op [] → x.mm = none → s.dev.isRes c.toNat x = true → (∀ o, o ∈ k.reads → s.dev.scrBad c.toNat x [o] = false) →
      ∃ (u : State) (y : Ctx), exec i s = .next u.settled ∧ u.dev.ctx? c.toNat = some y ∧ y.arch = { x.arch with pc := Dev.behind' x w } ∧
        (∃ n, ∀ o, o < x.allot → u.dev.scrByte c.toNat y o =
          Dev.scratchAfter x (Dev.lastOrder { s.dev with draws := n } x.allot SWrite.addr k.writes).1 (s.dev.scrByte c.toNat x) o) ∧
        (∀ core i, u.dev.scaleAt core i = (k.scales.foldl (fun d q => d.setScale x.core q.1 q.2) s.dev).scaleAt core i)
    goes (.qntSld c w e) 3 (s.dev.sldWork c.toNat x w) ∧ (s.dev.sldWork c.toNat x w).writes = [] ∧
    goes (.qntSst c w e) 4 (s.dev.sstWork c.toNat x w) ∧ (s.dev.sstWork c.toNat x w).scales = []

/-- R123, R136, R137, R158: MM.MAC waits for the multiplication before it. With no extent to sum it is whole at once; else it starts:
its tiles wait in the context and no byte of scratch changes. MM_MAC_COMPLETE on a running core writes the tiles that remain and ends
the multiplication. Of the other contexts only step accounts change: a gap that ends is charged to its owner (R165).
The model's own choices in it: log 3, 28, 35 and 77. -/
def Obligations.MatrixMultiply : Prop :=
  ∀ (c : BitVec 12) (w e : W64) (s : State) (x : Ctx),
    let x0 := if iExt w then e else 0#64
    let g := (s.dev.mmShape c.toNat x w x0).1
    let mode := mmPick g (s.dev.fld (R.kuduCtrl x.core) F.kuduCtrl_packMax)
    let k := s.dev.mmWork c.toNat x w x0 mode
    let lands := fun (n : Nat) (l : List SWrite) => (Dev.lastOrder { s.dev with draws := n } x.allot SWrite.addr l).1
    (s.dev.Runs c.toNat x w 4 0 (if (bits64 w 0 18).testBit 4 then [31] else []) →
      (x.mm ≠ none → exec (.mmMac c w e) s = .next s.settled) ∧
      (x.mm = none → s.dev.isRes c.toNat x = true → (∀ o, o ∈ k.1.reads → s.dev.scrBad c.toNat x [o] = false) →
        ∃ (u : State) (y : Ctx), exec (.mmMac c w e) s = .next u.settled ∧ u.dev.ctx? c.toNat = some y ∧
          y.arch = { x.arch with pc := Dev.behind' x w } ∧ u.aon = s.aon ∧ u.pending = s.pending ∧
          (∀ j, j ≠ c.toNat → ∃ a n, u.dev.ctx? j = (s.dev.ctx? j).map (fun z => { z with acc := a, wraps := n })) ∧
          (if g.k = 0 ∨ g.none = true
           then y.mm = none ∧ ∃ n, ∀ o, o < x.allot → u.dev.scrByte c.toNat y o = Dev.scratchAfter x (lands n k.1.writes) (s.dev.scrByte c.toNat x) o
           else (∃ m, y.mm = some m ∧ m.tiles = k.2 ∧ m.done = 0 ∧ m.mode = mode ∧ m.again = false) ∧ ∀ o, o < x.allot → u.dev.scrByte c.toNat y o = s.dev.scrByte c.toNat x o))) ∧
    (∀ m, s.dev.ctx? c.toNat = some x → x.mm = some m → (s.dev.core x.core).cur = some c.toNat →
      s.dev.isFenced (unitId 1 x.core) = false → s.dev.flag (R.kuduCtrl x.core) F.kuduCtrl_run = true → s.dev.isRes c.toNat x = true →
      ∃ (u : State) (y : Ctx), exec (.mmMacComplete c) s = .next u ∧ u.dev.ctx? c.toNat = some y ∧ y.mm = none ∧ y.arch = x.arch ∧
        (∃ n, ∀ o, o < x.allot → u.dev.scrByte c.toNat y o = Dev.scratchAfter x (lands n ((m.tiles.drop m.done).flatMap (·.2))) (s.dev.scrByte c.toNat x) o) ∧
        (∀ j, j ≠ c.toNat → u.dev.ctx? j = s.dev.ctx? j))

/-- R121, R124, R142, R143, R198: STR.LD, STR.ST, STR.PF and FAB.PUT issue: not while their engine holds six transfers; else one
transfer with the operands as they stand joins the context's list behind the others, nothing has moved yet, and the context goes
on.
The model's own choices in it: log 3. -/
def Obligations.StreamsIssue : Prop :=
  ∀ (c : BitVec 12) (w e : W64) (s : State) (x : Ctx),
    let issues := fun (i : Instr) (cls op : Nat) (uses : List Nat) (free : Prop) (eng : Nat) (k : XKind) (ss ev : Nat) (eve : Bool) (far : Nat) =>
      s.dev.Runs c.toNat x w cls op uses → free →
      (6 ≤ (x.xfers.filter (fun t => t.eng == eng)).length → exec i s = .next s.settled) ∧
      ((x.xfers.filter (fun t => t.eng == eng)).length < 6 →
        ∃ (u : State) (y : Ctx) (t : Xfer), exec i s = .next u.settled ∧ u.dev.ctx? c.toNat = some y ∧
          y.xfers = x.xfers ++ [t] ∧ y.serial = x.serial + 1 ∧ y.arch = { x.arch with pc := Dev.behind' x w } ∧
          t.id = x.serial ∧ t.eng = eng ∧ t.kind = k ∧ t.ss = ss ∧ t.ev = ev ∧ t.eve = eve ∧ t.pc = x.arch.pc ∧
          t.granted = 0 ∧ t.landed = 0 ∧ t.m0 = min t.src.d0 t.dst.d0 ∧ t.m1 = min t.src.d1 t.dst.d1 ∧ t.m2 = min t.src.d2 t.dst.d2 ∧
          t.m3 = min t.src.d3 t.dst.d3 ∧ t.dst.fmt = t.src.fmt ∧ t.rate ≤ 262144 ∧ (t.status = 0 ∧ t.total = t.bytes ∨ t.status = 0x0B ∧ t.total = 0) ∧
          -- everything is moved where the far tensor is on this node or on one that has a route (R69, R281)
          (addrNode (x.tdw far 0) = s.dev.nodeId ∨ (s.dev.assigned = true ∧ s.dev.routeLinks (addrNode (x.tdw far 0)) ≠ []) →
            t.status = 0 ∧ t.total = t.bytes) ∧
          (∀ j, j ≠ c.toNat → u.dev.ctx? j = s.dev.ctx? j) ∧ u.dev.mem = s.dev.mem)
    let ss := bits64 (if iExt w then e else 0#64) 32 5
    issues (.strLd c w e) 8 0 [ss] True (if bit64 w 0 then 1 else 0) .ld ss (bits64 w 19 6) (bit64 w 18) (bits64 w 37 6) ∧
    issues (.strSt c w e) 8 1 [ss] True 2 .st ss (bits64 w 19 6) (bit64 w 18) (bits64 w 43 6) ∧
    issues (.strPf c w e) 8 2 [ss] True 3 .pf ss (bits64 w 19 6) (bit64 w 18) (bits64 w 37 6) ∧
    issues (.fabPut c w e) 9 4 [fSb w, fSs w] (bit64 w 8 = false ∨ s.dev.boundaryReady c.toNat x = true) 2 .put
      (bits64 w 27 5) (bits64 w 11 6) (bit64 w 10) (bits64 w 43 6)

/-- R142 (Table 05-11): the descriptor instructions where they execute. STR.TDW writes a word with its reserved bits as 0, STR.TDR
reads one, STR.TDADD adds to BASE; STR.TDLD and STR.TDST move 64 bytes between a descriptor and the context's scratch. -/
def Obligations.Descriptors : Prop :=
  ∀ (c : BitVec 12) (w e : W64) (s : State) (x : Ctx),
    let go := fun (op : Nat) => s.dev.Runs c.toNat x w 8 op [bits64 w 38 5]
    let n := bits64 w 43 6
    let at0 := x.s (bits64 w 38 5) + simm w 35
    let a := BitVec.ofNat 64 (at0.toNat - at0.toNat % 8)
    let lo := addrOff a
    let r := (if at0.toNat % 8 = 0 then 0 else 1) + extClamp w
    let gives := fun (y : Ctx) (k : Nat) => s.putCtx c.toNat (y.executed s.dev.now k (Dev.behind' x w))
    (go 0xA → exec (.strTdw c w e) s = .next (gives (x.setTdw n (bits64 w 35 3) (x.s (bits64 w 38 5))) (extClamp w))) ∧
    (go 0xB → exec (.strTdr c w e) s = .next (gives (x.setS (bits64 w 38 5) (x.tdw n (bits64 w 35 3))) (extClamp w))) ∧
    (go 0xC → exec (.strTdadd c w e) s = .next (gives (x.setTdw n 0 (x.tdw n 0 + at0)) (extClamp w))) ∧
    (∀ i v, i < 8 → (x.td n).length = 8 → (x.setTdw n i v).tdw n i = v &&& tdMask i) ∧
    (∀ m j i v, (m ≠ n ∨ (j ≠ i ∧ j < 8 ∧ ∃ l, x.td n = l ∧ l.length = 8 ∧ ∀ q, q < 8 → l.getD q 0#64 &&& tdMask q = l.getD q 0#64)) →
      (x.setTdw n i v).tdw m j = x.tdw m j) ∧
    (go 8 → addrNode a = s.dev.nodeId → addrTier a = 0 → lo + 64 ≤ x.allot → x.mm = none →
      Dev.scrInvalid x (upFrom lo 64) = false → s.dev.scrBad c.toNat x (upFrom lo 64) = false →
      exec (.strTdld c w e) s = .next ((gives (x.setTd n ((List.range 8).map (fun i =>
        BitVec.ofNat 64 (leVal ((upFrom (lo + 8 * i) 8).map (s.dev.scrByte c.toNat x)))))) r).settled)) ∧
    (go 9 → addrNode a = s.dev.nodeId → addrTier a = 0 → lo + 64 ≤ x.allot → x.mm = none → s.dev.isRes c.toNat x = true → (x.td n).length = 8 →
      ∃ (u : State) (y : Ctx), exec (.strTdst c w e) s = .next u.settled ∧ u.dev.ctx? c.toNat = some y ∧
        y.arch = { x.arch with pc := Dev.behind' x w } ∧
        (∀ o, o < x.allot → u.dev.scrByte c.toNat y o =
          if lo ≤ o ∧ o < lo + 64 then (leBytes 8 (x.tdw n ((o - lo) / 8)).toNat).getD ((o - lo) % 8) 0#8 else s.dev.scrByte c.toNat x o) ∧
        (∀ j, j ≠ c.toNat → u.dev.ctx? j = s.dev.ctx? j) ∧ u.dev.regs = s.dev.regs)

/-- R106, R143 (Table 05-12): FAB.AMO on a word of the context's scratch, as a release not before the earlier accesses are over: SD
takes the old word, SS the status word (0x1A where a compare did not match), and the word its new value by the code, where 11 to
15 are the atomic read. No other byte of the scratch changes.
The model's own choices in it: log 24. -/
def Obligations.AtomicOnScratch : Prop :=
  ∀ (c : BitVec 12) (w e : W64) (s : State) (x : Ctx),
    let code := if 10 < bits64 w 0 4 then 10 else bits64 w 0 4
    let sa := x.s (fSa w)
    let lo := sa.toNat - sa.toNat % 8
    let b := (x.s (fSb w)).toNat
    let d := (x.s (fSd w)).toNat
    let old := leVal ((upFrom (addrOff (BitVec.ofNat 64 lo)) 8).map (s.dev.scrByte c.toNat x))
    let signed := fun (n : Nat) => (BitVec.ofNat 64 n).toInt
    let val := match code with
      | 0 => (old + b) % 2 ^ 64
      | 1 => (BitVec.ofNat 64 old &&& BitVec.ofNat 64 b).toNat
      | 2 => (BitVec.ofNat 64 old ||| BitVec.ofNat 64 b).toNat
      | 3 => (BitVec.ofNat 64 old ^^^ BitVec.ofNat 64 b).toNat
      | 4 => b
      | 5 => if signed old < signed b then b else old
      | 6 => if signed b < signed old then b else old
      | 7 => max old b
      | 8 => min old b
      | 9 => if old = d then b else old
      | _ => old
    s.dev.Runs c.toNat x w 9 0 [fSa w, fSb w, fSd w, fSs w] →
    (bit64 w 8 = true → s.dev.boundaryReady c.toNat x = false → exec (.fabAmo c w e) s = .next s.settled) ∧
    ((bit64 w 8 = false ∨ s.dev.boundaryReady c.toNat x = true) → addrNode (BitVec.ofNat 64 lo) = s.dev.nodeId →
      addrTier (BitVec.ofNat 64 lo) = 0 → addrOff (BitVec.ofNat 64 lo) + 8 ≤ x.allot → x.mm = none → s.dev.isRes c.toNat x = true →
      Dev.scrInvalid x (upFrom (addrOff (BitVec.ofNat 64 lo)) 8) = false →
      s.dev.scrBad c.toNat x (upFrom (addrOff (BitVec.ofNat 64 lo)) 8) = false →
      ∃ (u : State) (y : Ctx), exec (.fabAmo c w e) s = .next u.settled ∧ u.dev.ctx? c.toNat = some y ∧ y.arch.pc = Dev.behind' x w ∧
        (fSd w ≠ 0 → fSd w ≠ fSs w → y.s (fSd w) = BitVec.ofNat 64 old) ∧
        (fSs w ≠ 0 → y.s (fSs w) = BitVec.ofNat 64 ((if code = 9 ∧ bits64 w 0 4 = 9 ∧ old ≠ d then 0x1A else 0) +
          (if sa.toNat % 8 = 0 ∧ bits64 w 0 4 ≤ 10 ∧ iExt w = false then 0 else 256))) ∧
        (∀ j, j ≠ fSd w → j ≠ fSs w → y.s j = x.s j) ∧ y.arch.pred = x.arch.pred ∧ y.arch.ev = x.arch.ev ∧ y.arch.td = x.arch.td ∧
        (∀ o, o < x.allot → u.dev.scrByte c.toNat y o =
          if addrOff (BitVec.ofNat 64 lo) ≤ o ∧ o < addrOff (BitVec.ofNat 64 lo) + 8
          then (leBytes 8 val).getD (o - addrOff (BitVec.ofNat 64 lo)) 0#8 else s.dev.scrByte c.toNat x o) ∧
        (∀ j, j ≠ c.toNat → u.dev.ctx? j = s.dev.ctx? j) ∧ u.dev.regs = s.dev.regs ∧ u.aon = s.aon)

/-- R124, R205, R303, R306, R307, R308: token instructions, where they execute. Not while SE2 holds six transfers or matrix work is in
progress; a send without an inbox, or without room in it, issues a transfer of no token that ends with its status; one with an inbox
that has room keeps the room of every token, takes its group's round and counts the group's round on, and issues a transfer whose
columns are sent as their bytes come from scratch; a column that is whole is sent, or its reply; when all of them have, the CLOSE
messages go and the receipts are awaited. A gather of an expert that is bound elsewhere is empty at once with one clamp; one whose
operands fill, or whose round is over, takes the oldest tokens with their headers, counts them in its status, and completes; so does
a gather of replies, and one that waited.
The model's own choices in it: log 3, 5, 47 and 55. -/
def Obligations.TokenInstructions : Prop :=
  ∀ (c : BitVec 12) (w e : W64) (s : State) (x : Ctx),
    let d := s.dev
    let o := d.tokOpnds c.toNat x w
    let hs := Dev.hdrScr o
    let n := min o.1.t.d1 o.2.t.d1
    let g := d.sendGroup (d.hdrExperts c.toNat x o)
    let units := match g with | some g => (d.groupOf g).units | none => 2 ^ 32
    let len := o.2.t.rowBytes o.2.t.d0
    let cut := min len (16 * units)
    let room := n * (16 + cut)
    let free := ((x.xfers.filter (fun t => t.eng == 2)).length < 6 ∧ x.mm = none)
    let rel := (bit64 w 8 = false ∨ d.boundaryReady c.toNat x = true)
    let noted := d.noteOpnds c.toNat [o.1, o.2]
    let flag := Dev.opndClamps [o.1, o.2] + extClamp w
    let goes := fun (u : Dev) => Host.Outcome.next (s.issued c.toNat u (extClamp w) (Dev.behind' x w))
    -- a gather by the word v that has taken m columns before: its columns, what it writes for one, how it leaves the context
    let cap := fun (v : W64) => min (d.tokOpnds c.toNat x v).1.t.d1 (d.tokOpnds c.toNat x v).2.t.d1
    let column := fun (v : W64) (i : Nat) (h data : List Byte) =>
      let tx := (tensorOf (x.td (bits64 v 43 6))).1
      let ty := (tensorOf (x.td (bits64 v 37 6))).1
      (List.range 16).map (fun j => SWrite.mk ((Dev.tokPlaces tx i 16).getD j 0) (h.getD j 0#8) 0xFF#8) ++
      (List.range (min (ty.rowBytes ty.d0) data.length)).map (fun j =>
        SWrite.mk ((Dev.tokPlaces ty i (min (ty.rowBytes ty.d0) data.length)).getD j 0) (data.getD j 0#8) 0xFF#8)
    let took := fun (v : W64) (m st : Nat) (now : List (List Byte × List Byte)) (u : State) (y : Ctx) =>
      u.dev.ctx? c.toNat = some y ∧ y.wait = .none ∧
      (fSs v ≠ 0 → y.s (fSs v) = statusWord st (Dev.gatherFlags d c.toNat x v) (m + now.length)) ∧ (∀ j, j ≠ fSs v → y.s j = x.s j) ∧
      (∀ j, j ≠ c.toNat → u.dev.ctx? j = d.ctx? j) ∧ u.aon = s.aon ∧
      ∃ f : Nat → Nat, ∀ q, q < x.allot → u.dev.scrByte c.toNat y q = (List.range now.length).foldl (fun r i =>
        Dev.scratchAfter x (Dev.lastOrder { d with draws := f i } x.allot SWrite.addr (column v (m + i) (now.getD i ([], [])).1 (now.getD i ([], [])).2)).1 r)
        (d.scrByte c.toNat x) q
    let ends := fun (v : W64) (m have_ : Nat) (over' : Bool) => (m < cap v ∧ cap v ≤ m + have_) ∨ (m ≤ cap v ∧ over' = true)
    -- what has come back to the context; the tokens of an expert's round
    let replies := fun (v : W64) (m : Nat) (b : Inbox) (u : State) (y : Ctx) =>
      let now := b.back.take (cap v - m)
      took v m (if cap v < m + b.back.length then 0x18 else 0) (now.map (fun q => (q.1, q.2.1))) u y ∧
      Tab.find u.dev.herd.inboxes c.toNat = some { b with back := b.back.drop (cap v - m), used := b.used - (now.map (fun q => 16 + q.2.2.1)).foldl (· + ·) 0 }
    let ex := (x.s (fSa w)).toNat % 65536
    let tokens := fun (v : W64) (m r ex grp : Nat) (u : State) (y : Ctx) =>
      let now := ((d.waiting ex).filter (·.round == r)).take (cap v - m)
      took v m (if m + now.length = cap v ∧ (d.waiting ex).all (fun t => now.contains t) = false ∧
          ¬ (d.roundClosed grp r = true ∧ (d.waiting ex).all (fun t => t.round != r || now.contains t) = true) then 0x18 else 0)
        (now.map (fun q => (Dev.tokHeader q.token q.expert 0 q.src q.ctx, q.data))) u y ∧
      u.dev.herd.tokIn = d.herd.tokIn.map (fun t => if now.contains t then { t with gathered := true } else t)
    -- FAB.SEND_TOKENS
    (d.Runs c.toNat x w 9 1 [fSs w] →
      ((bit64 w 8 = true ∧ d.boundaryReady c.toNat x = false) ∨ (rel ∧ ¬ free) → exec (.fabSendTokens c w e) s = .next s.settled) ∧
      (rel → free → d.scrBad c.toNat x hs = false →
        (∀ st u, st ≠ 0 → noted.needInbox c.toNat x.part = (st, u) →
          exec (.fabSendTokens c w e) s = goes (u.addXfer c.toNat (Dev.tokXfer x w .send o.1.t o.2.t 0 st 0 (flag != 0) TokSend.none))) ∧
        (∀ b, Tab.find d.herd.inboxes c.toNat = some b →
          (b.size < b.used + room → exec (.fabSendTokens c w e) s =
            goes (noted.addXfer c.toNat (Dev.tokXfer x w .send o.1.t o.2.t 0 0x30 0 (flag != 0) TokSend.none))) ∧
          (b.used + room ≤ b.size →
            ∃ (u : State) (y : Ctx) (t : Xfer), exec (.fabSendTokens c w e) s = .next u.settled ∧ u.dev.ctx? c.toNat = some y ∧
              y.arch = { x.arch with pc := Dev.behind' x w } ∧ y.xfers = x.xfers ++ [t] ∧ y.serial = x.serial + 1 ∧
              t.id = x.serial ∧ t.eng = 2 ∧ t.kind = .send ∧ t.dst = o.1.t ∧ t.src = o.2.t ∧ t.total = n * (16 + len) ∧ t.granted = 0 ∧
              t.landed = 0 ∧ t.status = 0 ∧ t.toks = n ∧ t.ss = fSs w ∧ t.ev = fEv w ∧ t.eve = bit64 w 10 ∧
              t.tok = ⟨g, (match g with | some g => Tab.getD d.herd.roundCtr (c.toNat * 256 + g) 0 | none => 0), units, false⟩ ∧
              u.dev.herd = { d.herd with
                inboxes := Tab.put d.herd.inboxes c.toNat { b with used := b.used + room }
                roundCtr := match g with
                  | some g => Tab.store d.herd.roundCtr (c.toNat * 256 + g) ((Tab.getD d.herd.roundCtr (c.toNat * 256 + g) 0 + 1) % 65536) 0
                  | none => d.herd.roundCtr } ∧
              (∀ j, j ≠ c.toNat → u.dev.ctx? j = d.ctx? j) ∧ u.dev.mem = d.mem)))) ∧
    -- FAB.RECV_TOKENS
    (d.Runs c.toNat x w 9 2 [fSa w, fSs w] →
      (rel → x.mm ≠ none → exec (.fabRecvTokens c w e) s = .next s.settled) ∧
      (rel → x.mm = none →
        let u := (((d.noteOpnds c.toNat [o.1, o.2]).clampC c.toNat (b2n (Dev.bigExpert x w))).needInbox c.toNat x.part).2
        (bit64 w 0 = false → (u.gatherBound ((x.s (fSa w)).toNat % 65536) x.part).1 = false →
          exec (.fabRecvTokens c w e) s =
            goes (((u.gatherBound ((x.s (fSa w)).toNat % 65536) x.part).2.clampC c.toNat 1).putStatus c.toNat (fSs w) 0 1 0)) ∧
        (∀ v, bit64 w 0 = true → u.gather c.toNat w 0 none = .done v → exec (.fabRecvTokens c w e) s = goes v) ∧
        (bit64 w 0 = true → Tab.find u.herd.inboxes c.toNat = none → (∃ y, u.ctx? c.toNat = some y) → ∃ v, u.gather c.toNat w 0 none = .done v) ∧
        (∀ b, bit64 w 0 = true → Tab.find u.herd.inboxes c.toNat = some b → (∃ y, u.ctx? c.toNat = some y) → u.herd.tokOut.any (·.ctx == c.toNat) = false →
          b.back = [] → ∃ v, u.gather c.toNat w 0 none = .done v) ∧
        (∀ b, d.isRes c.toNat x = true → Tab.find d.herd.inboxes c.toNat = some b →
          (bit64 w 0 = true → (b.back.take (cap w)).any (·.2.2.2) = false → (cap w ≤ b.back.length ∨ d.herd.tokOut.any (·.ctx == c.toNat) = false) →
            ∃ u y, exec (.fabRecvTokens c w e) s = .next (State.settled u) ∧ y.arch.pc = Dev.behind' x w ∧ replies w 0 b u y) ∧
          (∀ p q r, bit64 w 0 = false → d.expertOf ex = some p → Tab.find d.herd.bound ex = some q → q.part = x.part →
            d.gatherRound p.group ex = some r → (((d.waiting ex).filter (·.round == r)).take (cap w)).any (·.poison) = false →
            (cap w ≤ ((d.waiting ex).filter (·.round == r)).length ∨ d.roundClosed p.group r = true) →
            ∃ u y, exec (.fabRecvTokens c w e) s = .next (State.settled u) ∧ y.arch.pc = Dev.behind' x w ∧ tokens w 0 r ex p.group u y)))) ∧
    -- TOKEN_GATHER_COMPLETE
    (∀ v m rd, d.ctx? c.toNat = some x → x.wait = .tokens v m rd →
      (d.gatherReady c.toNat x v rd = false → exec (.tokenGatherComplete c) s = .next s.settled) ∧
      (d.gatherReady c.toNat x v rd = true → x.st = .residentBlocked → (d.core x.core).cur ≠ some c.toNat →
        exec (.tokenGatherComplete c) s = .next (s.putCtx c.toNat { x with st := .residentRunnable }).settled) ∧
      (∀ u, d.gatherReady c.toNat x v rd = true → (x.st = .running ∨ x.st = .residentBlocked ∧ (d.core x.core).cur = some c.toNat) →
        x.fenced = false → x.mm = none → (d.wake c.toNat).gather c.toNat v m rd = .done u →
        exec (.tokenGatherComplete c) s = .next (State.settled { s with dev := (u.modCtx c.toNat (fun y => { y with wait := .none })).trapNow c.toNat })) ∧
      ((x.st = .running ∨ x.st = .residentBlocked ∧ (d.core x.core).cur = some c.toNat) → x.fenced = false → x.mm = none → d.isRes c.toNat x = true →
        (∀ b, bit64 v 0 = true → Tab.find d.herd.inboxes c.toNat = some b → ends v m b.back.length (!d.herd.tokOut.any (·.ctx == c.toNat)) →
          (b.back.take (cap v - m)).any (·.2.2.2) = false →
          ∃ u y, exec (.tokenGatherComplete c) s = .next (State.settled u) ∧ y.arch.pc = x.arch.pc ∧ replies v m b u y) ∧
        (∀ p r, let ex := (x.s (fSa v)).toNat % 65536
          bit64 v 0 = false → d.expertOf ex = some p → rd = some r →
          (((d.waiting ex).filter (·.round == r)).take (cap v - m)).any (·.poison) = false →
          ends v m ((d.waiting ex).filter (·.round == r)).length (d.roundClosed p.group r) →
          ∃ u y, exec (.tokenGatherComplete c) s = .next (State.settled u) ∧ y.arch.pc = x.arch.pc ∧ tokens v m r ex p.group u y))) ∧
    -- FAB.REPLY_TOKENS
    (d.Runs c.toNat x w 9 3 [fSs w] →
      (rel → ¬ free → exec (.fabReplyTokens c w e) s = .next s.settled) ∧
      (rel → free → exec (.fabReplyTokens c w e) s = goes ((noted.needInbox c.toNat x.part).2.addXfer c.toNat
        (Dev.tokXfer x w .reply o.1.t o.2.t n 0 0 (flag != 0) TokSend.none)))) ∧
    -- STREAM_TRANSFER_COMPLETE: a column of the one transfer is whole; all columns have gone
    (∀ (eng : Fin 4) (t : Xfer), d.ctx? c.toNat = some x → x.xfers = [t] → t.eng = eng.val → t.streams = false →
      (∀ h data, Dev.wholeCol t 0 = some (h, data) → t.total = 16 + t.src.rowBytes t.src.d0 →
        let r := d.tokGo c.toNat t h data
        let u := r.2.2.modXfer c.toNat t.id (fun t => { t with
          held := t.held.filter (fun p => !(decide (p.1 < 16 + t.src.rowBytes t.src.d0))), toks := t.toks + r.2.1, clamped := t.clamped || r.1 != 0 })
        r.1 = 0 → exec (.streamTransferComplete c eng) s = .next (State.settled { s with dev := (u.tokWake.tokClose c.toNat eng).xferComplete c.toNat eng })) ∧
      (t.held = [] → t.total ≤ t.landed → d.isRes c.toNat x = true → t.tok.closed = false → ∀ tag g0, d.freeTag (x.core / 32) = some tag →
        t.tok.group = some g0 → d.tokWake = d →
        exec (.streamTransferComplete c eng) s = .next (State.settled { s with dev :=
          ((((d.sendCloses c.toNat g0 t.tok.round x.part).modXfer c.toNat t.id (fun t => { t with tok := { t.tok with closed := true } })).awaitReceipts
            c.toNat t.id tag).xferComplete c.toNat eng) })))

/-- R123, R124, R251: STR.MOVE. An address in no object of the partition moves nothing: the address comes back in SD with one clamp and
status 0; else the object's move is asked for, with a destination tier of none of 1, 2, 3 and an admitted 5 taken as tier 1. The
context goes on behind the instruction.
The model's own choices in it: log 63. -/
def Obligations.ObjectMoveIssue : Prop :=
  ∀ (c : BitVec 12) (w e : W64) (s : State) (x : Ctx), s.dev.Runs c.toNat x w 8 3 [fSa w, fSd w, fSs w] →
    let t0 := bits64 w 0 7 % 8
    let bad := decide (t0 = 0 ∨ t0 = 4 ∨ 6 ≤ t0 ∨ (t0 = 5 ∧ s.dev.admits5 (.ctx c.toNat) = false))
    let k := if bad then 1 else 0
    (s.dev.findObj x.part (x.s (fSa w)) = none → (∀ a ∈ x.asyncs, a.id ≠ x.serial) →
      ∃ (u : State) (y : Ctx), exec (.strMove c w e) s = .next u.settled ∧ u.dev.ctx? c.toNat = some y ∧ y.arch.pc = Dev.behind' x w ∧
        (fSd w ≠ 0 → fSd w ≠ fSs w → y.s (fSd w) = x.s (fSa w)) ∧ (fSs w ≠ 0 → y.s (fSs w) = 256#64) ∧
        (∀ j, j ≠ fSd w → j ≠ fSs w → y.s j = x.s j) ∧ y.asyncs = x.asyncs ∧ y.arch.pred = x.arch.pred ∧ y.arch.td = x.arch.td ∧
        (∀ j, j ≠ c.toNat → u.dev.ctx? j = s.dev.ctx? j) ∧ u.dev.tier = s.dev.tier ∧ u.dev.mem = s.dev.mem) ∧
    (∀ i, s.dev.findObj x.part (x.s (fSa w)) = some i →
      exec (.strMove c w e) s = .next (s.issued c.toNat (((s.dev.clampC c.toNat k).addAsync c.toNat x w true).moveObj i
        (if bad then 1 else t0) (.ctx c.toNat x.serial) (if bad = true ∨ iExt w = true then 1 else 0)) (extClamp w) (Dev.behind' x w)))

/-- R124, R145, R347, R349: SCN instructions, where they execute: none but GEN while matrix work is in progress. QUERY and RERANK add
one job, for the collection of the extension word with its clamped fields, and the context goes on; APPEND and DELETE of a
collection that is there put their change behind those that wait for it, with the records or IDs as the scratch holds them; of one
that is not there they complete at once with one clamp and status 0; GEN writes the current generation.
The model's own choices in it: log 3 and 57. -/
def Obligations.SearchInstructions : Prop :=
  ∀ (c : BitVec 12) (w e : W64) (s : State) (x : Ctx),
    let e' := if iExt w then e else 0#64
    let n := if iExt w then 0 else 1
    let coll := bits64 e' 0 10
    let k := if bits64 e' 10 7 < 1 then 1 else if 64 < bits64 e' 10 7 then 64 else bits64 e' 10 7
    let three := fun (m : Nat) => if m = 3 then 0 else m
    let issues := fun (i : Instr) (op : Nat) (uses : List Nat) (rerank : Bool) =>
      s.dev.Runs c.toNat x w 10 op uses →
      (x.mm ≠ none → exec i s = .next s.settled) ∧
      (x.mm = none → ∃ (u : State) (y : Ctx) (j : SJob) (a : Async), exec i s = .next u.settled ∧ u.dev.ctx? c.toNat = some y ∧
        y.arch = { x.arch with pc := Dev.behind' x w } ∧ y.asyncs = x.asyncs ++ [a] ∧ a.id = x.serial ∧ a.ss = fSs w ∧ a.sd = fSd w ∧
        y.serial = x.serial + 1 ∧ (∃ i, Tab.find u.dev.search.jobs i = some j) ∧ j.coll = coll ∧ j.part = x.part ∧ j.k = k ∧
        j.dist = three (bits64 e' 17 2) ∧ j.path = three (bits64 e' 19 2) ∧ j.rerank = rerank ∧ j.who = .ctx c.toNat x.serial ∧
        (∀ i, i ≠ c.toNat → u.dev.ctx? i = s.dev.ctx? i) ∧ u.dev.mem = s.dev.mem ∧ u.dev.search.colls = s.dev.search.colls ∧ u.aon = s.aon)
    issues (.scnQuery c w e) 0 [fSa w, fSd w, fSs w] false ∧
    issues (.scnRerank c w e) 1 [fSa w, fSb w, fSd w, fSs w] true ∧
    (s.dev.Runs c.toNat x w 10 2 [fSd w, fSs w] →
      (x.mm ≠ none → exec (.scnAppend c w e) s = .next s.settled) ∧
      (x.mm = none → s.dev.collFor coll x.part = none →
        let q := s.dev.operandOf c.toNat Dev.stay (if (tensorOf (x.td (fTdx w))).1.fmt = .fp32 ∨ (tensorOf (x.td (fTdx w))).1.fmt = .int8
          then tensorOf (x.td (fTdx w)) else tensorAs (x.td (fTdx w)) .int8)
        exec (.scnAppend c w e) s = .next (s.issued c.toNat
          (((s.dev.noteOpnds c.toNat [q]).clampC c.toNat (scnClamps e')).scnChange c.toNat x w e' n (.append [])) n (Dev.behind' x w)))) ∧
    (s.dev.Runs c.toNat x w 10 3 [fSd w, fSs w] → x.mm ≠ none → exec (.scnDelete c w e) s = .next s.settled) ∧
    (s.dev.Runs c.toNat x w 10 3 [fSd w, fSs w] → x.mm = none →
        let q := s.dev.operandOf c.toNat Dev.stay (tensorRead (x.td (fTdx w)) .score)
        q.t.d1 * q.t.d2 * q.t.d3 = 0 →
        exec (.scnDelete c w e) s = .next (s.issued c.toNat
          (((s.dev.noteOpnds c.toNat [q]).clampC c.toNat (scnClamps e')).scnChange c.toNat x w e' (scnClamps e' + n + Dev.opndClamps [q]) (.delete []))
          n (Dev.behind' x w))) ∧
    -- a change of a collection that is there: rows of m bytes of the scratch, at some places
    (∀ l, s.dev.collFor coll x.part = some l → x.mm = none →
      let changes := fun (i : Instr) (q : Opnd) (own : Nat) (ch : Change) =>
        exec i s = .next (s.issued c.toNat (Dev.addChange ((((s.dev.noteOpnds c.toNat [q]).clampC c.toNat own)).addAsync c.toNat x w true) coll
          ⟨ch, .ctx c.toNat x.serial, if own + n + Dev.opndClamps [q] = 0 then 0 else 1, x.arch.pc⟩) n (Dev.behind' x w))
      let good := fun (places : List Nat) (m : Nat) => places.all (fun o => decide (o < 2 ^ 49)) = true ∧
        Dev.scrInvalid x (places.flatMap (fun o => upFrom o m)) = false ∧ (∀ o ∈ places, s.dev.scrBad c.toNat x (upFrom o m) = false)
      let bytes := fun (m o : Nat) => (List.range m).map (fun b => s.dev.scrByte c.toNat x (o + b))
      (let q := s.dev.operandOf c.toNat Dev.stay (if (tensorOf (x.td (fTdx w))).1.fmt = .fp32 ∨ (tensorOf (x.td (fTdx w))).1.fmt = .int8
          then tensorOf (x.td (fTdx w)) else tensorAs (x.td (fTdx w)) .int8)
       let want := if q.t.fmt = .fp32 then 8 + l.dim else 32 + l.dim
       let m := min q.t.d0 want * q.t.fmt.esize
       let places := (List.range q.t.d1).map (fun i => q.t.at' (q.t.rowOff i 0 0))
       let recs := places.map (fun o => recordOf l (decide (q.t.fmt = .fp32)) (bytes m o))
       s.dev.Runs c.toNat x w 10 2 [fSd w, fSs w] → addrTier q.t.base = 0 → good places m →
         changes (.scnAppend c w e) q (scnClamps e' + (if q.t.d0 = want then 0 else 1) + (if recs.any (·.2) then 1 else 0)) (.append (recs.map (·.1)))) ∧
      (let q := s.dev.operandOf c.toNat Dev.stay (tensorRead (x.td (fTdx w)) .score)
       let places := (List.range (q.t.d1 * q.t.d2 * q.t.d3)).map (fun i => let r := q.t.row q.t.d1 q.t.d2 i; q.t.at' (q.t.rowOff r.1 r.2.1 r.2.2))
       let all := places.flatMap (bytes (8 * q.t.d0))
       s.dev.Runs c.toNat x w 10 3 [fSd w, fSs w] → addrTier q.t.base = 0 → good places (8 * q.t.d0) →
         changes (.scnDelete c w e) q (scnClamps e') (.delete ((List.range (all.length / 8)).map (fun i => leVal ((all.drop (8 * i)).take 5)))))) ∧
    (∀ l, s.dev.Runs c.toNat x w 10 4 [fSd w, fSs w] → s.dev.collFor coll x.part = some l →
      ∃ (u : State) (y : Ctx), exec (.scnGen c w e) s = .next u.settled ∧ u.dev.ctx? c.toNat = some y ∧ y.arch.pc = Dev.behind' x w ∧
        (fSd w ≠ 0 → fSd w ≠ fSs w → y.s (fSd w) = BitVec.ofNat 64 l.gen) ∧
        (fSs w ≠ 0 → y.s (fSs w) = if scnClamps e' + n = 0 then 0#64 else 256#64) ∧
        (∀ j, j ≠ fSd w → j ≠ fSs w → y.s j = x.s j) ∧ y.arch.pred = x.arch.pred ∧ y.arch.ev = x.arch.ev ∧
        (∀ j, j ≠ c.toNat → u.dev.ctx? j = s.dev.ctx? j) ∧ u.dev.search = s.dev.search ∧ u.dev.mem = s.dev.mem)

/-- R197 to R205, R216, R217, R124: the stream engines. A step of the arbiter of a core whose placed context has one transfer to serve
grants it a beat of up to 256 bytes and counts the step; a beat of a load from scratch, HBM or LPDDR whose turn it is lands its bytes
and is taken off; a transfer whose last byte has landed completes: its status register, then its event; a pause is a register write.
The model's own choices in it: log 3, 49 and 74. -/
def Obligations.StreamEngines : Prop :=
  ∀ (k : Fin 64) (s : State),
    -- STREAM_BEAT_GRANT
    ((s.dev.core k).cur = none → exec (.streamBeatGrant k) s = .next s) ∧
    (∀ c x e t, (s.dev.core k).cur = some c → s.dev.ctx? c = some x → s.dev.isFenced (unitId 1 k) = false → e < 4 →
      (∀ f, f < 4 → f ≠ e → s.dev.seLive k x f = none) → s.dev.seLive k x e = some t → s.dev.seReady k x t = true →
      (∀ u ∈ x.xfers, u.id = t.id → u = t) → s.dev.away t.far.base = false →
      ∃ (u : State) (y : Ctx), exec (.streamBeatGrant k) s = .next u ∧ u.dev.ctx? c = some y ∧ y.arch = x.arch ∧ y.st = x.st ∧
        (u.dev.core k).inflight = (s.dev.core k).inflight ++ [⟨c, e, t.id, t.granted, min 256 (t.total - t.granted), [], false, []⟩] ∧
        (u.dev.core k).step = (s.dev.core k).step + 1 ∧
        (∃ v ∈ y.xfers, v.id = t.id ∧ v.granted = t.granted + min 256 (t.total - t.granted) ∧ v.landed = t.landed) ∧
        (∀ j, j ≠ c → u.dev.ctx? j = s.dev.ctx? j) ∧ u.dev.mem = s.dev.mem ∧ u.aon = s.aon) ∧
    -- STREAM_BEAT_LAND: a load from HBM or LPDDR of this node
    (∀ (b : Fin 256) (q : Beat) (x : Ctx) (t : Xfer), (s.dev.core k).inflight[b.val]? = some q → s.dev.ctx? q.ctx = some x →
      x.xfers.find? (·.id == q.xid) = some t → (∀ u ∈ x.xfers, u.streams = true) →
      (Dev.beatMay (s.dev.core k) b q = false → exec (.streamBeatLand k b) s = .next s.settled) ∧
      (Dev.beatMay (s.dev.core k) b q = true → t.isStore = false → x.mm = none → s.dev.farAway t = false →
        (addrTier t.src.base = 1 ∨ addrTier t.src.base = 2) →
        -- the bytes of the beat that have not been read yet, with those of words that it shares with other beats (log 74)
        let runs := s.dev.farRuns t (Dev.reads (s.dev.farOff t) 8 t q.lo q.n)
        (∀ r ∈ runs, s.dev.lholds (addrTier t.src.base) r.2.1 r.2.2 false = [] ∧ (s.dev.lread (addrTier t.src.base) r.2.1 r.2.2).2 = false) →
        let bytes := runs.flatMap (fun r => (List.range r.2.2).map (fun i => (r.1 + i, (s.dev.lread (addrTier t.src.base) r.2.1 r.2.2).1.getD i 0#8)))
        let d := runs.foldl (fun d r => d.lmeet (unitId 1 k) (addrTier t.src.base) r.2.1 r.2.2) s.dev
        let seen := Dev.seenWith t bytes
        let lands := Dev.wholeUnits (Dev.toCome (s.dev.core k) q.ctx b t) (Dev.mates t.nearAt 8 t.total) t.held (Dev.beatOf t seen q)
        exec (.streamBeatLand k b) s = .next (State.settled { s with dev := ((d.beatOver k q.ctx q b).modXfer q.ctx t.id (fun t =>
          { t with held := lands.2, seen := Dev.seenAfter seen q })).scrWrite q.ctx (Dev.landWrites t lands.1) }))) ∧
    (∀ (b : Fin 256), (s.dev.core k).inflight[b.val]? = none → exec (.streamBeatLand k b) s = .next s.settled) ∧
    -- STREAM_TRANSFER_COMPLETE
    (∀ (c : BitVec 12) (e : Fin 4) (x : Ctx) (t : Xfer), s.dev.ctx? c.toNat = some x → x.xfers.find? (·.eng == e.val) = some t →
      (∀ u ∈ x.xfers, u.streams = true) → t.tok.closed = true →
      (s.dev.isRes c.toNat x = false ∨ t.landed < t.total → exec (.streamTransferComplete c e) s = .next s.settled) ∧
      (s.dev.isRes c.toNat x = true → t.total ≤ t.landed → s.dev.sendPending c.toNat t.id = false → s.dev.notifyOut c.toNat t.id = false →
        t.notify = none → t.hasSs = true → t.status = 0 → t.eve = false →
        exec (.streamTransferComplete c e) s = .next (State.settled (s.putCtx c.toNat
          (({ x with xfers := x.xfers.filter (·.id != t.id) } : Ctx).setS t.ss
            (BitVec.ofNat 64 ((if t.clamped then 256 else 0) + (if t.late then 8 * 256 else 0) + (if t.rindSrc then 16 * 256 else 0) +
              min t.landed 0xFFFFFFFF * 65536)))))) ∧
      (s.dev.isRes c.toNat x = true → t.total ≤ t.landed → s.dev.sendPending c.toNat t.id = false → s.dev.notifyOut c.toNat t.id = false →
        t.notify = none → t.hasSs = false → t.eve = true → (∀ v n, x.wait ≠ .event v n) →
        exec (.streamTransferComplete c e) s = .next (State.settled (s.putCtx c.toNat
          (({ x with xfers := x.xfers.filter (·.id != t.id) } : Ctx).addEvt t.ev 1))))) ∧
    -- SE_PAUSE
    (∀ (r : Req) (e : Fin 4) (on : Bool), s.dev.busAns r (R.seCtrl k e) true = .ok →
      exec (.sePause r k e on) s = .next (s.onDev (fun d => d.setFld (R.seCtrl k e) F.seCtrl_pause (if on then 1 else 0))))

/-- R92, R93, R210, R211 (Table 08-5): an abort of a task that has none pending cancels its transfers, jobs and matrix work, marks the
pages written since the last boundary invalid and waits; the restart then restores the restart point and counts one retry and one
restart, or ends the context with status 1 where the retries are used up. Causes 4 to 7 do not occur.
R99, R100, R236, R111: the end of a context. Its record is written once its transfers, jobs, matrix work and requests are over, then
its number, its places on its core and its save area are free; a request ends it with 0x14 and cancels its work; the clamp counter is
cleared with its flag and its first address.
The model's own choices in it: log 24 and 74. -/
def Obligations.ContextEndsAndRestarts : Prop :=
  (∀ (c : BitVec 12) (s : State) (x : Ctx), s.dev.ctx? c.toNat = some x →
     (∀ (cause : Fin 8) (e : Fin 4) (a : W64),
       (4 ≤ cause.val → exec (.taskAbort c cause e a) s = .next s) ∧
       (cause.val < 4 → x.wait = .restart → exec (.taskAbort c cause e a) s = .next s.settled) ∧
       (cause.val < 4 → x.wait ≠ .restart → x.st ≠ .ending →
         ∃ (u : State) (y : Ctx), exec (.taskAbort c cause e a) s = .next u.settled ∧ u.dev.ctx? c.toNat = some y ∧
           y.wait = .restart ∧ y.xfers = [] ∧ y.asyncs = [] ∧ y.mm = none ∧ y.arch = x.arch ∧ y.restart = x.restart ∧ y.retries = x.retries ∧
           y.dirty = [] ∧ (∀ p, p ∈ x.dirty ∨ p ∈ x.invalid → p ∈ y.invalid) ∧ (∀ p, p ∈ y.live → p ∈ x.live ∧ p ∉ x.dirty) ∧
           -- where no search of it has begun to write (of one that has, which pages are written is free)
           ((∀ j ∈ s.dev.search.jobs, j.2.ctx = some c.toNat → j.2.started = false ∨ j.2.cancelled = true) →
             (∀ p, p ∈ y.invalid ↔ p ∈ x.dirty ∨ p ∈ x.invalid) ∧ (∀ p, p ∈ y.live ↔ p ∈ x.live ∧ p ∉ x.dirty)) ∧
           y.st = (if x.st = .replyWait ∧ x.fenced = false then .savedRunnable else if x.st = .savedBlocked then .savedRunnable else if x.st = .residentBlocked
             then (if (s.dev.core x.core).cur = some c.toNat then .running else .residentRunnable) else x.st) ∧
           (∀ j, j ≠ c.toNat → u.dev.ctx? j = s.dev.ctx? j) ∧ u.aon = s.aon)) ∧
     (x.wait ≠ .restart ∨ s.dev.ctxCancelled c.toNat = true ∨ x.fenced = true → exec (.taskRestart c) s = .next s) ∧
     (x.wait = .restart → s.dev.ctxCancelled c.toNat = false → x.fenced = false →
       (x.launch.retryLimit ≤ x.retries → exec (.taskRestart c) s = .next (s.putCtx c.toNat (x.ended s.dev.now 1))) ∧
       (x.retries < x.launch.retryLimit →
         let t := s.putCtx c.toNat { x with
           arch := x.restart, winSave := x.restartWin, wait := .none, retries := x.retries + 1, restarts := min 65535 (x.restarts + 1), restarted := true }
         exec (.taskRestart c) s = .next (if (s.dev.core x.core).cur = some c.toNat then { t with dev := t.dev.takeWindow x.core c.toNat } else t)))) ∧
  (∀ (r : Req) (c : BitVec 12) (s : State) (x : Ctx), s.dev.ctx? c.toNat = some x →
     (x.st ≠ .ending ∨ x.endStatus = none ∨ s.dev.quiet c.toNat x = false → exec (.completionRecordWrite c) s = .next s.settled) ∧
     -- a record in HBM or LPDDR of this node: words 1 to 3, then word 0 with VALID, then the context is no more
     (∀ st, x.st = .ending → x.endStatus = some st → s.dev.quiet c.toNat x = true → x.host = none → x.codeObj = none → x.posting = false →
       s.dev.posts = [] → (∀ o ∈ s.dev.herd.outs, ∀ i, o.2.kind ≠ .post i) → s.dev.herd.dir = [] → s.dev.tier.forwards = [] →
       Tab.find s.dev.herd.inboxes c.toNat = none → x.launch.notify = 0#64 →
       addrNode x.launch.compl = s.dev.nodeId → (addrTier x.launch.compl = 1 ∨ addrTier x.launch.compl = 2) → x.launch.compl.toNat % 32 = 0 →
       let flags := x.flags % 8 + (if x.eventOvf then 8 else 0) + (if x.restarted then 16 else 0) + (if x.clampOvf then 32 else 0)
       let word0 := BitVec.ofNat 64 (c.toNat + x.part * 2 ^ 12 + st * 2 ^ 16 + flags % 256 * 2 ^ 24 + 2 ^ 63)
       let rest := [BitVec.ofNat 64 (x.clamps + x.restarts * 2 ^ 32), x.firstClamp.getD 0#64, BitVec.ofNat 64 x.blockedAt]
       let t := addrTier x.launch.compl
       let o := addrOff x.launch.compl
       let d1 := (s.dev.lwrite t (o + 8) (rest.flatMap (fun w => leBytes 8 w.toNat))).lwrite t o (leBytes 8 word0.toNat)
       let d2 := d1.modCore x.core (fun y => { y with resident := y.resident.filter (· ≠ c.toNat), cur := if y.cur = some c.toNat then none else y.cur })
       let d3 := Dev.freeObj { d2 with ctxs := Tab.del d2.ctxs c.toNat } x.saveObj
       let same := Tab.find d3.herd.inboxes c.toNat = none
       let herd := { d3.herd with
         inboxes := Tab.del d3.herd.inboxes c.toNat
         tokOut := d3.herd.tokOut.filter (·.ctx != c.toNat)
         roundCtr := d3.herd.roundCtr.filter (fun t => t.1 / 256 != c.toNat) }
       same → exec (.completionRecordWrite c) s = .next (State.settled { s with dev := Dev.passBoundary { d3 with herd := herd } c.toNat })) ∧
     (s.dev.busAns r R.partCtxCtrl true = .ok →
       (x.st = .ending → exec (.contextEndRequest r c) s = .next s) ∧
       (x.st ≠ .ending → ∃ (u : State) (y : Ctx), exec (.contextEndRequest r c) s = .next u ∧ u.dev.ctx? c.toNat = some y ∧ y.st = .ending ∧
         y.endStatus = some 0x14 ∧ y.wait = .none ∧ y.xfers = [] ∧ y.asyncs = [] ∧ y.mm = none ∧ y.arch = x.arch ∧
         (∀ j, j ≠ c.toNat → u.dev.ctx? j = s.dev.ctx? j) ∧ u.dev.mem = s.dev.mem ∧ u.aon = s.aon) ∧
       exec (.contextClearClamp r c) s = .next (s.putCtx c.toNat { x with clamps := 0, clampOvf := false, firstClamp := none })))

/-- R163 to R167, R170, R171: the matrix arrays and a core's control. A gap begins with the settings of its moment, and the array turns
inactive; without dummy work its density falls to 0 at once; ramps change the density by 1 of 64 at a time; RUN cleared makes the core
stop, and KUDU_CORE_STOPPED, when its results are written, sets STOPPED; the scale file takes register writes only then. (How many
dummy steps an interval counts is free, log 35.)
The model's own choices in it: log 35. -/
def Obligations.ArraysAndCores : Prop :=
  ∀ (r : Req) (k : Fin 64) (m : Fin 4) (s : State),
    let a := s.dev.arr k m
    let idle := fun (d : Dev) => if (List.range 4).all (fun m => (d.arr k m).density == 0) then d.setFld (R.kuduPwrEvt k) F.kuduPwrEvt_idle 1 else d
    (a.gap = true ∨ s.dev.busyArr k m = true ∨ s.dev.isFenced (unitId 1 k) = true → exec (.arrayGapBegin k m) s = .next s) ∧
    (a.gap = false → s.dev.busyArr k m = false → s.dev.isFenced (unitId 1 k) = false →
      let b : Arr := ⟨a.density, true, a.ramp, s.dev.fld (R.kuduGap k) F.kuduGap_thresh, s.dev.fld (R.kuduGap k) F.kuduGap_ramp + 1,
        s.dev.flag (R.kuduCtrl k) F.kuduCtrl_dummyEn, a.owner⟩
      exec (.arrayGapBegin k m) s = .next (s.onDev (fun d =>
        let d := d.setFld (R.kuduMaStatus k m) F.kuduMaStatus_active 0
        if b.dummyEn then d.setArr k m b else idle (d.setArr k m { b with density := 0, ramp := 0 })))) ∧
    (a.gap = true → a.ramp ≠ 1 → a.density ≠ 0 → a.dummyEn = true →
      exec (.arrayRampDownStart k m) s = .next (s.onDev (fun d =>
        idle ((if a.thresh = 0 then d else d.dummies k m).setArr k m { a with ramp := if a.density = 1 then 0 else 1, density := a.density - 1 })))) ∧
    (a.gap = false ∨ a.ramp = 1 ∨ a.density = 0 ∨ a.dummyEn = false → exec (.arrayRampDownStart k m) s = .next s) ∧
    (a.ramp = 1 → exec (.arrayRampInterval k m) s = .next (s.onDev (fun d =>
      idle ((d.dummies k m).setArr k m { a with density := a.density - 1, ramp := if a.density ≤ 1 then 0 else 1 })))) ∧
    (a.ramp = 2 → exec (.arrayRampInterval k m) s = .next (s.onDev (fun d =>
      (if d.flag (R.kuduMaStatus k m) F.kuduMaStatus_active then d else d.dummies k m).setArr k m { a with
        density := min 64 (a.density + 1), ramp := if 63 ≤ a.density then 0 else 2 }))) ∧
    (a.ramp = 0 → exec (.arrayRampInterval k m) s = .next s) ∧
    (a.gap = true → a.density ≠ 64 → s.dev.busyArr k m = true → s.dev.isFenced (unitId 1 k) = false →
      exec (.arrayRampUp k m) s = .next (s.onDev (fun d =>
        let d := d.setFld (R.kuduMaStatus k m) F.kuduMaStatus_active 1
        if a.dummyEn = false then d.setArr k m { a with gap := false, density := 64, ramp := 0, owner := (d.core k).cur }
        else
          let d := if a.density = 0 then (d.count (R.kuduWakeCnt k) (R.kuduPwrEvt k) F.kuduPwrEvt_wakeOvf).setFld (R.kuduPwrEvt k) F.kuduPwrEvt_wake 1 else d
          d.setArr k m { a with gap := false, density := a.density + 1, ramp := if a.density = 63 then 0 else 2, owner := (d.core k).cur }))) ∧
    (s.dev.busAns r (R.kuduCtrl k) true = .ok →
      exec (.kuduCoreStop r k) s = .next (s.onDev (fun d => (d.setFld (R.kuduCtrl k) F.kuduCtrl_run 0).modCore k
        (fun y => { y with stopping := y.stopping || d.flag (R.kuduCtrl k) F.kuduCtrl_run }))) ∧
      (let e := ((s.dev.setFld (R.kuduCtrl k) F.kuduCtrl_run 1).setFld (R.kuduStatus k) F.kuduStatus_stopped 0).modCore k
        (fun y => { y with stopping := false })
       exec (.kuduCoreRun r k) s = .next { s with dev := if s.dev.flag (R.kuduStatus k) F.kuduStatus_stopped then e.mmGo k else e } ∧
       -- a multiplication that is not over goes on; with none nothing else happens
       (e.curCtx k = none → e.mmGo k = e) ∧ (∀ c x, e.curCtx k = some (c, x) → x.mm = none → e.mmGo k = e))) ∧
    ((s.dev.core k).stopping = true → s.dev.isFenced (unitId 1 k) = false →
      exec (.kuduCoreStopped k) s = .next (s.onDev (fun d =>
        let d := match (s.dev.core k).cur with | some c => d.mmStop c | none => d
        (d.setFld (R.kuduStatus k) F.kuduStatus_stopped 1).modCore k (fun y => { y with stopping := false })))) ∧
    ((s.dev.core k).stopping = false ∨ s.dev.isFenced (unitId 1 k) = true → exec (.kuduCoreStopped k) s = .next s) ∧
    (∀ (e : BitVec 12) (hi : Bool) (v : W32), s.dev.busAns r (R.kuduCtrl k + 0x8000 + 8 * e.toNat + (if hi then 4 else 0)) true = .ok →
      (s.dev.flag (R.kuduStatus k) F.kuduStatus_stopped = false → exec (.kuduScaleWrite r k e hi v) s = .next s) ∧
      (s.dev.flag (R.kuduStatus k) F.kuduStatus_stopped = true →
        let old := s.dev.scaleAt k e.toNat
        exec (.kuduScaleWrite r k e hi v) s = .next (s.onDev (fun d => d.setScale k e.toNat
          (BitVec.ofNat 64 (if hi then old.toNat % 2 ^ 32 + v.toNat * 2 ^ 32 else v.toNat + old.toNat / 2 ^ 32 * 2 ^ 32))))))

/-- R95 to R100, R223, R224: launches. A doorbell whose descriptor's lines are ready puts the descriptor at the tail of the partition's
queue, that of the ringing core's owner where it has one, and a 65th is refused with 0x20; the head of a queue that passes the checks
and finds its save area becomes a context at its entry point with its arguments in S1 to S8, and one that fails them is refused.
The model's own choices in it: log 43, 51, 76 and 78. -/
def Obligations.LaunchQueues : Prop :=
  ∀ (r : Req) (a : W64) (p : Fin 16) (s : State),
    let z := s.dev.clampSteps r false Dev.stay a 128
    let ws := (List.range 16).map (fun i => BitVec.ofNat 64 (leVal (((s.dev.lread z.tier z.off 128).1.drop (8 * i)).take 8)))
    let d := (s.dev.lmeet (r.master s.dev) z.tier z.off 128).noteClamps r z.kinds a
    let part := bits64 (ws.getD 10 0#64) 0 4
    let dest := (r.part d).getD part
    let q : LaunchReq := ⟨ws, if dest = part then 0 else 1, none, match r with | .cham k => k | _ => 32⟩
    (s.dev.busAns r R.partLaunchLo true = .ok → s.dev.isHere z = true → s.dev.lready z.tier z.off 128 false = true →
      ((Tab.getD d.launchQ dest []).length < 64 →
        exec (.launchSubmit r a) s = .next (State.settled { s with dev := { d with launchQ := Tab.put d.launchQ dest (Tab.getD d.launchQ dest [] ++ [q]) } })) ∧
      (64 ≤ (Tab.getD d.launchQ dest []).length → exec (.launchSubmit r a) s = .next (State.settled { s with dev := d.launchFail q dest 0x20 }))) ∧
    (s.dev.busAns r R.partLaunchLo true = .frozen → exec (.launchSubmit r a) s = .next s.settled) ∧
    (Tab.getD s.dev.launchQ p [] = [] → exec (.launchDequeue p) s = .next s.settled) ∧
    (∀ q rest, Tab.getD s.dev.launchQ p [] = q :: rest →
      let g := s.dev.launchArgs q
      let st := s.dev.launchCheck p g
      (s.dev.isHere g.code = true → s.dev.lready g.code.tier g.code.off 64 false = false →
        exec (.launchDequeue p) s = .next (State.settled (s.onDev (fun d => d.dirAsk false (d.lholds g.code.tier g.code.off 64 false))))) ∧
      (s.dev.isHere g.code = false → s.dev.hasFetched none 0 (Dev.placeAddr g.code) 64 = false →
        exec (.launchDequeue p) s = .next (State.settled (s.onDev (fun d => d.askFetch 0 (some p.val) none 0 (Dev.placeAddr g.code) 64)))) ∧
      ((if s.dev.isHere g.code = true then s.dev.lready g.code.tier g.code.off 64 false = true else s.dev.hasFetched none 0 (Dev.placeAddr g.code) 64 = true) →
      let popped : Dev := { s.dev with launchQ := Tab.store s.dev.launchQ p rest [] }
      let size := (104 * 1024 + g.allot + 65535) / 65536 * 65536
      (st ≠ 0 → (st < 3 ∨ g.headerOk = false) →
        exec (.launchDequeue p) s = .next (State.settled { s with dev := (popped.launchFail q p st).doneFetch (!s.dev.isHere g.code) none 0 })) ∧
      (∀ b e, st = 0 → s.dev.tier.objs.length < 262144 → e.ctxs.length < 4096 → s.dev.alloc p 2 size 0 = (.got b, e) →
        ∃ (u : State) (c : Nat) (y : Ctx), exec (.launchDequeue p) s = .next u.settled ∧ c < 4096 ∧ e.ctx? c = none ∧ u.dev.ctx? c = some y ∧
          (∀ j, j ≠ c → u.dev.ctx? j = e.ctx? j) ∧ u.dev.launchQ = Tab.store e.launchQ p rest [] ∧ y.part = p ∧
          y.arch.pc = Dev.placeAddr g.code + BitVec.ofNat 64 g.offset + BitVec.ofNat 64 g.entry ∧ y.launch.entry = y.arch.pc ∧
          (∀ i, i < 8 → y.s (i + 1) = q.words.getD (2 + i) 0#64) ∧ (∀ i, (i = 0 ∨ 9 ≤ i) → y.s i = 0#64) ∧
          y.arch.pred = [] ∧ y.arch.td = [] ∧ y.arch.ev = [] ∧ y.arch.winBase = g.winBase ∧ y.arch.winLen = g.winLen ∧
          y.allot = g.allot ∧ y.share = g.share ∧ y.restart = y.arch ∧ y.retries = 0 ∧ y.xfers = [] ∧ y.wait = .none ∧
          y.clamps = min 0xFFFFFFFF (g.fieldClamps + (g.code.kinds ++ g.compl.kinds ++ (if g.hasNotify then g.notify.kinds else [])).length) ∧
          (y.launch.clampTrap = false ∨ y.clamps = 0 → y.st = .savedRunnable ∧ y.endStatus = none) ∧
          (y.launch.clampTrap = true → y.clamps ≠ 0 → y.st = .ending ∧ y.endStatus = some 0x12))))

/-- R219 to R222, R240: the PART registers of owners and of partitions, and the control of the Chamois cores. An owner that is none of
those that there are becomes NONE, with one clamp; a Kudu core's takes effect when no context is resident on it, a Chamois core's at the
core's next trap; a fifth privileged partition is refused, a slice lies in 1 to 1,000, reservations of slots sum to at most 8,192. -/
def Obligations.OwnersAndPartitions : Prop :=
  ∀ (r : Req) (k : Fin 64) (n : Fin 32) (p : Fin 16) (v : W32) (s : State),
    let clamp := fun (d : Dev) (m : Nat) => d.countN R.partClampCnt R.partEvt F.partEvt_clampOvf m
    -- PART_KUDU_OWN_WRITE, KUDU_OWNER_APPLY
    (s.dev.busAns r (R.partKuduOwn k) true = .ok →
      let o := getF v F.partKuduOwn_owner
      let o' := if o < 16 then o else 31
      exec (.partKuduOwnWrite r k v) s = .next (s.onDev (fun d =>
        let d := (clamp d (if o = o' then 0 else 1)).setFld (R.partKuduOwn k) F.partKuduOwn_owner o'
        if o' = d.fld (R.partKuduOwn k) F.partKuduOwn_effective then d.setFld (R.partKuduOwn k) F.partKuduOwn_pending 0
        else if (d.core k).resident = [] then (d.setFld (R.partKuduOwn k) F.partKuduOwn_effective o').setFld (R.partKuduOwn k) F.partKuduOwn_pending 0
        else d.setFld (R.partKuduOwn k) F.partKuduOwn_pending 1))) ∧
    (s.dev.flag (R.partKuduOwn k) F.partKuduOwn_pending = false ∨ (s.dev.core k).resident ≠ [] → exec (.kuduOwnerApply k) s = .next s) ∧
    (s.dev.flag (R.partKuduOwn k) F.partKuduOwn_pending = true → (s.dev.core k).resident = [] →
      exec (.kuduOwnerApply k) s = .next (s.onDev (fun d => (d.setFld (R.partKuduOwn k) F.partKuduOwn_effective
        (d.fld (R.partKuduOwn k) F.partKuduOwn_owner)).setFld (R.partKuduOwn k) F.partKuduOwn_pending 0))) ∧
    -- PART_CHAM_OWN_WRITE
    (s.dev.busAns r (R.partChamOwn n) true = .ok →
      let o := getF v F.partChamOwn_owner
      let o' := if o ≤ 16 then o else 31
      exec (.partChamOwnWrite r n v) s = .next (s.onDev (fun d =>
        let d := (clamp d (if o = o' then 0 else 1)).setFld (R.partChamOwn n) F.partChamOwn_owner o'
        d.setFld (R.partChamOwn n) F.partChamOwn_pending (if o' = d.fld (R.partChamOwn n) F.partChamOwn_effective then 0 else 1)))) ∧
    -- PART_CFG_WRITE, PART_ORYX_WRITE
    (s.dev.busAns r (R.partCfg p) true = .ok →
      let no := getF v F.partCfg_priv = 1 ∧ s.dev.flag (R.partCfg p) F.partCfg_priv = false ∧
        4 ≤ ((List.range 16).filter (fun q => s.dev.flag (R.partCfg q) F.partCfg_priv)).length
      let sl := getF v F.partCfg_slice
      let sl' := if sl < 1 then 1 else if 1000 < sl then 1000 else sl
      exec (.partCfgWrite r p v) s = .next (s.onDev (fun d => Dev.copyPriv
        ((clamp d ((if no then 1 else 0) + (if sl = sl' then 0 else 1))).setFlds (R.partCfg p) [(F.partCfg_enable, getF v F.partCfg_enable),
          (F.partCfg_priv, if no then 0 else getF v F.partCfg_priv), (F.partCfg_scrCkpt, getF v F.partCfg_scrCkpt), (F.partCfg_slice, sl')])))) ∧
    (s.dev.busAns r (R.partOryx p) true = .ok →
      let others := (((List.range 16).filter (· ≠ p.val)).map (fun q => s.dev.fld (R.partOryx q) F.partOryx_slots)).foldl (· + ·) 0
      let m := getF v F.partOryx_slots
      exec (.partOryxWrite r p v) s = .next (s.onDev (fun d => (clamp d (if m ≤ 8192 - others then 0 else 1)).setFld (R.partOryx p)
        F.partOryx_slots (min m (8192 - others))))) ∧
    -- CHAM_HALT, CHAM_TRAP: the trap is taken where the core executes
    (s.dev.busAns r (R.chamCtrl n) true = .ok →
      let take := fun (d : Dev) => if d.flag (R.chamCtrl n) F.chamCtrl_trap = true ∧ d.flag (R.chamCtrl n) F.chamCtrl_halt = false ∧
          d.isFenced (unitId 2 n) = false
        then ((d.setFld (R.chamCtrl n) F.chamCtrl_trap 0).setFld (R.partChamOwn n) F.partChamOwn_effective
          ((d.setFld (R.chamCtrl n) F.chamCtrl_trap 0).fld (R.partChamOwn n) F.partChamOwn_owner)).setFld (R.partChamOwn n) F.partChamOwn_pending 0
        else d
      (∀ on, ∃ t, exec (.chamHalt r n on) s = .next t ∧ t.dev.flag (R.chamCtrl n) F.chamCtrl_halt = on ∧
        t = s.onDev (fun d => take (d.setFld (R.chamCtrl n) F.chamCtrl_halt (if on then 1 else 0)))) ∧
      (∃ u : Dev, u.flag (R.chamCtrl n) F.chamCtrl_trap = true ∧ u.flag (R.chamCtrl n) F.chamCtrl_halt = s.dev.flag (R.chamCtrl n) F.chamCtrl_halt ∧
        (∀ a, a ≠ R.chamCtrl n → u.reg a = s.dev.reg a) ∧ exec (.chamTrap r n) s = .next { s with dev := take u }))

/-- R225 to R238: the scheduler. A slice end brings the accounts of its partition's contexts up to date; a switch puts a runnable resident
in the place of execution of its core, and the one that was there stays resident; a pre-emption takes a context off its core with its
pages; a restore brings it back; a fenced context restarts from its restart point, or ends where its partition has no core left.
The model's own choices in it: log 35, 50 and 51. -/
def Obligations.Scheduling : Prop :=
  ∀ (k : Fin 64) (c : BitVec 12) (p : Fin 16) (s : State) (x : Ctx),
    -- SLICE_END where the partition has no core, and where one context is placed
    (s.dev.placeCores p = [] → exec (.sliceEnd p) s = .next (State.settled (s.onDev (fun d => d.sliceCosts p)))) ∧
    (∀ q j, let e := s.dev.sliceCosts p
      (e.byDeficit ((e.ctxsOf p).filter (fun y => Dev.runnable y.2))).take (e.coresOf p).length = [q] → e.ctx? q.1 = some x →
      e.bestCore q.1 x (e.placeCores p) = some j → exec (.sliceEnd p) s = .next (State.settled { s with dev := e.placeOn j q.1 [q.1] })) ∧
    (∀ (d : Dev), Tab.risesFrom 0 d.ctxs = true → d.ctx? c.toNat = some x → (d.sliceCosts p).ctx? c.toNat = some (if x.part = p.val then
      { x with
        share := x.shareNext
        windows := (d.costOf ((List.range 5).map (fun a => (a, (Tab.getD x.acc a 0 + 2 ^ 64 - Tab.getD x.accAt a 0) % 2 ^ 64))) :: x.windows).take 64
        accAt := x.acc, accShown := x.acc } else x)) ∧
    -- CONTEXT_SWITCH
    (s.dev.ctx? c.toNat = some x → c.toNat ∉ (s.dev.core k).resident ∨ (s.dev.core k).cur = some c.toNat ∨ x.st ≠ .residentRunnable ∨
      s.dev.isFenced (unitId 1 k) = true → exec (.contextSwitch k c) s = .next s) ∧
    (s.dev.ctx? c.toNat = some x → c.toNat ∈ (s.dev.core k).resident → (s.dev.core k).cur ≠ some c.toNat → x.st = .residentRunnable →
      s.dev.isFenced (unitId 1 k) = false → ∃ (u : State) (y : Ctx), exec (.contextSwitch k c) s = .next u ∧ u.dev.ctx? c.toNat = some y ∧
        y.st = .running ∧ y.ran = true ∧ y.arch = x.arch ∧ y.xfers = x.xfers ∧ (u.dev.core k).cur = some c.toNat ∧
        (u.dev.core k).resident = c.toNat :: (s.dev.core k).resident.filter (· ≠ c.toNat) ∧
        (∀ o z, (s.dev.core k).cur = some o → s.dev.ctx? o = some z → ∃ z', u.dev.ctx? o = some z' ∧ z'.arch = z.arch ∧
          z'.st = if z.st = .running then .residentRunnable else z.st) ∧ u.aon = s.aon) ∧
    -- CORE_STEAL, ALL_BLOCKED_SWAP
    (s.dev.byDeficit (s.dev.stealable k) = [] → exec (.coreSteal k) s = .next s.settled) ∧
    (∀ o l, s.dev.byDeficit (s.dev.stealable k) = o :: l → ((s.dev.placeOn k o.1 []).core k).cur = some o.1 →
      exec (.coreSteal k) s = .next (State.settled (s.onDev (fun d => (d.placeOn k o.1 []).count R.partStealCnt R.partEvt F.partEvt_stealOvf)))) ∧
    ((s.dev.core k).resident = [] ∨ k.val ∉ s.dev.placeCores (s.dev.kuduOwner k) ∨
      (∃ o ∈ (s.dev.core k).resident, ∀ y, s.dev.ctx? o = some y → y.st ≠ .residentBlocked) → exec (.allBlockedSwap k) s = .next s.settled) ∧
    (∀ o l, (s.dev.core k).resident ≠ [] → k.val ∈ s.dev.placeCores (s.dev.kuduOwner k) →
      (∀ o ∈ (s.dev.core k).resident, ∃ y, s.dev.ctx? o = some y ∧ y.st = .residentBlocked) →
      s.dev.byDeficit ((s.dev.ctxsOf (s.dev.kuduOwner k)).filter (fun q => q.2.st = .savedRunnable &&
        !(s.dev.placeCores (s.dev.kuduOwner k)).any (fun j => (s.dev.stealable j).any (fun t => t.1 == q.1)))) = o :: l →
      exec (.allBlockedSwap k) s = .next (State.settled (s.onDev (fun d =>
        ((Dev.swapRoom 16 d k o.2.allot true).placeOn k o.1 []).count R.partSwapCnt R.partEvt F.partEvt_swapOvf)))) ∧
    -- PREEMPT
    (s.dev.ctx? c.toNat = some x → s.dev.isRes c.toNat x = false ∨ x.st = .ending ∨ x.fenced = true → exec (.preempt c) s = .next s.settled) ∧
    (s.dev.ctx? c.toNat = some x → s.dev.isRes c.toNat x = true → x.st ≠ .ending → x.fenced = false → x.mm = none →
      (∀ b ∈ (s.dev.core x.core).inflight, b.ctx ≠ c.toNat) →
      ∃ (u : State) (y : Ctx), exec (.preempt c) s = .next u.settled ∧ u.dev.ctx? c.toNat = some y ∧ y.arch = x.arch ∧
        c.toNat ∉ (u.dev.core x.core).resident ∧ (u.dev.core x.core).cur ≠ some c.toNat ∧
        (y.st = .replyWait ∨ y.st = if x.st = .residentBlocked then .savedBlocked else .savedRunnable) ∧
        ((∀ o ∈ s.dev.herd.outs, Dev.slotOf x c.toNat o.1 o.2.kind = none) → y.st = if x.st = .residentBlocked then .savedBlocked else .savedRunnable) ∧
        y.image = s.dev.livePages x ∧ (∀ j, j ≠ c.toNat → u.dev.ctx? j = s.dev.ctx? j) ∧ u.aon = s.aon) ∧
    -- CONTEXT_RESTORE
    (s.dev.ctx? c.toNat = some x → x.st ≠ .savedRunnable ∨ k.val ∉ s.dev.placeCores x.part ∨ s.dev.hasRoom k x.allot = false →
      exec (.contextRestore k c) s = .next s.settled) ∧
    (s.dev.ctx? c.toNat = some x → x.st = .savedRunnable → k.val ∈ s.dev.placeCores x.part → s.dev.hasRoom k x.allot = true → x.slots = [] →
      ∃ (u : State) (y : Ctx), exec (.contextRestore k c) s = .next u.settled ∧ u.dev.ctx? c.toNat = some y ∧ y.core = k.val ∧
        y.arch = x.arch ∧ c.toNat ∈ (u.dev.core k).resident ∧ y.base + y.allot ≤ 2 ^ 24 ∧
        (if (s.dev.core k).cur = none then y.st = .running ∧ (u.dev.core k).cur = some c.toNat
         else y.st = .residentRunnable ∧ (u.dev.core k).cur = (s.dev.core k).cur) ∧ u.aon = s.aon) ∧
    -- FENCED_CONTEXT_RESTART
    (s.dev.ctx? c.toNat = some x → x.fenced = false → exec (.fencedContextRestart c) s = .next s) ∧
    (Tab.risesFrom 0 s.dev.ctxs = true → s.dev.ctx? c.toNat = some x → x.fenced = true →
      ∃ (u : State) (y : Ctx), exec (.fencedContextRestart c) s = .next u ∧ u.dev.ctx? c.toNat = some y ∧
        y.xfers = [] ∧ y.mm = none ∧ c.toNat ∉ (u.dev.core x.core).resident ∧ u.aon = s.aon ∧
        -- one that has ended stays so
        (x.st = .ending → y.fenced = false ∧ y.st = .ending ∧ y.endStatus = x.endStatus ∧ y.arch = x.arch ∧
          ∀ j, j ≠ c.toNat → u.dev.ctx? j = s.dev.ctx? j) ∧
        -- with no core left, every context of the partition ends with 2
        (x.st ≠ .ending → s.dev.coresOf x.part = [] → y.fenced = false ∧ y.st = .ending ∧ y.endStatus = some 2 ∧ y.arch = x.arch ∧
          ∀ j z, j ≠ c.toNat → s.dev.ctx? j = some z →
            (z.part ≠ x.part ∨ z.st = .ending → u.dev.ctx? j = some z) ∧
            (z.part = x.part → z.st ≠ .ending → ∃ z', u.dev.ctx? j = some z' ∧ z'.st = .ending ∧ z'.endStatus = some 2 ∧ z'.xfers = [])) ∧
        -- else it restarts, once nothing that was cancelled is awaited any more
        (x.st ≠ .ending → s.dev.coresOf x.part ≠ [] →
          (∀ j, j ≠ c.toNat → u.dev.ctx? j = s.dev.ctx? j) ∧
          ((∀ j ∈ s.dev.search.jobs, j.2.ctx ≠ some c.toNat) →
            (∀ o ∈ s.dev.herd.outs, Dev.slotOf x c.toNat o.1 o.2.kind = none ∧ o.2.kind ≠ .cancelled c.toNat ∧ (∀ i, o.2.kind ≠ .receipts c.toNat i)) →
            y.fenced = false ∧ y.st = .savedRunnable ∧ y.wait = .none ∧ y.arch = x.restart ∧ y.winSave = x.restartWin ∧ y.dirty = []) ∧
          ((∃ j ∈ s.dev.search.jobs, j.2.ctx = some c.toNat) → y.fenced = true ∧ y.st = .replyWait ∧ y.arch = x.arch)))

/-- R243 to R251 (Table 10-3): the object commands of a Chamois core, by a block of 64 bytes of this device whose lines are ready: none
while they are not; else the block's operation, by the partition that owns the core, with the answer in the block.
The model's own choices in it: log 34, 39, 43 and 51. -/
def Obligations.ObjectCommands : Prop :=
  ∀ (k : Fin 32) (a : W64) (s : State), s.dev.busAns (.cham k) R.tierOcmdLo true = .ok →
    let z := s.dev.clampSteps (.cham k) false Dev.noT3 a 64
    let ws := Dev.wordsOf 8 (s.dev.lread z.tier z.off 64).1
    let op := bits64 (ws.getD 0 0#64) 0 8
    let d := ((s.dev.noteClamps (.cham k) z.kinds a).ltouch false z.tier z.off 64).tierClamp (if 1 ≤ op ∧ op ≤ 7 then 0 else 1)
    let p := if s.dev.chamOwner k < 16 then s.dev.chamOwner k else 16
    let who := Asker.block k (Dev.placeAddr z)
    let fl := if 1 ≤ op ∧ op ≤ 7 then 0 else 1
    let at' := ws.getD 2 0#64
    s.dev.isHere z = true →
    (s.dev.lready z.tier z.off 64 true = false → ∀ i, i ∈ [Instr.ocmdCreate k a, .ocmdFree k a, .ocmdMove k a, .ocmdPin k a, .ocmdUnpin k a,
      .ocmdRebaseAck k a, .ocmdQuery k a] → exec i s = .next (s.onDev (fun d => d.dirAsk true (d.lholds z.tier z.off 64 true)))) ∧
    (s.dev.lready z.tier z.off 64 true = true →
      let nothing := fun (i : Instr) (o fl : Nat) (d : Dev) => op = o → d.findObj p at' = none →
        exec i s = .next { s with dev := d.answerObj who 0x29 fl 0 0 0 0#64 0 }
      let onObj := fun (i : Instr) (o : Nat) (d : Dev) (f : Nat → Obj → Dev → Dev) => ∀ n b, op = o → d.findObj p at' = some n →
        Tab.find d.tier.objs n = some b → exec i s = .next { s with dev := f n b d }
      -- OCMD_CREATE
      (op = 1 → exec (.ocmdCreate k a) s = .next { s with dev := d.createObj (.cham k) p ws who }) ∧
      (let g := d.createArgs (.cham k) ws
       let e := (d.tierClamp g.2.2.2.2.2.2.2.2).lendWish (!g.2.1 && g.1 != 5 && bits64 (ws.getD 0 0#64) 8 3 == 5)
       let t := if g.2.1 = true then e.autoTier p g.2.2.1 g.2.2.2.2.2.1 g.2.2.2.2.2.2.1 else g.1
       let size := Dev.roundSize t g.2.2.2.2.2.2.1
       let index := Dev.indexRoom g.2.2.2.1 t g.2.2.2.2.2.2.1
       let rind := g.2.2.2.1
       let got := Dev.allocate 2 e p t (size + index) g.2.2.2.2.2.1 ((if rind = true ∧ t = 3 then 0 else size) + index)
       let flag := min 1 g.2.2.2.2.2.2.2.2
       let answer := fun (u : Dev) (st : Nat) => d.createObj (.cham k) p ws who = u.answerObj who st flag 0 t 0 0#64 0
       let packed := rind = true → t = 3 → (g.2.2.2.2.2.2.1 + 4095) / 4096 ≤ e.fineFree
       (rind = true → t = 3 → e.fineFree < (g.2.2.2.2.2.2.1 + 4095) / 4096 → answer e 3) ∧
       (∀ u, packed → got = (.full, u) → answer (if t = 5 then u.askLend else u) 3) ∧
       (packed → (∀ u, got ≠ (.full, u)) → 262144 ≤ e.tier.objs.length + (if index = 0 then 0 else 1) → answer e 0x28) ∧
       (packed → (∀ u, got ≠ (.full, u)) → e.tier.objs.length + (if index = 0 then 0 else 1) < 262144 → t = 3 → e.ftl.retired = true → answer e 0x58)) ∧
      (let g := d.createArgs (.cham k) ws
       let e := (d.tierClamp g.2.2.2.2.2.2.2.2).lendWish (!g.2.1 && g.1 != 5 && bits64 (ws.getD 0 0#64) 8 3 == 5)
       let t := if g.2.1 = true then e.autoTier p g.2.2.1 g.2.2.2.2.2.1 g.2.2.2.2.2.2.1 else g.1
       let size := Dev.roundSize t g.2.2.2.2.2.2.1
       let index := Dev.indexRoom g.2.2.2.1 t g.2.2.2.2.2.2.1
       ∀ b u, e.tier.objs.length + (if index = 0 then 0 else 1) < 262144 → (t = 3 → e.ftl.retired = false) →
        (g.2.2.2.1 = true → t = 3 → (g.2.2.2.2.2.2.1 + 4095) / 4096 ≤ e.fineFree) →
        Dev.allocate 2 e p t (size + index) g.2.2.2.2.2.1 ((if g.2.2.2.1 = true ∧ t = 3 then 0 else size) + index) = (.got b, u) →
        d.createObj (.cham k) p ws who = u.finishCreate (.cham k) p t b ws who (min 1 g.2.2.2.2.2.2.2.2)) ∧
      -- OCMD_FREE
      nothing (.ocmdFree k a) 2 0 d ∧
      onObj (.ocmdFree k a) 2 d (fun n b d =>
        if b.pins + b.fixedPins ≠ 0 then d.answerWith who 0x2A 0 n 0
        else if b.move.isSome then d.modObj n (fun o => { o with move := o.move.map (fun m => { m with abandon := m.abandon ++ [(who, 0)] }) })
        else (d.answerWith who 0 0 n 0).freeObj n) ∧
      -- OCMD_MOVE
      (let t0 := bits64 (ws.getD 0 0#64) 8 3
       let bad := decide (t0 = 0 ∨ t0 = 4 ∨ 6 ≤ t0 ∨ (t0 = 5 ∧ d.admits5 (.cham k) = false))
       let fl := if bad then 1 else 0
       let e := (d.tierClamp fl).lendWish (bad && t0 == 5)
       nothing (.ocmdMove k a) 3 fl e ∧
       onObj (.ocmdMove k a) 3 e (fun n _ d => d.moveObj n (if bad then 1 else t0) who fl)) ∧
      -- OCMD_PIN, OCMD_UNPIN
      nothing (.ocmdPin k a) 4 0 d ∧
      onObj (.ocmdPin k a) 4 d (fun n b d =>
        if 65535 ≤ b.pins + b.fixedPins then (d.tierClamp 1).answerWith who 0 1 n 0
        else
          let e := d.modObj n (fun o => { o with pins := o.pins + 1, move := o.move.bind (fun m => if m.demotion then none else some m) })
          let u := Dev.answerWith { e with tier := { e.tier with waits := e.tier.waits.filter (fun w => !(w.2.moving == some n && w.2.demotion)) } } who 0 0 n 0
          -- a demotion that has not published is abandoned, what waited behind it begins
          if b.move.any (·.demotion) || !(d.demotionNext n).isEmpty then ((d.demotionNext n).foldl (fun d q => d.moveObj n q.1 q.2.1 q.2.2) u).retryWaits
          else u) ∧
      nothing (.ocmdUnpin k a) 5 0 d ∧
      onObj (.ocmdUnpin k a) 5 d (fun n b d =>
        if b.pins = 0 then (d.tierClamp 1).answerWith who 0 1 n 0
        else (d.modObj n (fun o => { o with pins := o.pins - 1 })).answerWith who 0 0 n 0) ∧
      -- OCMD_REBASE_ACK
      (op = 6 → exec (.ocmdRebaseAck k a) s = .next { s with dev := Dev.answerObj { d with tier := { d.tier with
        forwards := d.tier.forwards.map (fun f => if f.2.part = p then (f.1, { f.2 with needAck := false }) else f) } } who 0 0 0 0 0 0#64 0 }) ∧
      -- OCMD_QUERY: operation 7, and any that there is not
      ((op = 7 ∨ op < 1 ∨ 7 < op) → d.findObj p at' = none → exec (.ocmdQuery k a) s = .next { s with dev := d.answerObj who 0x29 fl 0 0 0 0#64 0 }) ∧
      (∀ n b, (op = 7 ∨ op < 1 ∨ 7 < op) → d.findObj p at' = some n → Tab.find d.tier.objs n = some b →
        exec (.ocmdQuery k a) s = .next { s with dev := d.answerWith who 0 fl n 0 }))

/-- R247 to R249, R254: moves, forwards and waits of the object service. A move is published once no directory entry of the object is held
and its new range can be written: the object stands at its new place, a forward at its old one, the locator word and the answer are
written. A forward whose rebase points have come retires; one that outlives its time counts once.
The model's own choices in it: log 51 and 66. -/
def Obligations.ObjectService : Prop :=
  ∀ (s : State),
    (∀ (i : BitVec 18) (o : Obj), Tab.find s.dev.tier.objs i.toNat = some o →
      (o.move = none → exec (.objectMovePublish i) s = .next s) ∧
      -- abandoned by a FREE: the askers of the move have an answer with a free status, the object is freed
      (∀ m who fl, o.move = some m → m.abandon = [(who, fl)] →
        exec (.objectMovePublish i) s = .next (s.onDev (fun d =>
          ((d.abandoned i.toNat ((m.who, m.fl) :: m.next.map (·.2))).answerWith who 0 fl i.toNat 0).freeObj i.toNat))) ∧
      -- lines of the object or of its locator word that caches hold come first
      (∀ m, o.move = some m → m.abandon = [] → s.dev.dirHolds o.tier o.base o.size true ++ s.dev.locHeld o ≠ [] →
        exec (.objectMovePublish i) s = .next (s.onDev (fun d => d.dirAsk true (d.dirHolds o.tier o.base o.size true ++ d.locHeld o)))) ∧
      (∀ m, o.move = some m → m.abandon = [] → s.dev.dirHolds o.tier o.base o.size true = [] → s.dev.locHeld o = [] → s.dev.moveFits o m = true →
        m.next = [] →
        let size := Dev.roundSize m.tier o.size
        let d := ((s.dev.zeroRange m.tier m.base size).purge m.tier m.base size).copyObj o m.tier m.base
        let f : Forward := ⟨o.part, i.toNat, o.tier, o.base, o.size, Dev.indexRoom o.rind o.tier o.size, s.dev.objCharge o o.tier, m.demotion,
          (s.dev.ctxs.filter (fun c => c.2.part == o.part)).map (·.1),
          (List.range 32).any (fun n => s.dev.chamOwner n == o.part), s.dev.namedBy o m, false⟩
        let o' := { o with tier := m.tier, base := m.base, size := size, move := none, enc := if m.tier = 1 then [] else o.enc }
        let e : Dev := { d with tier := { d.tier with
          objs := Tab.put d.tier.objs i.toNat o', forwards := Tab.put d.tier.forwards d.tier.nextId f, nextId := d.tier.nextId + 1 } }
        let g := (((e.breakResv o.tier o.base o.size).moveIndex i.toNat).putLocator o').count R.tierMoveCnt R.tierEvt F.tierEvt_moveOvf
        exec (.objectMovePublish i) s = .next { s with dev :=
          (if m.demotion then g.count R.tierDemoteCnt R.tierEvt F.tierEvt_demoteOvf else g).answerWith m.who 0 m.fl i.toNat (g.objBytes o' m.tier) })) ∧
    (∀ (i : BitVec 32) (f : Forward), Tab.find s.dev.tier.forwards i.toNat = some f →
      (s.dev.rebased f = false → exec (.forwardRetire i) s = .next s) ∧
      (s.dev.rebased f = true → exec (.forwardRetire i) s = .next (s.onDev (fun d =>
        ((Dev.zeroRange { d with tier := { d.tier with forwards := Tab.del d.tier.forwards i.toNat } } f.tier f.base (f.size + f.ix)).retryWaits).segsLeave))) ∧
      (f.late = true → exec (.forwardLate i) s = .next s) ∧
      (f.late = false → exec (.forwardLate i) s = .next (s.onDev (fun d =>
        Dev.count { d with tier := { d.tier with forwards := Tab.put d.tier.forwards i.toNat { f with late := true } } }
          R.tierLateCnt R.tierEvt F.tierEvt_lateOvf)))) ∧
    (∀ (j : Fin 4), let t := [1, 2, 3, 5].getD j 1
      (3 ≤ t ∨ s.dev.pooled t = false ∨ s.dev.lowOf t ≤ s.dev.freeOf t → exec (.poolDemote j) s = .next s) ∧
      (t < 3 → s.dev.pooled t = true → s.dev.freeOf t < s.dev.lowOf t → exec (.poolDemote j) s = .next (s.onDev (fun d =>
        Dev.demoteLoop (Dev.allocate 1) d.tier.objs.length d t 0)))) ∧
    (∀ (i : BitVec 32) (w : AllocWait), Tab.find s.dev.tier.waits i.toNat = some w →
      -- the room that there now is, else QUOTA_EXCEEDED, counted
      (∀ b u, s.dev.takeGap w.tier w.die w.size = some (b, u) → exec (.allocWaitExpire i) s = .next { s with dev := u.grantWait i.toNat w b }) ∧
      (s.dev.takeGap w.tier w.die w.size = none → exec (.allocWaitExpire i) s = .next (s.onDev (fun d =>
        let d := Dev.countFull { d with tier := { d.tier with waits := Tab.del d.tier.waits i.toNat } }
        match w.moving with
        | some o => w.next.foldl (fun d n => d.moveObj o n.1 n.2.1 n.2.2) (d.answerWith w.who 3 w.fl o 0)
        | none => d.answerObj w.who 3 w.fl 0 w.tier 0 0#64 0))))

/-- R12, R13: the access codes, field by field, in a register whose fields do not overlap. A write stores the field of RW, clears the bits
written 1 of W1C, sets those of W1S, and leaves RO, WO, RC and every reserved bit as they are; a read returns the register with its WO
fields as 0, and clears its RC fields and nothing else.
R13: the fields of every register of the device lie within its 32 bits and do not overlap.
R65: an event counter adds one and holds at its last value, where it sets its sticky overflow bit instead; no other register
changes. -/
def Obligations.RegisterFields : Prop :=
  (∀ (fs : List FieldSpec) (old v : W32), fs.Pairwise (fun f g => f.f.lo + f.f.w ≤ g.f.lo ∨ g.f.lo + g.f.w ≤ f.f.lo) →
     (∀ f ∈ fs, f.f.lo + f.f.w ≤ 32) →
     (∀ f ∈ fs, getF (writeFields fs old v) f.f = (match f.acc with
         | .rw => getF v f.f
         | .w1c => getF old f.f &&& (2 ^ f.f.w - 1 - getF v f.f)
         | .w1s => getF old f.f ||| getF v f.f
         | _ => getF old f.f) ∧
       getF (readValue fs v) f.f = (if f.acc = .wo then 0 else getF v f.f) ∧
       getF (clearRc fs v) f.f = (if f.acc = .rc then 0 else getF v f.f)) ∧
     (∀ i, i < 32 → (∀ f ∈ fs, i < f.f.lo ∨ f.f.lo + f.f.w ≤ i) → (writeFields fs old v).getLsbD i = old.getLsbD i ∧
       (readValue fs v).getLsbD i = v.getLsbD i ∧ (clearRc fs v).getLsbD i = v.getLsbD i)) ∧
  (∀ (b : Blk), ∀ s ∈ blkRegs b, s.fields.Pairwise (fun f g => f.f.lo + f.f.w ≤ g.f.lo ∨ g.f.lo + g.f.w ≤ f.f.lo) ∧
     ∀ f ∈ s.fields, f.f.lo + f.f.w ≤ 32) ∧
  (∀ (d : Dev) (cnt evt : Nat) (ovf : Fld), cnt ≠ evt → ovf.w = 1 → ovf.lo < 32 →
     ((d.reg cnt).toNat < 0xFFFFFFFF → (d.count cnt evt ovf).reg cnt = d.reg cnt + 1#32 ∧ ∀ a, a ≠ cnt → (d.count cnt evt ovf).reg a = d.reg a) ∧
     ((d.reg cnt).toNat = 0xFFFFFFFF → (d.count cnt evt ovf).reg cnt = d.reg cnt ∧ (d.count cnt evt ovf).flag evt ovf = true ∧
       ∀ a, a ≠ evt → (d.count cnt evt ovf).reg a = d.reg a) ∧
     (d.count cnt evt ovf) = { d with regs := (d.count cnt evt ovf).regs })

/-- R66, R79 to R82: the register bus. An access to a hole reads 0, writes nothing, counts one address clamp and carries CLAMPED; a write
to a register of a fenced unit is not made; the read of a pair's low word gives it and keeps the high word for the next read of that;
the write of a pair's high word is held until its low word's, which writes both; registers cleared by a read are.
The model's own choices in it: log 12, 13 and 72. -/
def Obligations.RegisterBus : Prop :=
  ∀ (r : Req) (a : BitVec 24) (s : State),
    let hole := fun (d : Dev) => ({ d.addrClamp r 3 (d.regAddr a.toNat) with rdata := 0#64, rflags := 1 } : Dev)
    -- REGISTER_HOLE_ACCESS
    (∀ wr, s.dev.busAns r a.toNat wr = .hole → exec (.registerHoleAccess r a wr) s = .next (s.onDev hole)) ∧
    (∀ wr, s.dev.busAns r a.toNat wr ≠ .hole → exec (.registerHoleAccess r a wr) s = .next s) ∧
    -- REGISTER_WRITE of 4 aligned bytes
    (∀ v, a.toNat % 4 = 0 → s.dev.busAns r a.toNat true = .frozen →
      exec (.registerWrite r a 2 v) s = .next (s.onDev (fun d => { d with rflags := 0, rstatus := 0 })).settled) ∧
    (∀ v x, a.toNat % 4 = 0 → s.dev.busAns r a.toNat true = .ok → regAt a.toNat = some x → x.spec.pair = .none →
      x.row.blk ≠ .tahr → x.row.blk ≠ .pwr → x.row.blk ≠ .dir →
      exec (.registerWrite r a 2 v) s = .next (s.onDev (fun d =>
        ({ d.regWrite x (regHome x a.toNat) (BitVec.ofNat 32 v.toNat) with rflags := 0, rstatus := 0 } : Dev))).settled) ∧
    (∀ (d : Dev) (x : RegAt) (h : Nat) (v : W32), (x.row.blk = .cap ∨ x.row.blk = .hl ∧ x.spec.off ≠ 0 ∨ x.row.blk = .addr ∨ x.row.blk = .pwr) →
      d.regWrite x h v = d.setReg h (writeFields x.spec.fields (d.reg h) v)) ∧
    -- PAIR_LOW_WORD_READ, PAIR_HIGH_WORD_WRITE, PAIR_LOW_WORD_WRITE
    (∀ x y, a.toNat % 4 = 0 → regAt a.toNat = some x → x.spec.pair = .low → s.dev.busAns r a.toNat false ≠ .hole →
      regAt (a.toNat + 4) = some y → x.row.blk ≠ .ts →
      exec (.pairLowWordRead r a) s = .next (s.onDev (fun d => ({ d with
        rdata := (readValue x.spec.fields (d.liveReg s.aon r 0 x (regHome x a.toNat))).setWidth 64
        rflags := 0
        rstatus := 0
        shadow := Tab.put d.shadow (regHome x a.toNat) (readValue y.spec.fields (d.liveReg s.aon r 0 y (regHome x a.toNat + 4))) } : Dev)))) ∧
    (∀ v x, regAt a.toNat = some x → x.spec.pair = .high → s.dev.busAns r a.toNat true = .ok → x.row.blk ≠ .tahr → x.row.blk ≠ .pwr → x.row.blk ≠ .dir →
      exec (.pairHighWordWrite r a v) s = .next (s.onDev (fun d => ({ d with
        shadow := Tab.del d.shadow (regHome x a.toNat - 4)
        held := Tab.put d.held (regHome x a.toNat - 4) v
        rflags := 0
        rstatus := 0 } : Dev)))) ∧
    (∀ v x, regAt a.toNat = some x → x.spec.pair = .low → s.dev.busAns r a.toNat true = .ok → x.row.blk ≠ .tahr → x.row.blk ≠ .pwr → x.row.blk ≠ .dir →
      exec (.pairLowWordWrite r a v) s = .next (s.onDev (fun d =>
        let h := regHome x a.toNat
        (({ d with shadow := Tab.del d.shadow h, held := Tab.del d.held h } : Dev).pairWrite r x h v ((Tab.find d.held h).getD (d.reg (h + 4)))).flags 0)).settled) ∧
    -- CHAMOIS_8BYTE_PAIR_ACCESS
    (∀ (k : Fin 32) v x, a.toNat % 8 = 0 → regAt a.toNat = some x → x.spec.pair = .low → s.dev.busAns (.cham k) a.toNat true = .ok →
      exec (.chamois8bytePairAccess k a true v) s = .next (s.onDev (fun d =>
        (({ d with held := Tab.del d.held (regHome x a.toNat) } : Dev).pairWrite (.cham k) x (regHome x a.toNat) (BitVec.ofNat 32 v.toNat)
          (BitVec.ofNat 32 (v.toNat / 2 ^ 32))).flags 0)).settled) ∧
    (∀ (k : Fin 32) v x y, a.toNat % 8 = 0 → regAt a.toNat = some x → x.spec.pair = .low → s.dev.busAns (.cham k) a.toNat false ≠ .hole →
      regAt (a.toNat + 4) = some y → x.row.blk ≠ .ts → ∃ t, exec (.chamois8bytePairAccess k a false v) s = .next t ∧
        t = s.onDev (fun d => { d with rdata := t.dev.rdata, rflags := 0, rstatus := 0 }) ∧
        t.dev.rdata.toNat = (readValue x.spec.fields (s.dev.liveReg s.aon (.cham k) 0 x (regHome x a.toNat))).toNat +
          2 ^ 32 * (readValue y.spec.fields (s.dev.liveReg s.aon (.cham k) 0 y (regHome x a.toNat + 4))).toNat) ∧
    -- TEMPO_MIN_READ, ADDR_CLAMP_CNT_READ
    (∀ (i : Fin 32), s.dev.busAns r (R.tempoMin i) false = .ok → exec (.tempoMinRead r i) s = .next (s.onDev (fun d =>
      ({ d.setReg (R.tempoMin i) 0#32 with rdata := (d.reg (R.tempoMin i)).setWidth 64, rflags := 0 } : Dev)))) ∧
    (∀ (j : Fin 19), s.dev.busAns r (R.addrClampCnt j) false = .ok → exec (.addrClampCntRead r j) s = .next (s.onDev (fun d =>
      ({ d.setReg (R.addrClampCnt j) 0#32 with rdata := (d.reg (R.addrClampCnt j)).setWidth 64, rflags := 0 } : Dev))))

/-- R50, R53 to R60, R63: the tempo monitors, the skew of the time-stamps, the dual-clock queues and the clocks. A window that completes
gives the rate, the least rate and, below the threshold, one event; a queue takes an entry where there is room and gives its oldest,
neither while one of its clocks stands or a side of it has been reset; a resynchronisation empties it and reports what it discards.
The dies' counters agree within 4 ns, and TS_SKEW says by how much each leads the Vat die's.
The model's own choices in it: log 5, 69 and 70. -/
def Obligations.TempoAndCrossings : Prop :=
  ∀ (r : Req) (q : Fin 17) (i : BitVec 8) (up : Bool) (s : State),
    (∀ (m : Fin 32) (rate : BitVec 12),
      (s.dev.flag (R.tempoCtrl m) F.tempoCtrl_en = false → exec (.tempoWindowComplete m rate) s = .next s) ∧
      (s.dev.flag (R.tempoCtrl m) F.tempoCtrl_en = true → exec (.tempoWindowComplete m rate) s = .next (s.onDev (fun d =>
        let low := d.fld (R.tempoLow m) F.tempoLow_lowThresh
        let least := d.fld (R.tempoMin m) F.tempoMin_min
        let d := ((d.setFld (R.tempoRate m) F.tempoRate_rate rate.toNat).setFld (R.tempoRate m) F.tempoRate_valid 1).setFld (R.tempoMin m)
          F.tempoMin_min (if least = 0 then rate.toNat else min least rate.toNat)
        if low ≠ 0 ∧ rate.toNat < low then
          (d.setFld (R.tempoStatus m) F.tempoStatus_below 1).count (R.tempoBelow m) (R.tempoStatus m) F.tempoStatus_ovf
        else d))) ∧
      (s.dev.busAns r (R.tempoCtrl m) true = .ok → exec (.tempoClrCount r m) s = .next (s.onDev (fun d => d.setReg (R.tempoBelow m) 0#32)))) ∧
    (∀ d0 d1, ∃ t, exec (.tsSkewCompare d0 d1) s = .next t ∧
      t = s.onDev (fun d => { d with regs := t.dev.regs }) ∧ (∀ a, a ≠ R.tsSkew 0 → a ≠ R.tsSkew 1 → a ≠ R.tsSkew 2 → t.dev.reg a = s.dev.reg a) ∧
      t.dev.fld (R.tsSkew 2) F.tsSkew_skew = 0 ∧
      (∀ j, j < 3 → signedOf 8 (t.dev.fld (R.tsSkew j) F.tsSkew_skew) = (s.dev.tsNow j : Int) - (s.dev.tsNow 2 : Int) ∧
        -4 ≤ signedOf 8 (t.dev.fld (R.tsSkew j) F.tsSkew_skew) ∧ signedOf 8 (t.dev.fld (R.tsSkew j) F.tsSkew_skew) ≤ 4)) ∧
    (∀ e, let x := s.dev.dcq (dcqKey q i.toNat up)
      (s.dev.dcqFrozen q i.toNat up = true ∨ dcqDepth q ≤ x.items.length → exec (.dcqWrite q i up e) s = .next s) ∧
      (s.dev.dcqFrozen q i.toNat up = false → x.items.length < dcqDepth q → ∃ t, exec (.dcqWrite q i up e) s = .next t ∧
        t = s.onDev (fun d => { d with dcqs := t.dev.dcqs }) ∧
        t.dev.dcq (dcqKey q i.toNat up) = { x with items := x.items ++ [e], wr := (x.wr + 1) % (2 * dcqDepth q) } ∧
        (∀ k, k ≠ dcqKey q i.toNat up → t.dev.dcq k = s.dev.dcq k)) ∧
      (x.items = [] ∨ s.dev.dcqFrozen q i.toNat up = true → exec (.dcqRead q i up) s = .next s) ∧
      (∀ rest, x.items = e :: rest → s.dev.dcqFrozen q i.toNat up = false → ∃ t, exec (.dcqRead q i up) s = .next t ∧
        t = s.onDev (fun d => { d with dcqs := t.dev.dcqs, rdata := BitVec.ofNat 64 (leVal (e.take 8)) }) ∧
        t.dev.dcq (dcqKey q i.toNat up) = { x with items := rest, rd := (x.rd + 1) % (2 * dcqDepth q), out := e } ∧
        (∀ k, k ≠ dcqKey q i.toNat up → t.dev.dcq k = s.dev.dcq k))) ∧
    (∀ (dom : Fin 10),
      (∃ t, exec (.clockStop dom i) s = .next t ∧ t = s.onDev (fun d => { d with stopped := t.dev.stopped }) ∧
        ∀ k, k ∈ t.dev.stopped ↔ (k = dom.val * 256 + i.toNat ∧ i.toNat < domCount dom) ∨ k ∈ s.dev.stopped) ∧
      (∃ t, exec (.clockRestart dom i) s = .next t ∧ t = s.onDev (fun d => { d with stopped := t.dev.stopped }) ∧
        ∀ k, k ∈ t.dev.stopped ↔ k ≠ dom.val * 256 + i.toNat ∧ k ∈ s.dev.stopped)) ∧
    ((s.dev.dcq (dcqKey q i.toNat up)).down = false → exec (.queueResync q i up false false) s = .next s.settled) ∧
    (i.toNat < dcqCount q →
      ∀ wr rd, wr = true ∨ rd = true → q ≠ 6 → (q = 3 ∨ q = 4 → (s.dev.dcq (dcqKey q i.toNat up)).items = []) → ∃ u : State, exec (.queueResync q i up wr rd) s = .next u.settled ∧
        u = s.onDev (fun d => { d with dcqs := u.dev.dcqs }) ∧
        (u.dev.dcq (dcqKey q i.toNat up)).items = [] ∧ (u.dev.dcq (dcqKey q i.toNat up)).wr = 0 ∧ (u.dev.dcq (dcqKey q i.toNat up)).rd = 0 ∧
        (u.dev.dcq (dcqKey q i.toNat up)).down = false ∧ (u.dev.dcq (dcqKey q i.toNat up)).lost = (s.dev.dcq (dcqKey q i.toNat up)).items.length ∧
        (∀ k, k ≠ dcqKey q i.toNat up → u.dev.dcq k = s.dev.dcq k))

/-- R28 to R33: the die-to-die links. A good flit next in order enters the receiving queue with what its sender holds for that place; a bad
one is refused, counted, and reported, and stays in the sender's replay buffer;
retraining takes one module of a link at a time, out of service, and its second failure in a row fences the module.
The model's own choices in it: log 17. -/
def Obligations.DieToDieLinks : Prop :=
  ∀ (l : Fin 3) (up : Bool) (m : Fin 16) (s : State),
    let k := l.val * 2 + (if up then 1 else 0)
    let rx := if up then 2 * l.val + 1 else 2 * l.val
    let x := s.dev.d2dDir k
    let ahead := fun (sq : BitVec 16) => (sq.toNat + 65536 - x.next % 65536) % 65536
    let flit := fun (sq : BitVec 16) (vc : BitVec 4) (e : List Byte) =>
      ({ (Tab.find x.replay (x.next + ahead sq)).getD ⟨m, vc.toNat, Dev.flitPayload e⟩ with mdl := m } : D2dFlit)
    let y := s.dev.d2dMod l m
    let count := fun (d : Dev) (e : Nat) => ((d.setFld (R.d2dStatus e) F.d2dStatus_retraining 1).setFld (R.d2dEvt e) F.d2dEvt_retrain 1).count
      (R.d2dRetrainCnt e) (R.d2dEvt e) F.d2dEvt_retrainOvf
    let u := unitId 6 (2 * l.val)
    (∀ sq vc good e, s.dev.d2dUp l m = false → exec (.d2dFlitReceive l up m sq vc good e) s = .next s.settled) ∧
    (∀ sq vc e, s.dev.d2dUp l m = true → sq.toNat = x.next % 65536 → s.dev.dcqFrozen 6 rx up = false →
      (s.dev.dcq (dcqKey 6 rx up)).items.length < 64 →
      let f := flit sq vc e
      exec (.d2dFlitReceive l up m sq vc true e) s = .next (State.settled (s.onDev (fun d =>
        (d.setD2dDir k ⟨x.next + 1, false, Tab.del x.replay x.next⟩).dcqPut 6 rx up (BitVec.ofNat 8 f.vc :: f.payload))))) ∧
    (∀ sq vc e, s.dev.d2dUp l m = true → sq.toNat = x.next % 65536 →
      (s.dev.dcqFrozen 6 rx up = true ∨ 64 ≤ (s.dev.dcq (dcqKey 6 rx up)).items.length) →
      exec (.d2dFlitReceive l up m sq vc true e) s =
        .next (State.settled (s.onDev (fun d => d.setD2dDir k { x with replay := Tab.put x.replay x.next (flit sq vc e) })))) ∧
    (∀ sq vc e, s.dev.d2dUp l m = true → ahead sq < 32768 → exec (.d2dFlitReceive l up m sq vc false e) s = .next (State.settled (s.onDev (fun d =>
      let ts := s.dev.now :: y.replays.filter (fun t => s.dev.now ≤ t + 1000000)
      let d := d.setD2dMod l m { y with replays := ts, due := y.due || decide (16 < ts.length) }
      let d := d.setD2dDir k { x with replay := Tab.put x.replay (x.next + ahead sq) (flit sq vc e), refused := true }
      ((d.count (R.d2dReplayCnt rx) (R.d2dEvt rx) F.d2dEvt_replayOvf).setFld (R.d2dEvt rx) F.d2dEvt_replay 1).raise
        ⟨0, 0x04, unitId 6 rx, unitId 6 rx, 6, 0#64, 1, false, false, none⟩)))) ∧
    (∀ lanes, s.dev.d2dUp l m = true → (∀ i, i < Dev.d2dBuilt l → (s.dev.d2dMod l i).retraining = false) →
      (lanes = true ∨ y.due = true ∨ 0 < y.fails) → exec (.d2dModuleRetrain l m lanes) s = .next (State.settled (s.onDev (fun d =>
        (count (count ((d.setD2dMod l m { y with retraining := true }).d2dRehome l m) (2 * l.val)) (2 * l.val + 1)).raise
          ⟨0, 0x05, u, u, 6, 0#64, 0, false, false, none⟩)))) ∧
    (∀ good, y.retraining = false → exec (.d2dRetrainComplete l m good) s = .next s.settled) ∧
    (y.retraining = true →
      let d := (s.dev.setFld (R.d2dStatus (2 * l.val)) F.d2dStatus_retraining 0).setFld (R.d2dStatus (2 * l.val + 1)) F.d2dStatus_retraining 0
      exec (.d2dRetrainComplete l m true) s = .next (State.settled { s with dev := d.setD2dMod l m D2dMod.reset }) ∧
      (y.fails = 0 → exec (.d2dRetrainComplete l m false) s =
        .next (State.settled { s with dev := d.setD2dMod l m { y with retraining := false, fails := 1 } })) ∧
      (y.fails ≠ 0 → exec (.d2dRetrainComplete l m false) s =
        .next (State.settled { s with dev := (d.setD2dMod l m { y with retraining := false }).d2dFence l m })))

/-- R35, R72, R74, R81, R106 to R108, R283: accesses of a Chamois core. A halted or fenced core makes none; an atomic that is not aligned raises
exception 4 or 6, and a store to tier 3 exception 7; an aligned access to HBM or LPDDR of this node whose lines are ready is made: a
load gives the bytes, a store writes them, an atomic gives the old word and writes the new one, a load-reserve takes a reservation of
its line, a store-conditional writes where the core holds the reservation of that line and answers 0, else it answers 1. The caches of
the core's die hold the line after it. After a fence the core's accesses wait for the replies to its earlier ones, and a release form
waits for them itself.
The model's own choices in it: log 3, 11 and 16. -/
def Obligations.ChamoisAccesses : Prop :=
  ∀ (k : Fin 32) (a : W64) (op : MemOp) (n : Fin 4) (v : W64) (s : State),
    let w := 2 ^ n.val
    let d : Dev := { s.dev with chamExc := Tab.del s.dev.chamExc k }
    let t := addrTier a
    let o := addrOff a
    let run := fun (i : Instr) (u : Dev) => exec i s = .next (State.settled { s with dev := u })
    let outs := s.dev.chamOuts k
    let waits := s.dev.chamHeld k || (op.releases && !outs.isEmpty)
    let ks := d.hereLines t [(o, w)]
    (s.dev.chamRuns k = false → exec (.chamoisMemoryAccess k a op n v) s = .next s.settled) ∧
    (s.dev.chamRuns k = true → exec (.chamoisMemoryAccess k a .fence n v) s =
      .next (State.settled { s with dev := { s.dev with herd := { s.dev.herd with fences := s.dev.herd.fences ++ outs.map (fun i => (k.val, i)) } } })) ∧
    (s.dev.chamRuns k = true → op ≠ .fence → waits = true → exec (.chamoisMemoryAccess k a op n v) s = .next s.settled) ∧
    (s.dev.chamRuns k = true → waits = false → op.atomic = true → 2 ≤ n.val → a.toNat % w ≠ 0 →
      run (.chamoisMemoryAccess k a op n v) { d with chamExc := Tab.put d.chamExc k (if op = .lr ∨ op = .lrAq then 4 else 6) }) ∧
    (s.dev.chamRuns k = true → s.dev.chamHeld k = false → addrNode a = s.dev.nodeId → t = 3 → o + w ≤ s.dev.tierSize 3 →
      run (.chamoisMemoryAccess k a .store n v) { d with chamExc := Tab.put d.chamExc k 7 }) ∧
    (s.dev.chamRuns k = true → waits = false → addrNode a = s.dev.nodeId → (t = 1 ∨ t = 2) → o + w ≤ s.dev.tierSize t → ks.any d.noRoom = false →
      let held := Dev.cacheHere d (k / 16)
      let old := (d.lread t o w).1
      let seen := d.lmeet (unitId 2 k) t o w
      let store := fun (u : Dev) (l : List Byte) => held true ks (u.lwrite t o l)
      let key := memKey (d.resolve t o).1 ((d.resolve t o).2 - (d.resolve t o).2 % 128)
      let answer := fun (u : Dev) (v : Nat) => ({ u with rdata := BitVec.ofNat 64 v, rflags := 0, rstatus := 0 } : Dev)
      (d.lholds t o w false = [] → (d.lread t o w).2 = false →
        (op = .load → run (.chamoisMemoryAccess k a op n v) (answer (held false ks seen) (leVal old))) ∧
        (2 ≤ n.val → a.toNat % w = 0 → (op = .lr ∨ op = .lrAq) → run (.chamoisMemoryAccess k a op n v)
          { answer (held false ks seen) (leVal old) with resv := Tab.put (held false ks seen).resv k (mkAddr s.dev.nodeId t o, key) })) ∧
      (d.lholds t o w true = [] → d.lcanWrite t o w = true →
        (op = .store → run (.chamoisMemoryAccess k a op n v) { store d (leBytes w v.toNat) with rflags := 0, rstatus := 0 }) ∧
        (2 ≤ n.val → a.toNat % w = 0 →
          (∀ b, (op = .sc ∨ op = .scRl) → Tab.find d.resv k = some (b, key) → run (.chamoisMemoryAccess k a op n v)
            { answer (store d (leBytes w v.toNat)) 0 with resv := Tab.del (store d (leBytes w v.toNat)).resv k }) ∧
          ((d.lread t o w).2 = false → ∀ (f : Fin 9) (aq rl : Bool), (op = .amo f ∨ op = .amoOrd f aq rl) → run (.chamoisMemoryAccess k a op n v)
            (answer (store seen (leBytes w (amoVal f w (leVal old) v.toNat))) (leVal old))))) ∧
      (2 ≤ n.val → a.toNat % w = 0 → (op = .sc ∨ op = .scRl) → (∀ b, Tab.find d.resv k ≠ some (b, key)) →
        run (.chamoisMemoryAccess k a op n v) { answer d 1 with resv := Tab.del d.resv k }))

/-- R272, R273: a message that is not the oldest of its channel in its link's receive buffer is not handled: nothing changes.
The model's own choices in it: log 2. -/
def Obligations.MessagesInTurn : Prop :=
  ∀ p ∈ ([(Instr.rd, 0x01), (Instr.rdShared, 0x02), (Instr.rdOwn, 0x03), (Instr.upgrade, 0x04), (Instr.wr, 0x05), (Instr.wrp, 0x06),
      (Instr.wb, 0x07), (Instr.amo, 0x08), (Instr.evict, 0x09), (Instr.lendReq, 0x0A), (Instr.lendFree, 0x0B), (Instr.recall, 0x0C),
      (Instr.data, 0x20), (Instr.dataS, 0x21), (Instr.dataE, 0x22), (Instr.ack, 0x23), (Instr.ackE, 0x24), (Instr.invAck, 0x25),
      (Instr.fwdData, 0x26), (Instr.receipt, 0x27), (Instr.lendGrant, 0x28), (Instr.inv, 0x30), (Instr.fwdS, 0x31), (Instr.fwdI, 0x32),
      (Instr.token, 0x40), (Instr.close, 0x41), (Instr.tokenReply, 0x42), (Instr.hello, 0x50), (Instr.probe, 0x51), (Instr.probeReply, 0x52),
      (Instr.assign, 0x53), (Instr.route, 0x54), (Instr.nodeGone, 0x55)] : List ((Fin 36 → Msg → Instr) × Nat)),
    ∀ (h : Fin 36) (m : Msg) (s : State), s.dev.rxFirst h m p.2 = false → ∃ t, exec (p.1 h m) s = .next t ∧ (t = s ∨ t = s.settled)

/-- R76, R279, R290 to R295 (Table 11-9): the requests of other nodes at their home, each taken off its link with its credits owed, its
address clamped by this home. A line that no one holds gets an entry and is answered with its data; a shared one gains a sharer, or
its other sharers are invalidated before an owner is answered; an owned one is asked back; a BUSY one keeps the request in its queue.
Uncached accesses to lines that are free are performed and answered.
The model's own choices in it: log 40, 53 and 79. -/
def Obligations.HomeRequests : Prop :=
  ∀ (h : Fin 36) (m : Msg) (s : State),
    let p := (s.dev.rxTake h m).arrive m Dev.stay 128
    let d := p.1
    let q := p.2
    let key := d.lineKey q.addr
    let w : DirWait := ⟨q, h⟩
    let line := d.lineBytes key
    let dest := fun (i : Instr) (u : Dev) => exec i s = .next { s with dev := u }
    -- the first request for a line behind one that waits for room, and in a full set
    let evict := fun (v : Nat × DirEnt) (x : Option DirWait) =>
      (d.count (R.dirEvictCnt (Dev.dirDie v.1)) (R.dirEvt (Dev.dirDie v.1)) F.dirEvt_evictOvf).snoop v.1 { v.2 with evicting := true, serving := x } (d.sharers v.2) (if v.2.st = 2 then 0x32 else 0x30)
    let first := fun (i : Instr) (st : Nat) =>
      (∀ v, d.dirEnt key = none → d.roomHolder key = some v → dest i (d.behind v w)) ∧
      (∀ v, d.dirEnt key = none → d.roomHolder key = none → 16 ≤ (d.setOf key).length → d.victim key = some v →
        (d.sharers v.2 ≠ [] → dest i (evict v (some w))) ∧
        (d.sharers v.2 = [] → dest i ((evict v none).enterNow key st w)))
    -- RD_SHARED
    (s.dev.rxFirst h m 2 = true → m.opc = 2 →
      (Dev.cacheable key = false → dest (.rdShared h m) (d.reply q 0x21 0 line.1 line.2)) ∧
      (Dev.cacheable key = true →
        (d.dirEnt key = none → d.roomHolder key = none → (d.setOf key).length < 16 →
          dest (.rdShared h m) (((d.putDir key (d.newEnt 1 m.src)).usedEnt key).reply q 0x21 0 line.1 line.2)) ∧
        first (.rdShared h m) 1 ∧
        (∀ e, d.dirEnt key = some e → e.busy = true → dest (.rdShared h m) (d.behind key w)) ∧
        (∀ e, d.dirEnt key = some e → e.busy = false → e.st = 2 → e.nodes ≠ [] → dest (.rdShared h m) (d.snoop key { e with serving := some w } e.nodes 0x31)) ∧
        (∀ e, d.dirEnt key = some e → e.busy = false → (e.st ≠ 2 ∨ e.nodes = []) →
          dest (.rdShared h m) (((d.addSharer key m.src { e with st := 1 }).usedEnt key).reply q 0x21 0 line.1 line.2)))) ∧
    -- RD_OWN, UPGRADE
    (∀ r ∈ ([(Instr.rdOwn h m, 3), (Instr.upgrade h m, 4)] : List (Instr × Nat)), s.dev.rxFirst h m r.2 = true → m.opc = r.2 →
      (Dev.cacheable key = false → dest r.1 (d.reply q 0x22 0 line.1 line.2)) ∧
      (Dev.cacheable key = true →
        (d.dirEnt key = none → d.roomHolder key = none → (d.setOf key).length < 16 →
          dest r.1 (((d.putDir key (d.newEnt 2 m.src)).usedEnt key).reply q 0x22 0 line.1 line.2)) ∧
        first r.1 2 ∧
        (∀ e, d.dirEnt key = some e → e.busy = true → dest r.1 (d.behind key w)) ∧
        (∀ e, d.dirEnt key = some e → e.busy = false → e.st = 2 → m.src ∈ e.nodes → dest r.1 (d.reply q 0x22 0 line.1 line.2)) ∧
        (∀ e, d.dirEnt key = some e → e.busy = false → e.st = 2 → m.src ∉ e.nodes → e.nodes ≠ [] →
          dest r.1 (d.snoop key { e with serving := some w } e.nodes 0x32)) ∧
        (∀ e, d.dirEnt key = some e → e.busy = false → (e.st ≠ 2 ∨ e.nodes = []) → (e.st = 2 → m.src ∉ e.nodes) → (d.sharers e).filter (· ≠ m.src) ≠ [] →
          dest r.1 (d.snoop key { e with serving := some w } ((d.sharers e).filter (· ≠ m.src)) 0x30)) ∧
        (∀ e, d.dirEnt key = some e → e.busy = false → (e.st ≠ 2 ∨ e.nodes = []) → (d.sharers e).filter (· ≠ m.src) = [] →
          let u := (d.putDir key { e with st := 2, coarse := false, nodes := [m.src], groups := [], loc := 0 }).usedEnt key
          dest r.1 (if e.coarse = false ∧ m.src ∈ e.nodes then u.reply q 0x24 0 [] false else u.reply q 0x22 0 line.1 line.2)))) ∧
    -- EVICT
    (s.dev.rxFirst h m 9 = true → m.opc = 9 →
      (d.dirEnt key = none → dest (.evict h m) d) ∧
      (∀ e, d.dirEnt key = some e → e.busy = true → dest (.evict h m) (d.behind key w)) ∧
      (∀ e, d.dirEnt key = some e → e.busy = false → (e.st ≠ 1 ∨ e.coarse = true) → dest (.evict h m) d) ∧
      (∀ e, d.dirEnt key = some e → e.busy = false → e.st = 1 → e.coarse = false →
        dest (.evict h m) (if e.nodes.all (· == m.src) ∧ e.loc = 0 then d.delDir key else d.putDir key { e with nodes := e.nodes.filter (· ≠ m.src) }))) ∧
    -- WB
    (s.dev.rxFirst h m 7 = true →
      ((d.dirEnt key = none ∨ ∃ e, d.dirEnt key = some e ∧ (e.st ≠ 2 ∨ m.src ∉ e.nodes)) → dest (.wb h m) (d.reply q 0x23 0 [] false)) ∧
      (∀ e, d.dirEnt key = some e → e.st = 2 → m.src ∈ e.nodes → (e.busy = false ∨ m.src ∉ e.await) →
        dest (.wb h m) (((d.lineBack key q).delDir key).reply q 0x23 0 [] false)))

/-- R106, R279, R293, R402: RD, WR, WRP and AMO of another node to memory of this one whose lines no cache holds: a read answers its
16-byte units; a write, where there is room for it, changes its bytes and is acknowledged; an atomic answers the old word and writes
the new one.
The model's own choices in it: log 3, 5 and 79. -/
def Obligations.UncachedRequests : Prop :=
  ∀ (h : Fin 36) (m : Msg) (s : State),
    let here := fun (opc : Nat) (redirect : Nat → Nat) (n : Nat) (wr : Bool) (f : Dev → Msg → Nat → Nat → Prop) =>
      s.dev.rxFirst h m opc = true → m.opc = opc →
      let p := (s.dev.rxTake h m).arrive m redirect n
      let t := addrTier p.2.addr
      let g := Dev.reqRange p.2
      t ≠ 4 → g.1 < p.1.tierSize t → p.1.lholds t g.1 g.2 wr = [] → f p.1 p.2 t (addrOff p.2.addr)
    -- beyond the end of the tier: each word at the word of the last line with the same low 7 bits
    let beyond := fun (opc n : Nat) (f : Dev → Msg → Nat → List (Nat × Nat) → Prop) =>
      s.dev.rxFirst h m opc = true → m.opc = opc →
      let p := (s.dev.rxTake h m).arrive m Dev.stay n
      let t := addrTier p.2.addr
      let g := Dev.reqRange p.2
      let rs := Dev.tailRuns (p.1.tierSize t) 4 g.1 g.2
      t ≠ 4 → p.1.tierSize t ≤ g.1 → (∀ r ∈ rs, p.1.lholds t r.1 r.2 (opc != 1) = []) → f p.1 p.2 t rs
    let dest := fun (i : Instr) (u : Dev) => exec i s = .next { s with dev := u }
    let settled := fun (i : Instr) (u : Dev) => exec i s = .next (State.settled { s with dev := u })
    here 1 Dev.stay (16 * (addrOff m.addr % 16 + 1)) false (fun d q t o =>
      let lo := o - o % 16
      let n := min (16 * (o % 16 + 1)) (256 - lo % 256)
      settled (.rd h m) ((d.lmeet (unitId 7 (dieOf t lo)) t lo n).reply q 0x20 0 (d.lread t lo n).1 (d.lread t lo n).2)) ∧
    beyond 1 (16 * (addrOff m.addr % 16 + 1)) (fun d q t rs =>
      settled (.rd h m) ((rs.foldl (fun d r => d.lmeet (unitId 7 (dieOf t r.1)) t r.1 r.2) d).reply q 0x20 0 (rs.flatMap (fun r => (d.lread t r.1 r.2).1))
        (rs.any (fun r => (d.lread t r.1 r.2).2)))) ∧
    beyond 5 m.data.length (fun d q t rs => m.poison = false → (∀ r ∈ rs, d.lcanWrite t r.1 r.2 = true ∧ ∀ b ∈ pieces r.1 r.2, (d.resolve t b.1).1 ≠ 3) →
      (d.resolve t (Dev.reqRange q).1).1 ≠ 3 →
      let w := d.lastOrder (d.tierSize t) ((Dev.reqRange q).1 + ·) (List.range m.data.length)
      exec (.wr h m) s = .next (State.settled { s with dev := (w.1.foldl (fun d i =>
        d.lwrite t (Dev.lastLine (d.tierSize t) ((Dev.reqRange q).1 + i)) [m.data.getD i 0#8]) w.2).reply q 0x23 0 [] false })) ∧
    here 5 Dev.stay m.data.length true (fun d q t o => m.poison = false → d.lcanWrite t (o - o % 16) m.data.length = true →
      (∀ b ∈ pieces (o - o % 16) m.data.length, (d.resolve t b.1).1 ≠ 3) → (d.resolve t (o - o % 16)).1 ≠ 3 →
      exec (.wr h m) s = .next (State.settled { s with dev := (d.lwrite t (o - o % 16) m.data).reply q 0x23 0 [] false })) ∧
    here 6 Dev.stay 16 true (fun d q t o => m.poison = false → d.lcanWrite t (o - o % 16) 16 = true →
      (∀ b ∈ pieces (o - o % 16) 16, (d.resolve t b.1).1 ≠ 3) →
      let mask := leVal (m.data.take 2)
      exec (.wrp h m) s = .next (State.settled { s with dev := ((List.range 16).foldl (fun d i =>
        if mask.testBit i then d.lwrite t (o - o % 16 + i) [m.data.getD (16 + i) 0#8] else d) d).reply q 0x23 0 [] false })) ∧
    here 8 Dev.noT34 8 true (fun d q t o => d.lcanWrite t (o - o % 8) 8 = true →
      (∀ b ∈ pieces (o - o % 8) 8, (d.resolve t b.1).1 ≠ 3) →
      let old := d.lread t (o - o % 8) 8
      dest (.amo h m) (if old.2 then d.reply q 0x20 0 (List.replicate 16 0#8) true
        else (d.lwrite t (o - o % 8) (leBytes 8 (Dev.amoMsg (leVal old.1) m.data))).reply q 0x20 0 (old.1 ++ List.replicate 8 0#8) false))

/-- R255, R256, R299: lending. A lender answers LEND_REQ with a segment or with status 3 (whether, and what, is free, log 39), frees what
LEND_FREE returns, and a borrower acknowledges RECALL.
The model's own choices in it: log 39. -/
def Obligations.Lending : Prop :=
  ∀ (h : Fin 36) (m : Msg) (s : State), let d := s.dev.rxTake h m
    (s.dev.rxFirst h m 0x0A = true → ∃ (u : State) (st t off : Nat), exec (.lendReq h m) s = .next u ∧ (st = 0 ∨ st = 3) ∧
      (∃ e : Dev, u = { s with dev := e.reply m 0x28 st (leBytes 8 t ++ leBytes 8 off) false } ∧ e.ctxs = s.dev.ctxs ∧
        (st = 3 → e.tier = s.dev.tier ∧ e.mem = s.dev.mem ∧ t = 0 ∧ off = 0) ∧
        (st = 0 → (t = 1 ∨ t = 2) ∧ ∃ o b, Tab.find e.tier.objs o = some b ∧ b.kind = .lent ∧ b.tier = t ∧ b.base = off ∧ b.size = 2 ^ 30 ∧
          Tab.find e.herd.lentTo o = some m.src))) ∧
    (s.dev.rxFirst h m 0x0B = true →
      (d.objAt (addrTier m.addr) (addrOff m.addr) = none → exec (.lendFree h m) s = .next { s with dev := d.reply m 0x23 0 [] false }) ∧
      (∀ i o, d.objAt (addrTier m.addr) (addrOff m.addr) = some (i, o) → Tab.find d.herd.lentTo i = some m.src →
        let v : Dev := { d with herd := { d.herd with lentTo := Tab.del d.herd.lentTo i } }
        exec (.lendFree h m) s = .next { s with dev := (v.freeObj i).reply m 0x23 0 [] false }) ∧
      (∀ i o, d.objAt (addrTier m.addr) (addrOff m.addr) = some (i, o) → Tab.find d.herd.lentTo i ≠ some m.src →
        exec (.lendFree h m) s = .next { s with dev := d.reply m 0x23 0 [] false })) ∧
    (s.dev.rxFirst h m 0x0C = true → (∀ g ∈ d.tier.segs, ¬ (g.2.node = m.src ∧ g.2.tier = addrTier m.addr ∧
        g.2.offset = addrOff m.addr - addrOff m.addr % 2 ^ 30 ∧ g.2.leaving = false)) →
      exec (.recall h m) s = .next (State.settled { s with dev := d.reply m 0x23 0 [] false })) ∧
    (s.dev.rxFirst h m 0x0C = true → ∀ i g, (d.reply m 0x23 0 [] false).tier.segs.find? (fun q => q.2.node == m.src &&
        q.2.tier == addrTier m.addr && q.2.offset == alignDown (addrOff m.addr) (2 ^ 30) && !q.2.leaving) = some (i, g) →
      (∀ n, n ≠ d.nodeId → n ≠ m.src → d.routeLinks n = []) →
      let u := d.reply m 0x23 0 [] false
      let v : Dev := { u with tier := { u.tier with segs := Tab.put u.tier.segs i { g with leaving := true } } }
      exec (.recall h m) s = .next (State.settled { s with dev := v.emptySeg i }))

/-- R143, R280, R293, R299: replies. One whose TAG names no request of this device to its sender is discarded and counted by the die of the
TAG; else the request is over: a load's register takes the data and its context goes on, a store's acknowledgement changes nothing
else, a line of another node is held as it was asked for, a segment that was lent is mapped.
The model's own choices in it: log 43 and 79. -/
def Obligations.Replies : Prop :=
  ∀ (h : Fin 36) (m : Msg) (s : State), let d := s.dev.rxTake h m
    let dest := fun (i : Instr) (u : Dev) => exec i s = .next (State.settled { s with dev := u })
    let asked := fun (o : OutReq) => Tab.find d.herd.outs m.tag = some o ∧ o.node = m.src
    (∀ r ∈ ([(Instr.data, 0x20), (Instr.dataS, 0x21), (Instr.dataE, 0x22), (Instr.ack, 0x23), (Instr.ackE, 0x24), (Instr.lendGrant, 0x28)] :
        List ((Fin 36 → Msg → Instr) × Nat)), s.dev.rxFirst h m r.2 = true →
      (Tab.find d.herd.outs m.tag = none ∨ (∃ o, Tab.find d.herd.outs m.tag = some o ∧ o.node ≠ m.src)) →
      dest (r.1 h m) (d.count (R.dirLateCnt (m.tag / 32768)) (R.dirEvt (m.tag / 32768)) F.dirEvt_lateOvf)) ∧
    -- DATA answers a scalar load
    (∀ o c sd width off x tg n, s.dev.rxFirst h m 0x20 = true → asked o → o.kind = .load c sd width off → m.poison = false → m.clamped = false →
      s.dev.ctx? c = some x → x.wait = .remote tg n → x.slots = [] → x.st ≠ .replyWait →
      exec (.data h m) s = .next (State.settled (({ s with dev := d.outDel m.tag } : State).putCtx c
        (({ x.setS sd (BitVec.ofNat 64 (leVal ((m.data.drop off).take width))) with wait := .none } : Ctx).executed s.dev.now 0 n)))) ∧
    (∀ o c sd width off, s.dev.rxFirst h m 0x20 = true → asked o → o.kind = .load c sd width off → m.poison = true →
      dest (.data h m) ((((d.outDel m.tag).abortTask c 0 0 o.addr).slotMark c m.tag (some m.data)).replyWaitEnd c)) ∧
    -- DATA_S, DATA_E and ACK_E answer a Chamois core's line
    (∀ o n own, asked o → o.kind = .chamLine n own → m.poison = false →
      let line := o.addr.toNat / 128
      let held := fun (st : Nat) => ({ d.outDel m.tag with herd := { (d.outDel m.tag).herd with cache := Tab.put d.herd.cache line ⟨st, m.data, false⟩ } } : Dev)
      (s.dev.rxFirst h m 0x21 = true → m.opc = 0x21 → dest (.dataS h m) (held 1)) ∧
      (s.dev.rxFirst h m 0x22 = true → m.opc = 0x22 → dest (.dataE h m) (held 2)) ∧
      (s.dev.rxFirst h m 0x24 = true → m.opc = 0x24 → dest (.ackE h m)
        ({ d.outDel m.tag with herd := { (d.outDel m.tag).herd with cache := Tab.modify d.herd.cache line (fun l => { l with st := 2 }) } }))) ∧
    -- ACK answers a store
    (∀ o c pc, s.dev.rxFirst h m 0x23 = true → asked o → o.kind = .store c pc → m.clamped = false →
      (∀ x, s.dev.ctx? c = some x → x.clamps = 0) →
      dest (.ack h m) (((d.outDel m.tag).slotMark c m.tag (some m.data)).replyWaitEnd c) ∧
      ((∀ x, s.dev.ctx? c = some x → x.slots = [] ∧ x.st ≠ .replyWait) → dest (.ack h m) (d.outDel m.tag))) ∧
    -- LEND_GRANT
    (∀ o i, s.dev.rxFirst h m 0x28 = true → asked o → o.kind = .lend i → Tab.find d.tier.segs i = none →
      (bits64 m.addr 0 8 ≠ 0 → dest (.lendGrant h m) (d.outDel m.tag)) ∧
      (bits64 m.addr 0 8 = 0 →
        let e := d.outDel m.tag
        let u : Dev := { e with tier := { e.tier with
          segs := Tab.put e.tier.segs i ⟨m.src, leVal (m.data.take 1) % 8, leVal ((m.data.drop 8).take 8), false, false, []⟩ } }
        dest (.lendGrant h m) u.winSize.retryWaits))

/-- R292, R293, R295: snoops, both ways. An INV drops this node's copy and is acknowledged whether or not it was held; a forward is answered
with the owned line, which stays as a shared one or is dropped, or with no data. At a home an answer that is not the last leaves the line
BUSY, the last one ends the wait; data that comes back with no one waiting is written to memory.
The model's own choices in it: log 53 and 79. -/
def Obligations.Snoops : Prop :=
  ∀ (h : Fin 36) (m : Msg) (s : State), let d := s.dev.rxTake h m
    let dest := fun (i : Instr) (u : Dev) => exec i s = .next { s with dev := u }
    let line := m.addr.toNat / 128
    (s.dev.rxFirst h m 0x30 = true →
      let u : Dev := { d with
        herd := { d.herd with cache := Tab.del d.herd.cache line }
        resv := d.resv.filter (fun p => p.2.2 != 2 ^ 60 + line) }
      dest (.inv h m) (u.reply m 0x25 0 [] false)) ∧
    (∀ r ∈ ([(Instr.fwdS, 0x31), (Instr.fwdI, 0x32)] : List ((Fin 36 → Msg → Instr) × Nat)), s.dev.rxFirst h m r.2 = true →
      (Tab.find d.herd.cache line = none → dest (r.1 h m) (d.reply m 0x26 0 [] false)) ∧
      (∀ l, Tab.find d.herd.cache line = some l → l.st ≠ 2 → dest (r.1 h m) (d.reply m 0x26 0 [] false)) ∧
      (∀ l, Tab.find d.herd.cache line = some l → l.st = 2 →
        let kept : Dev := { d with herd := { d.herd with cache := Tab.put d.herd.cache line { l with st := 1, dirty := false } } }
        dest (r.1 h m) ((if r.2 = 0x31 then kept else d.dropFar line).reply m 0x26 0 l.data false))) ∧
    -- INV_ACK, FWD_DATA
    (s.dev.rxFirst h m 0x25 = true → d.takeSnp m = none → dest (.invAck h m) (d.late (m.tag / 32768))) ∧
    (∀ t u e, s.dev.rxFirst h m 0x25 = true → d.takeSnp m = some (t, u) → u.dirEnt t.line = some e → e.busy = true → m.src ∈ e.await →
      e.await.filter (· ≠ m.src) ≠ [] →
      dest (.invAck h m) (u.putDir t.line { e with await := e.await.filter (· ≠ m.src), nodes := e.nodes.filter (· ≠ m.src) })) ∧
    (∀ t u e, s.dev.rxFirst h m 0x25 = true → d.takeSnp m = some (t, u) → u.dirEnt t.line = some e → e.busy = true → m.src ∈ e.await →
      e.await.filter (· ≠ m.src) = [] →
      dest (.invAck h m) ((u.putDir t.line { e with await := [], nodes := e.nodes.filter (· ≠ m.src), coarse := false, groups := [] }).dirDone t.line)) ∧
    (∀ t u e, s.dev.rxFirst h m 0x25 = true → d.takeSnp m = some (t, u) → u.dirEnt t.line = some e → (e.busy = false ∨ m.src ∉ e.await) →
      dest (.invAck h m) u) ∧
    (s.dev.rxFirst h m 0x26 = true → d.takeSnp m = none → 
      -- only the answer that a WB has overtaken is ignored
      dest (.fwdData h m) (if m.data = [] ∧ (m.src, m.tag) ∈ d.herd.raced
        then { d with herd := { d.herd with raced := d.herd.raced.filter (· != (m.src, m.tag)) } } else d.late (m.tag / 32768))) ∧
    (∀ t u, s.dev.rxFirst h m 0x26 = true → d.takeSnp m = some (t, u) → m.data = [] → dest (.fwdData h m) (u.dirAck t.line m.src true)) ∧
    (∀ t u e, s.dev.rxFirst h m 0x26 = true → d.takeSnp m = some (t, u) → m.data ≠ [] → u.dirEnt t.line = some e →
      (t.opc = 0x31 → e.drop = false → dest (.fwdData h m) ((u.lineBack t.line m).dirAck t.line m.src false)) ∧
      -- a line that has been set to 0 meanwhile leaves its owner too
      (t.opc = 0x31 → e.drop = true → dest (.fwdData h m) (u.snoop t.line { e with drop := false } [m.src] 0x30)) ∧
      (t.opc = 0x32 → e.serving = none → dest (.fwdData h m) ((u.lineBack t.line m).dirAck t.line m.src true)) ∧
      (∀ w, t.opc = 0x32 → e.serving = some w → e.evicting = false → (w.msg.opc = 3 ∨ w.msg.opc = 4) → e.drop = false → e.queue = [] →
        let e' := { e with st := 2, nodes := [w.msg.src], busy := false, await := [], serving := none }
        let v := ((u.putDir t.line e').reply w.msg 0x22 0 m.data m.poison).usedEnt t.line
        dest (.fwdData h m) (v.putDir t.line { e' with queue := [], used := v.herd.lru })))

/-- R301 to R308: tokens at their home and at their sender. A token of an expert that is not placed here is returned NOT_COMPUTED by its
receipt; one that lands waits for a gather; a CLOSE counts towards its round and the last closes it, and one for a round that is over is
a protocol error; receipts and replies find the token that they name, or are late; timers close rounds, return what has not been
served and give up replies.
The model's own choices in it: log 38, 41 and 55. -/
def Obligations.Tokens : Prop :=
  ∀ (h : Fin 36) (m : Msg) (s : State), let d := s.dev.rxTake h m
    let dest := fun (i : Instr) (u : Dev) => exec i s = .next { s with dev := u }
    let f := TokFld.of m.addr
    let receipt := fun (u : Dev) (nc : Bool) =>
      (u.send none ⟨0x27, m.src, u.nodeId, m.tag, false, false, ({ f with nc := nc } : TokFld).word, []⟩).2
    -- TOKEN
    (s.dev.rxFirst h m 0x40 = true → d.expertOf f.expert = none → dest (.token h m) (receipt d true)) ∧
    (∀ e b r, s.dev.rxFirst h m 0x40 = true → d.expertOf f.expert = some e → f.replica ≤ e.nrep → e.nodes.getD f.replica 0 = d.nodeId →
      (d.groupOf e.group).dead = false → Tab.find d.herd.bound f.expert = some b → d.roundOld e.group m.tag = false →
      r ∈ d.herd.rounds → r.group = e.group → r.round = m.tag →
      d.herd.rounds.find? (fun r => r.group == e.group && r.round == m.tag) = some r →
      let i := 4 * f.expert + f.replica
      (e.cap ≤ Tab.getD r.taken i 0 → dest (.token h m) (receipt (d.countNc f.expert) true)) ∧
      (Tab.getD r.taken i 0 < e.cap →
        let u : Dev := { d with herd := { d.herd with
          rounds := d.herd.rounds.map (fun q => if q.group = e.group ∧ q.round = m.tag
            then { q with taken := Tab.put q.taken i (Tab.getD r.taken i 0 + 1) } else q)
          tokIn := d.herd.tokIn ++ [⟨e.group, m.tag, f.expert, m.src, f.ctx, f.token, f.replica, m.data, m.poison, false⟩] } }
        dest (.token h m) (receipt u.tokWake false))) ∧
    -- CLOSE
    (s.dev.rxFirst h m 0x41 = true → d.roundOld (f.token % 256) m.tag = true → dest (.close h m) (d.protoErr h)) ∧
    (∀ r, s.dev.rxFirst h m 0x41 = true → d.roundOld (f.token % 256) m.tag = false → r ∈ d.herd.rounds → r.group = f.token % 256 → r.round = m.tag →
      let g := f.token % 256
      let u : Dev := { d with herd := { d.herd with
        rounds := d.herd.rounds.map (fun q => if q.group = g ∧ q.round = m.tag then { q with closes := q.closes + 1 } else q) } }
      dest (.close h m) (if u.herd.rounds.any (fun q => q.group == g && q.round == m.tag && decide ((d.groupOf g).p ≤ q.closes))
        then u.closeRound g m.tag else u)) ∧
    -- RECEIPT
    (s.dev.rxFirst h m 0x27 = true → d.tokSent f = none → dest (.receipt h m) (d.late (d.ctxDie f.ctx))) ∧
    (∀ t, s.dev.rxFirst h m 0x27 = true → d.tokSent f = some t → t.st = 1 → dest (.receipt h m) (d.late (d.ctxDie f.ctx))) ∧
    (∀ t, s.dev.rxFirst h m 0x27 = true → d.tokSent f = some t → t.st = 0 → f.nc = false →
      dest (.receipt h m) ((d.setSent f (some 1)).receiptsIn t.ctx t.send)) ∧
    (∀ t, s.dev.rxFirst h m 0x27 = true → d.tokSent f = some t → t.st = 0 → f.nc = true →
      dest (.receipt h m) ((((d.setSent f none).pushBack f.ctx (Dev.tokHeader f.token f.expert 5 m.src f.ctx) [] t.bytes).receiptsIn t.ctx t.send).tokWake)) ∧
    -- TOKEN_REPLY
    (s.dev.rxFirst h m 0x42 = true → d.tokSent f = none → dest (.tokenReply h m) (d.late (d.ctxDie f.ctx))) ∧
    (∀ t, s.dev.rxFirst h m 0x42 = true → d.tokSent f = some t → t.st ≠ 2 →
      dest (.tokenReply h m) ((d.setSent f (if t.st = 0 then some 2 else none)).pushBack f.ctx
        (Dev.tokHeader f.token f.expert (if f.nc then 5 else 0) m.src f.ctx) (if f.nc then [] else m.data.take t.bytes) t.bytes (m.poison && !f.nc)).tokWake) ∧
    -- ROUND_TIMER, SERVE_TIMER, REPLY_TIMER, DIR_GRP_RESET
    (∀ (g : BitVec 8) (rd : BitVec 32), let n := rd.toNat % 65536
      exec (.roundTimer g rd) s = .next (s.onDev (fun d => Dev.tokWake { d with herd := { d.herd with
        rounds := d.herd.rounds.map (fun r => if r.group = g.toNat ∧ r.round = n then { r with closed := true } else r) } })) ∧
      (s.dev.roundClosed g.toNat n = false → exec (.serveTimer g rd) s = .next s) ∧
      (s.dev.roundClosed g.toNat n = true → exec (.serveTimer g rd) s = .next (s.onDev (fun d =>
        let hit := fun (t : TokIn) => t.group == g.toNat && t.round == n
        let u : Dev := { d with herd := { d.herd with tokIn := d.herd.tokIn.filter (fun t => !hit t) } }
        ((d.herd.tokIn.filter hit).foldl (fun d t => d.sendReturn t true []) u).tokWake)))) ∧
    (∀ (c : BitVec 12) (tok : BitVec 32) (ex : BitVec 16), let f : TokFld := ⟨tok.toNat, ex.toNat, c.toNat, false, 0⟩
      (s.dev.tokSent f = none → exec (.replyTimer c tok ex) s = .next s) ∧
      (∀ t, s.dev.tokSent f = some t → t.st ≠ 1 → exec (.replyTimer c tok ex) s = .next s) ∧
      (∀ t, s.dev.tokSent f = some t → t.st = 1 → exec (.replyTimer c tok ex) s = .next (s.onDev (fun d =>
        let die := match d.ctx? c.toNat with | some x => x.core / 32 | none => 0
        let d := d.count (R.dirToklostCnt die) (R.dirEvt die) F.dirEvt_toklostOvf
        ((d.setSent f none).pushBack c.toNat (Dev.tokHeader tok.toNat ex.toNat 5 t.node c.toNat) [] t.bytes).tokWake)))) ∧
    (∀ (r : Req) (g : BitVec 8), s.dev.busAns r R.dirGrpReset true = .ok → exec (.dirGrpReset r g) s = .next (s.onDev (fun d =>
      { d with herd := { d.herd with
        roundCtr := d.herd.roundCtr.filter (fun t => t.1 % 256 != g.toNat)
        rounds := d.herd.rounds.filter (fun r => r.group != g.toNat) } })))

/-- R270 to R273, R275 to R277, R284, R309 (Table 11-3): a Herd link. What arrives is dropped on a link that carries nothing and refused with
one NAK where its CRC or sequence is wrong; a flit in turn is counted, acknowledged and parsed; a NAK makes every later flit go again;
what is sent is a NAK that is due, a flit that goes again, a new one, or IDLE. Every event moves the link's state as the table says and
leaves a link in any other state as it is.
The model's own choices in it: log 5, 37 and 79. -/
def Obligations.HerdLinks : Prop :=
  ∀ (h : Fin 36) (s : State), let d := s.dev
    let l := d.link h
    let dest := fun (i : Instr) (u : Dev) => exec i s = .next (State.settled { s with dev := u })
    let is := fun (i : Instr) (u : Dev) => exec i s = .next { s with dev := u }
    let live := d.linkSt h = 2 ∨ d.linkSt h = 3
    let recent := fun (ts : List Nat) => ts.filter (fun t => d.now ≤ t + 1000000)
    let refused := fun (u : Dev) => u.modLink h (fun l => if l.nakOut then l else { l with nakDue := true })
    -- flits
    (∀ e, ¬ live → dest (.herdFlitReceive h e) d) ∧
    (∀ e : List Byte, live → e.length = 256 → leVal (e.drop 248) ≠ crc64 (e.take 248) →
      let v := (d.choose 2).2
      dest (.herdFlitReceive h e) (refused v) ∨
      dest (.herdFlitReceive h e) (refused ((v.count (R.hlFecUncorrCnt h) (R.hlEvt h) F.hlEvt_uncorrOvf).modLink h (fun l =>
        { l with uncorrs := v.now :: l.uncorrs.filter (fun t => v.now ≤ t + 1000000) })))) ∧
    (∀ e ft sq ack cvc cred pay, live → ft < 3 → sq < 4096 → ack < 4096 → cvc < 8 → cred < 256 → pay.length = 242 →
      e = flit ft sq ack cvc cred pay →
      let u := d.modLink h (fun l =>
        let l := Dev.ackTo l ack
        if cvc < 5 then { l with credits := Tab.put l.credits cvc (Tab.getD l.credits cvc 0 + cred) } else l)
      (ft = 0 → dest (.herdFlitReceive h e) u) ∧
      (ft = 2 → dest (.herdFlitReceive h e) (u.nakTake h ack)) ∧
      (ft = 1 → sq = (l.rxSeq + 1) % 4096 → l.rxPart = [] → pay.head? = some 0#8 →
        dest (.herdFlitReceive h e)
          (((u.modLink h (fun l => { l with rxSeq := (l.rxSeq + 1) % 4096, nakOut := false, nakDue := false })).addPair (R.hlRxflitLo h) 1 (R.hlEvt h)
            F.hlEvt_flitsWrap).modLink h (fun l => { l with rxPart := [] }))) ∧
      (ft = 1 → sq ≠ (l.rxSeq + 1) % 4096 → dest (.herdFlitReceive h e) (refused u))) ∧
    (∀ ack : BitVec 12, ¬ live → dest (.herdNakReceive h ack) d) ∧
    (∀ ack : BitVec 12, live → dest (.herdNakReceive h ack) (d.nakTake h ack.toNat)) ∧
    is (.herdNakRepeat h) (d.modLink h (fun l => { l with nakDue := l.nakDue || l.nakOut })) ∧
    (¬ live ∨ d.devFatal = true → is (.herdLinkTransmit h) d) ∧
    (live → d.devFatal = false → l.owed = [] →
      let put := fun (u : Dev) (ft sq : Nat) (pay : List Byte) => u.modLink h (fun k => { k with wire := flit ft sq k.rxSeq 7 0 pay })
      let count := fun (u : Dev) => u.addPair (R.hlTxflitLo h) 1 (R.hlEvt h) F.hlEvt_flitsWrap
      (l.nakDue = true → is (.herdLinkTransmit h) (put (d.modLink h (fun l => { l with nakDue := false, nakOut := true })) 2 0 [])) ∧
      (∀ f, l.nakDue = false → l.resend ≠ 0 → l.replay[l.replay.length - l.resend]? = some f →
        is (.herdLinkTransmit h) (count (put (d.modLink h (fun l => { l with resend := l.resend - 1 })) 1 f.seq f.payload))) ∧
      (l.nakDue = false → l.resend = 0 → l.tx = [] → l.txPart = [] → is (.herdLinkTransmit h) (put d 0 0 [])) ∧
      (l.nakDue = false → l.resend = 0 → 242 ≤ l.txPart.length → l.replay.length < 512 →
        is (.herdLinkTransmit h) (count (put (d.modLink h (fun l => { l with
          replay := l.replay ++ [⟨l.txSeq, l.txPart.take 242⟩], txPart := l.txPart.drop 242, txSeq := (l.txSeq + 1) % 4096 })) 1 l.txSeq (l.txPart.take 242))))) ∧
    -- states
    (let u := d.modLink h (fun l => { l with signal := true })
     (d.linkSt h = 0 → d.flag (R.hlCtrl h) F.hlCtrl_disable = false → is (.hlSignalDetect h) (u.setLinkSt h 1)) ∧
     (d.linkSt h ≠ 0 ∨ d.flag (R.hlCtrl h) F.hlCtrl_disable = true → is (.hlSignalDetect h) u)) ∧
    (let u := d.modLink h (fun l => { l with signal := false })
     (d.linkSt h = 1 ∨ d.linkSt h = 2 → is (.hlSignalLoss h) (u.linkDown h)) ∧
     (d.linkSt h ≠ 1 → d.linkSt h ≠ 2 → is (.hlSignalLoss h) u)) ∧
    (d.linkSt h = 1 → is (.hlTrainingComplete h)
      (((d.setLinkSt h 2).setFld (R.hlState h) F.hlState_fecLock 1).modLink h (fun l => { l with resend := l.replay.length }))) ∧
    (d.linkSt h ≠ 1 → is (.hlTrainingComplete h) d ∧ is (.hlTrainingTimeout h) d) ∧
    (d.linkSt h = 1 → is (.hlTrainingTimeout h) (d.setLinkSt h 0)) ∧
    (d.linkSt h = 0 → l.signal = true → d.flag (R.hlCtrl h) F.hlCtrl_disable = false → is (.hlTrainingRetry h) (d.setLinkSt h 1)) ∧
    (d.linkSt h ≠ 0 ∨ l.signal = false ∨ d.flag (R.hlCtrl h) F.hlCtrl_disable = true → is (.hlTrainingRetry h) d) ∧
    (∀ lost, d.linkSt h = 3 → lost = true ∨ 32 < (recent l.replays).length ∨ 16 < (recent l.uncorrs).length → dest (.hlRetrainEnter h lost) (d.retrain h lost)) ∧
    (∀ lost, d.linkSt h ≠ 3 ∨ (lost = false ∧ (recent l.replays).length ≤ 32 ∧ (recent l.uncorrs).length ≤ 16) → dest (.hlRetrainEnter h lost) d) ∧
    (d.linkSt h = 4 → is (.hlRetrainComplete h)
      (((d.setLinkSt h 3).setFld (R.hlState h) F.hlState_fecLock 1).modLink h (fun l => { l with fails := 0, resend := l.replay.length }))) ∧
    (d.linkSt h ≠ 4 → is (.hlRetrainComplete h) d ∧ dest (.hlRetrainTimeout h) d) ∧
    (d.linkSt h = 4 → l.fails = 0 → dest (.hlRetrainTimeout h) ((d.modLink h (fun l => { l with fails := 1 })).retrain h false)) ∧
    (d.linkSt h = 4 → l.fails ≠ 0 → l.replay = [] → dest (.hlRetrainTimeout h)
      ((((d.fenceLink h).modLink h (fun l => { l with replay := [], resend := 0, txPart := [], fails := 0 })).reroute h).raise
        ⟨0, 0x06, unitId 5 h, unitId 5 h, 6, 0#64, 0, false, false, none⟩)) ∧
    (∀ r, d.busAns r (R.hlCtrl h) true = .ok →
      (let u := d.setFld (R.hlCtrl h) F.hlCtrl_disable 1
       is (.hlDisable r h true) (if u.linkSt h = 5 then u else u.linkDown h)) ∧
      is (.hlDisable r h false) ((d.setFld (R.hlCtrl h) F.hlCtrl_disable 0).train h))

/-- R143, R210, R234, R235, R257, R280, R296, R297: what a silent node costs. A request that was not answered gives up its tag, guards it and
ends for its requester as that requester's rule says; a guard runs out; a snoop goes again on another link, then the node is cut off and
DIR_CUT counted; a node with no route is given up; a reply kept for a saved context lands in its slot.
The model's own choices in it: log 38, 43 and 65. -/
def Obligations.HerdTimeouts : Prop :=
  ∀ (s : State), let d := s.dev
    let dest := fun (i : Instr) (u : Dev) => exec i s = .next (State.settled { s with dev := u })
    let is := fun (i : Instr) (u : Dev) => exec i s = .next { s with dev := u }
    (∀ tag : BitVec 16,
      (Tab.find d.herd.outs tag.toNat = none → dest (.herdRequestTimeout tag) d) ∧
      (∀ o, Tab.find d.herd.outs tag.toNat = some o → tag.toNat ∉ d.herd.guarded →
        let v := (d.outDel tag.toNat).dropNode o.node
        let u : Dev := { v with herd := { v.herd with guarded := v.herd.guarded ++ [tag.toNat] } }
        (∀ n own, o.kind = .chamLine n own →
          dest (.herdRequestTimeout tag) { u with chamExc := Tab.put u.chamExc n (if own then 7 else 5) }) ∧
        (∀ n, o.kind = .chamSt n → dest (.herdRequestTimeout tag) { u with chamExc := Tab.put u.chamExc n 7 }) ∧
        (∀ c sd width off x, o.kind = .load c sd width off → u.ctx? c = some x →
          dest (.herdRequestTimeout tag) (if u.isRes c x then u.abortTask c 1 0 o.addr else (u.slotMark c tag.toNat none).replyWaitEnd c)) ∧
        (∀ c pc x, o.kind = .store c pc → u.ctx? c = some x →
          dest (.herdRequestTimeout tag) (if u.isRes c x then u.abortTask c 1 0 o.addr else (u.slotMark c tag.toNat none).replyWaitEnd c))) ∧
      is (.tagReuseGuard tag) { d with herd := { d.herd with guarded := d.herd.guarded.filter (· ≠ tag.toNat) } }) ∧
    (∀ (n : BitVec 12) (a : W64), let key := d.lineKey a
      let hit := fun (t : Snp) => t.node == n.toNat && t.line == key
      ((∀ t ∈ d.herd.snps, t.node = n.toNat → t.line = key → t.resent = true) → is (.snpResend n a) d) ∧
      (∀ t, d.herd.snps.find? (fun t => hit t && !t.resent) = some t →
        let u : Dev := { d with herd := { d.herd with snps := d.herd.snps.map (fun t => if hit t then { t with resent := true } else t) } }
        let m : Msg := ⟨t.opc, n.toNat, d.nodeId, t.tag, false, false, d.lineAddr key, []⟩
        (∀ l, (u.routeLinks n.toNat).find? (fun h => some h != u.pickLink m) = some l →
          is (.snpResend n a) ((u.count (R.dirInvCnt (Dev.dirDie key)) (R.dirEvt (Dev.dirDie key)) F.dirEvt_invOvf).pushTx l none m)) ∧
        ((u.routeLinks n.toNat).find? (fun h => some h != u.pickLink m) = none → is (.snpResend n a) u)) ∧
      ((∀ t ∈ d.herd.snps, t.node = n.toNat → t.line ≠ key) → is (.snpCutoff n a) d) ∧
      ((∃ t ∈ d.herd.snps, t.node = n.toNat ∧ t.line = key) → (∀ e ∈ d.herd.dir, n.toNat ∉ e.2.nodes ∧ n.toNat ∉ e.2.await) →
        let die := Dev.dirDie key
        let u := (d.count (R.dirCutCnt die) (R.dirEvt die) F.dirEvt_cutOvf).setFld (R.dirEvt die) F.dirEvt_cut 1
        let v := if u.flag (R.dirCutInfo die) F.dirCutInfo_valid then u
          else u.setFlds (R.dirCutInfo die) [(F.dirCutInfo_valid, 1), (F.dirCutInfo_node, n.toNat)]
        is (.snpCutoff n a) { v with herd := { v.herd with cut := n.toNat :: v.herd.cut, snps := v.herd.snps.filter (fun t => t.node != n.toNat), raced := v.herd.raced.filter (fun r => r.1 != n.toNat) } }) ∧
      (d.routeLinks n.toNat = [] → is (.routeLoss n) ((d.dropNode n.toNat).lenderGone n.toNat)) ∧
      (d.routeLinks n.toNat ≠ [] → is (.routeLoss n) d)) ∧
    (∀ (c : BitVec 12) (i : BitVec 9) (good : Bool) (e : List Byte),
      (d.ctx? c.toNat = none → dest (.capturedReplyLand c i good e) d) ∧
      (∀ x, d.ctx? c.toNat = some x → x.slots[i.toNat]? = none → dest (.capturedReplyLand c i good e) d) ∧
      (∀ x t, d.ctx? c.toNat = some x → x.slots[i.toNat]? = some t → Dev.Slot.pending t = false → dest (.capturedReplyLand c i good e) d) ∧
      (∀ x t, d.ctx? c.toNat = some x → x.slots[i.toNat]? = some t → Dev.Slot.pending t = true → Tab.find d.herd.outs t.tag = none →
        dest (.capturedReplyLand c i good e) ((d.slotMark c.toNat t.tag (if good then some e else none)).replyWaitEnd c.toNat)) ∧
      (∀ x t o, d.ctx? c.toNat = some x → x.slots[i.toNat]? = some t → Dev.Slot.pending t = true → Tab.find d.herd.outs t.tag = some o →
        dest (.capturedReplyLand c i true e)
          (d.replyIn ⟨0x20, d.nodeId, o.node, t.tag, false, decide (d.tierSize (addrTier o.addr) ≤ addrOff o.addr), 0#64, e⟩) ∧
        dest (.capturedReplyLand c i false e) (d.timeout t.tag)))

/-- R285 to R289 (Table 11-7a; the layouts of the messages are the model's, log 36): enumeration. A HELLO goes out on an UNASSIGNED link only,
and one that comes in is noted with its link; a probe is answered along its path; an assignment and a route table are taken as sent; a
node that is gone leaves the routes and its ID is retired; the device of the lowest serial that may be root begins; a probe is tried three
times.
The model's own choices in it: log 36 and 79. -/
def Obligations.Enumeration : Prop :=
  ∀ (s : State), let d := s.dev
    let is := fun (i : Instr) (u : Dev) => exec i s = .next { s with dev := u }
    (∀ h : Fin 36,
      (d.linkSt h ≠ 2 → is (.helloPeriod h) d) ∧
      (d.linkSt h = 2 → is (.helloPeriod h)
        (d.pushTx h none ⟨0x50, 0, d.nodeId, 0, false, false, Config.serial, Dev.padUnits (d.helloData s.prefNode h)⟩))) ∧
    (∀ (h : Fin 36) (m : Msg), let t := d.rxTake h m
      let hop := (m.data.getD 0 0#8).toNat
      let len := (m.data.getD 1 0#8).toNat
      let data := m.data.set (2 + (hop - 1)) (BitVec.ofNat 8 h)
      let back := (((data.drop 2).take len).map (·.toNat % 36)).reverse
      let pay := data.drop 16
      let here := 0 < hop ∧ hop = len ∧ len ≤ 14
      (∀ r ∈ ([(Instr.probe, 0x51), (Instr.probeReply, 0x52), (Instr.assign, 0x53), (Instr.route, 0x54), (Instr.nodeGone, 0x55)] :
          List ((Fin 36 → Msg → Instr) × Nat)), d.rxFirst h m r.2 = true →
        (hop = 0 ∨ len < hop ∨ 14 < len → is (r.1 h m) (t.protoErr h)) ∧
        (0 < hop → hop < len → len ≤ 14 →
          is (r.1 h m) (t.pushTx ((data.getD (2 + hop) 0#8).toNat % 36) none { m with data := data.set 0 (BitVec.ofNat 8 (hop + 1)) }))) ∧
      (d.rxFirst h m 0x50 = true → m.data.length = 32 → t.assigned = false → (m.data.getD 8 0#8).toNat % 16 = 0 →
        is (.hello h m) ((t.setFlds (R.hlState h) [(F.hlState_peerHl, (m.data.getD 9 0#8).toNat % 64), (F.hlState_peerValid, 1),
          (F.hlState_peerNode, leVal ((m.data.drop 12).take 2) % 4096)]).modLink h (fun l => { l with
            peerSerial := BitVec.ofNat 64 (leVal (m.data.take 8)), peerRoot := none, peerAssigned := false }))) ∧
      (d.rxFirst h m 0x51 = true → here → t.myAdj.length ≤ 24 →
        let u : Dev := { t with herd := { t.herd with rootPath := back } }
        let p := s.prefNode.getD 0xFFFF
        is (.probe h m) (u.lmpPath 0x52 0 Config.serial back (leBytes 8 Config.serial.toNat ++ leBytes 2 p ++ leBytes 1 1 ++ leBytes 1 t.myAdj.length ++
          List.replicate 4 0#8 ++ t.myAdj.flatMap (fun e => leBytes 1 e.1 ++ leBytes 8 e.2.toNat)))) ∧
      (d.rxFirst h m 0x52 = true → here → (∀ q ∈ t.herd.members, q.serial ≠ BitVec.ofNat 64 (leVal (pay.take 8))) → is (.probeReply h m) t) ∧
      (∀ q, d.rxFirst h m 0x52 = true → here → t.herd.members.find? (fun q => q.serial == BitVec.ofNat 64 (leVal (pay.take 8))) = some q →
        Tab.find t.herd.probes (BitVec.ofNat 64 (leVal (pay.take 8))).toNat ≠ none → pay.getD 11 0#8 = 0#8 → pay.getD 10 0#8 = 0#8 →
        let pf := leVal ((pay.drop 8).take 2)
        is (.probeReply h m) { t with herd := { t.herd with members := t.herd.members.map (fun r =>
          if r.serial = BitVec.ofNat 64 (leVal (pay.take 8)) then { r with pref := if pf < 4096 then some pf else none } else r) } }) ∧
      (d.rxFirst h m 0x53 = true → here →
        let u : Dev := { t with herd := { t.herd with rootPath := back } }
        (pay.getD 2 0#8 ≠ 0#8 → is (.assign h m) (u.setFld R.dirEnum F.dirEnum_state 3)) ∧
        (pay.getD 2 0#8 = 0#8 →
          let v := u.setFlds R.addrNode [(F.addrNode_nodeId, leVal (pay.take 2)), (F.addrNode_assigned, 1)]
          let w : Dev := { v with herd := { v.herd with rootSerial := some (BitVec.ofNat 64 (leVal ((pay.drop 8).take 8))) } }
          is (.assign h m) (w.setFld R.dirEnum F.dirEnum_isroot 0))) ∧
      (d.rxFirst h m 0x54 = true → here → is (.route h m) (t.loadRoutes ((pay.getD 0 0#8).toNat.testBit 0) ((pay.getD 0 0#8).toNat.testBit 1)
        ((List.range (pay.getD 1 0#8).toNat).map (fun i => Dev.routeOf ((pay.drop (16 + 8 * i)).take 8))))) ∧
      (d.rxFirst h m 0x55 = true → here → is (.nodeGone h m) (t.nodeGone (leVal (pay.take 2) % 4096)))) ∧
    (∀ r, d.busAns r R.dirCfg true = .ok →
      (d.flag R.dirCfg F.dirCfg_root = false → is (.enumerationStart r) d) ∧
      (d.flag R.dirCfg F.dirCfg_root = true → d.lowRoot ≠ some Config.serial → is (.enumerationStart r) (d.setFld R.dirEnum F.dirEnum_isroot 0)) ∧
      (d.flag R.dirCfg F.dirCfg_root = true → d.lowRoot = some Config.serial →
        let n := s.prefNode.getD 0
        let u := ((d.setFld R.dirEnum F.dirEnum_isroot 1).setFld R.dirEnum F.dirEnum_state 1).setFlds R.addrNode
          [(F.addrNode_nodeId, n), (F.addrNode_assigned, 1)]
        let v : Dev := { u with herd := { u.herd with
          rootSerial := some Config.serial, retired := [], probes := [], members := [⟨Config.serial, s.prefNode, some n, [], u.myAdj⟩] } }
        is (.enumerationStart r) (u.myAdj.foldl (fun d e => d.probe e.2 [e.1]) v).probesOver)) ∧
    (∀ t : W64,
      (Tab.find d.herd.probes t.toNat = none → is (.probeTimeout t) d) ∧
      (∀ k m, Tab.find d.herd.probes t.toNat = some k → d.herd.members.find? (fun m => m.serial == t) = some m →
        (k < 3 →
          let u : Dev := { d with herd := { d.herd with probes := Tab.put d.herd.probes t.toNat (k + 1) } }
          is (.probeTimeout t) (u.lmpPath 0x51 0 t m.path [])) ∧
        (3 ≤ k →
          let u : Dev := { d with herd := { d.herd with
            probes := Tab.del d.herd.probes t.toNat, members := d.herd.members.filter (fun m => m.serial != t) } }
          is (.probeTimeout t) u.probesOver))) ∧
    (∀ n : BitVec 12,
      (d.flag R.dirEnum F.dirEnum_isroot = false ∨ d.fld R.dirEnum F.dirEnum_state ≠ 2 ∨ n.toNat = d.nodeId → is (.nodeGoneTimer n) d) ∧
      (d.flag R.dirEnum F.dirEnum_isroot = true → d.fld R.dirEnum F.dirEnum_state = 2 → n.toNat ≠ d.nodeId →
        (∃ m ∈ d.herd.members, m.id = some n.toNat) →
        let u : Dev := { d with herd := { d.herd with members := d.herd.members.filter (fun m => m.id != some n.toNat) } }
        is (.nodeGoneTimer n) ((u.herd.members.foldl (fun d m =>
          if m.serial = Config.serial then d else d.lmpPath 0x55 0 m.serial m.path (leBytes 2 n.toNat ++ List.replicate 14 0#8)) u).nodeGone n.toNat)))

/-- R313 to R315, R347 to R354 (Tables 12-2, 13-2, 13-3): the commands and events of collections. A command block is read where it lies and its
answer written there; a change that waits is published with the next generation, drops out where nothing changes or the largest generation is
reached; a compaction copies, is published as a new view and releases what no view holds.
The model's own choices in it: log 43 and 56. -/
def Obligations.Collections : Prop :=
  ∀ (s : State),
    (∀ (k : Fin 32) (a : W64), s.dev.busAns (.cham k) R.srchCmdLo true = .ok →
      let z := s.dev.clampSteps (.cham k) false Dev.noT3 a 64
      let ws := Dev.wordsOf 8 (s.dev.lread z.tier z.off 64).1
      let op := bits64 (ws.getD 0 0#64) 0 8
      let bad := if 1 ≤ op ∧ op ≤ 3 then 0 else 1
      let d := ((s.dev.noteClamps (.cham k) z.kinds a).ltouch false z.tier z.off 64).srchClamp bad
      let p := if s.dev.chamOwner k < 16 then s.dev.chamOwner k else 16
      let who := Asker.block k (Dev.placeAddr z)
      let l := bits64 (ws.getD 0 0#64) 8 10
      s.dev.isHere z = true →
      (s.dev.lready z.tier z.off 64 true = false → ∀ i, i ∈ [Instr.collCreate k a, .collDestroy k a, .collInfo k a] →
        exec i s = .next (s.onDev (fun d => d.dirAsk true (d.lholds z.tier z.off 64 true)))) ∧
      (s.dev.lready z.tier z.off 64 true = true →
        (op = 1 →
          let pt := if p = 16 then bits64 (ws.getD 0 0#64) 36 4 else p
          exec (.collCreate k a) s = .next { s with dev := d.collCreate (.cham k) pt ws who 0 } ∧
          (∀ n0, n0 = bits64 (ws.getD 0 0#64) 23 13 → n0 % 16 = 0 → 16 ≤ n0 → n0 ≤ 4096 → bits64 (ws.getD 0 0#64) 18 2 < 2 →
            let t := bits64 (ws.getD 0 0#64) 20 3
            let a1 := ws.getD 1 0#64
            let pl := d.clampSteps (.cham k) false Dev.noT4 a1 4
            let use := 300 + k.val
            let g0 := d.grab none use (Dev.placeAddr pl) (4 * n0)
            let g := (g0.1, g0.2.1, g0.2.2.1, g0.2.2.2.doneFetch (d.away (Dev.placeAddr pl)) none use)
            let ss := (f32s n0 g.2.2.1).map legalScale
            a1.toNat % 4 = 0 → (t = 1 ∨ t = 2) → pl.kinds = [] → pl.off + 4 * n0 ≤ d.tierSize pl.tier → g.1 = true → (∀ q ∈ ss, q.2 = false) →
            let id := Tab.firstFree g.2.2.2.search.colls 1024 0
            (1024 ≤ id → (∀ e, g.2.2.2.roomFor pt t 1 ≠ (.full, e)) →
              d.collCreate (.cham k) pt ws who 0 = g.2.2.2.answerColl who 0x41 0 none none none false) ∧
            (∀ e, g.2.2.2.roomFor pt t 1 = (.full, e) →
              d.collCreate (.cham k) pt ws who 0 = e.answerColl who 3 0 none none none false) ∧
            (∀ b e, id < 1024 → g.2.2.2.roomFor pt t 1 = (.got b, e) →
              let sc := ss.map (·.1)
              let h := normShift sc
              let v : Nat × Dev := e.runObj pt t b 1
              let c : Coll := ⟨pt, decide (bits64 (ws.getD 0 0#64) 18 2 = 1), n0, sc, h, normWeights sc h, t, 0, [], 1, [⟨0, []⟩], none, false, [], false, v.1 + 1⟩
              let u : Dev := { v.2 with search := { v.2.search with colls := Tab.put v.2.search.colls id c } }
              d.collCreate (.cham k) pt ws who 0 = u.answerColl who 0 0 (some id) (some c) none true))) ∧
        (op = 2 → d.collNamed p l = none → exec (.collDestroy k a) s = .next { s with dev := d.answerColl who 0x40 0 (some l) none none false }) ∧
        (∀ c, op = 2 → d.collNamed p l = some c → c.pend = [] → 
          let u := d.modColl l (fun c => { c with destroyed := true, pend := [] })
          exec (.collDestroy k a) s = .next { s with dev := u.answerColl who 0 0 (some l) (some c) none false }) ∧
        ((op = 3 ∨ op < 1 ∨ 3 < op) → d.collNamed p l = none →
          exec (.collInfo k a) s = .next { s with dev := d.answerColl who 0x40 bad (some l) none none false }) ∧
        (∀ c, (op = 3 ∨ op < 1 ∨ 3 < op) → d.collNamed p l = some c →
          exec (.collInfo k a) s = .next { s with dev := d.answerColl who 0 bad (some l) (some c) (some (Dev.liveCount c)) true }))) ∧
    (∀ l : BitVec 10, let d := s.dev
      let n := l.toNat
      let is := fun (i : Instr) (u : Dev) => exec i s = .next { s with dev := u }
      let refuses := fun (c : Coll) => c.pend = [] ∨ c.destroyed = true
      (Tab.find d.search.colls n = none →
        is (.collectionRelease l) d ∧ is (.generationPublish l) d ∧ is (.compactionStart l) d ∧ is (.compactionPublish l) d ∧ is (.compactionRetry l) d) ∧
      (∀ c, Tab.find d.search.colls n = some c →
        -- the end of a destroyed collection
        ((c.destroyed = false ∨ d.collJobs n ≠ []) → is (.collectionRelease l) d) ∧
        (c.destroyed = true → d.collJobs n = [] →
          let u : Dev := { d with search := { d.search with colls := Tab.del d.search.colls n } }
          is (.collectionRelease l) ((c.objs.filter (· ≠ 0)).foldl (fun d o => d.freeObj (o - 1)) u)) ∧
        -- publishing
        (refuses c → is (.generationPublish l) d) ∧
        (∀ q, c.destroyed = false → c.pend[(Config.freeWord d.draws).toNat % c.pend.length]? = some q →
          let u := ({ d with draws := d.draws + 1 } : Dev).modColl n (fun c => { c with pend := c.pend.eraseIdx ((Config.freeWord d.draws).toNat % c.pend.length) })
          let g := c.gen + 1
          (2 ^ 48 - 1 ≤ c.gen → (∀ recs, q.change = .append recs → let rs := (Dev.lastOfId recs).map (fun r => { r with gen := g })
              rs = [] ∨ (Dev.wheyOf c + rs.length ≤ 0xFFFFFFFF ∧ ∀ e, u.storeRecs c rs ≠ some (none, e))) →
            is (.generationPublish l) (u.answerChange q 6 (2 ^ 48 - 1) 0)) ∧
          (∀ ids, c.gen < 2 ^ 48 - 1 → q.change = .delete ids →
            let hit := (ids.eraseDups).filter (Dev.isLive c)
            (hit = [] → is (.generationPublish l) (u.answerChange q 0 c.gen 0)) ∧
            (hit ≠ [] → is (.generationPublish l) (((u.modColl n (fun c => Dev.bury c hit g)).atGen n g).answerChange q 0 g hit.length))) ∧
          (∀ recs e, q.change = .append recs → let rs := (Dev.lastOfId recs).map (fun r => { r with gen := g })
            rs ≠ [] → Dev.wheyOf c + rs.length ≤ 0xFFFFFFFF → u.storeRecs c rs = some (none, e) → is (.generationPublish l) (e.answerChange q 3 c.gen 0)) ∧
          (∀ recs, c.gen < 2 ^ 48 - 1 → q.change = .append recs →
            let rs := (Dev.lastOfId recs).map (fun r => { r with gen := g })
            (rs = [] → is (.generationPublish l) (u.answerChange q 0 c.gen 0)) ∧
            (rs ≠ [] → 0xFFFFFFFF < Dev.wheyOf c + rs.length → is (.generationPublish l) (u.answerChange q 3 c.gen 0)) ∧
            (rs ≠ [] → c.home = 3 → d.ftl.retired = true → Dev.wheyOf c + rs.length ≤ 0xFFFFFFFF → (∀ e, u.storeRecs c rs ≠ some (none, e)) →
              is (.generationPublish l) (u.answerChange q 0x58 c.gen 0)) ∧
            (rs ≠ [] → (c.home ≠ 3 ∨ d.ftl.retired = false) → Dev.wheyOf c + rs.length ≤ 0xFFFFFFFF → u.storeRecs c rs = none → is (.generationPublish l) d) ∧
            (∀ o e, rs ≠ [] → (c.home ≠ 3 ∨ d.ftl.retired = false) → Dev.wheyOf c + rs.length ≤ 0xFFFFFFFF → u.storeRecs c rs = some (some o, e) →
              let v := e.modColl n (fun c =>
                let c := Dev.bury c (rs.map (·.id)) g
                { c with
                  segs := Tab.put c.segs c.nextSeg ⟨o + 1, true, rs⟩, nextSeg := c.nextSeg + 1
                  views := (List.range c.views.length).filterMap (fun i => (c.views[i]?).map (fun v =>
                    if i + 1 = c.views.length then { v with segs := v.segs ++ [c.nextSeg] } else v)) })
              is (.generationPublish l) ((v.atGen n g).answerChange q 0 g rs.length)))) ∧
        -- compaction
        (d.flag R.srchCompactCtrl F.srchCompactCtrl_en = false ∨ c.compact.isSome = true ∨ c.destroyed = true ∨ 8 ≤ c.views.length ∨ 2 ^ 48 - 2 ≤ c.gen ∨
          ((d.reg R.srchWheyThresh).toNat > Dev.wheyOf c ∧ Dev.tombSegs c (d.fld R.srchCompactCtrl F.srchCompactCtrl_tomb) = []) → is (.compactionStart l) d) ∧
        (∀ v, d.flag R.srchCompactCtrl F.srchCompactCtrl_en = true → c.compact = none → c.destroyed = false → c.views.length < 8 → c.gen < 2 ^ 48 - 2 →
          (d.reg R.srchWheyThresh).toNat ≤ Dev.wheyOf c → c.views.getLast? = some v →
          let chosen := Dev.tombSegs c (d.fld R.srchCompactCtrl F.srchCompactCtrl_tomb) ++ v.segs.filter (fun s => ((Tab.find c.segs s).map (·.whey)).getD false)
          let rs := (Dev.viewRecs c ⟨0, chosen⟩).filterMap (fun r => if r.2.2.live c.gen then some r.2.2 else none)
          let copied := fun (e : Dev) (o : Nat) => e.modColl n (fun c => { c with
            compact := some ⟨c.gen, chosen, c.nextSeg⟩, retry := false, segs := Tab.put c.segs c.nextSeg ⟨o, false, rs⟩, nextSeg := c.nextSeg + 1 })
          (rs = [] → is (.compactionStart l) (copied d 0)) ∧
          (rs ≠ [] → d.storeRecs c rs = none → is (.compactionStart l) d) ∧
          (∀ e, rs ≠ [] → d.storeRecs c rs = some (none, e) →
            is (.compactionStart l) ((e.setFld R.srchSelEvt F.srchSelEvt_compactFail 1).modColl n (fun c => { c with retry := true }))) ∧
          (∀ o e, rs ≠ [] → d.storeRecs c rs = some (some o, e) → is (.compactionStart l) (copied e (o + 1)))) ∧
        (c.compact = none ∨ c.destroyed = true → is (.compactionPublish l) d) ∧
        (c.compact ≠ none → c.destroyed = false → 2 ^ 48 - 1 ≤ c.gen → is (.compactionPublish l) (d.modColl n (fun y => { y with compact := none }))) ∧
        (∀ q v, c.compact = some q → c.destroyed = false → c.gen < 2 ^ 48 - 2 → c.views.getLast? = some v →
          let w : CView := ⟨c.gen + 1, v.segs.filter (fun s => !q.chosen.contains s) ++ [q.new]⟩
          is (.compactionPublish l) ((((d.modColl n (fun c => { c with compact := none, views := c.views ++ [w] })).atGen n (c.gen + 1)).count
            R.srchCompactCnt R.srchSelEvt F.srchSelEvt_compactOvf).pruneViews n)) ∧
        (c.retry = false → is (.compactionRetry l) d) ∧
        (c.retry = true → exec (.compactionRetry l) s = exec (.compactionStart l) s)) ∧
      -- release: what no view holds is gone
      (Tab.find (d.pruneViews n).search.colls n = none → is (.compactionRelease l) (d.pruneViews n)) ∧
      (∀ c, Tab.find (d.pruneViews n).search.colls n = some c →
        let used := fun (i : Nat) => c.views.any (fun v => v.segs.contains i) || (c.compact.map (·.new)) == some i
        let u := (d.pruneViews n).modColl n (fun c => { c with segs := c.segs.filter (fun s => used s.1) })
        ((∀ q ∈ c.segs, used q.1 = true) → is (.compactionRelease l) u) ∧
        (∀ q o, c.segs.filter (fun s => !used s.1) = [q] → q.2.obj ≠ 0 → Tab.find d.tier.objs (q.2.obj - 1) = some o →
          is (.compactionRelease l) ((u.zeroRange o.tier o.base o.size).freeObj (q.2.obj - 1)))))

/-- R323 to R344, R353, R548: a search job. Its start captures the collection's generation and puts its queries into the channels; a pass scores an
engine's share; selections, partial lists and results follow, and the last event answers. An event whose turn has not come changes nothing.
The model's own choices in it: log 35, 42, 43 and 56. -/
def Obligations.SearchJobs : Prop :=
  ∀ (s : State), let d := s.dev
    let dest := fun (i : Instr) (u : Dev) => exec i s = .next (State.settled { s with dev := u })
    let is := fun (i : Instr) (u : Dev) => exec i s = .next { s with dev := u }
    (∀ j : BitVec 32, let i := j.toNat
      (Tab.find d.search.jobs i = none → dest (.searchJobStart j) d ∧ dest (.searchJobComplete j) d ∧ is (.largeKReselect j) d) ∧
      (∀ x, Tab.find d.search.jobs i = some x →
        let earlier := ∃ k ∈ d.search.jobs, k.1 < i ∧ k.2.started = false ∧ k.2.cancelled = false ∧ k.2.ctx.isSome = true ∧ k.2.ctx = x.ctx
        (x.started = true ∨ x.cancelled = true ∨ earlier → dest (.searchJobStart j) d) ∧
        (x.started = false → x.cancelled = false → ¬ earlier → (x.found = false ∨ Tab.find d.search.colls x.coll = none) → x.src = none →
          dest (.searchJobStart j) (d.modJob i (fun y => { y with started := true, queries := y.raw.map (fun _ => ⟨[], 0, 0, none, [], [], 0, 0, 0, 0, none⟩) }))) ∧
        (∀ c v, x.started = false → x.cancelled = false → ¬ earlier → x.found = true → Tab.find d.search.colls x.coll = some c → x.src = none →
          ((d.collJobs x.coll).filter (·.2.started)).length < 65535 → c.views.getLast? = some v → x.raw ≠ [] →
          x.large = false → x.rerank = false → x.path = 1 → c.home = 3 → (x.dist ≠ 1 ∨ c.cosine = true) → (x.dist ≠ 2 ∨ c.cosine = false) →
          (Dev.makeQueries c x x.dist).2 = 0 → (∀ ch < 128, d.oryxOn ch = true) →
          dest (.searchJobStart j) ({ d with draws := d.draws + 1 }.modJob i (fun y => { y with
            started := true, gen := c.gen, view := v.start, dist := x.dist, queries := (Dev.makeQueries c x x.dist).1,
            chans := (List.range 128).map (fun ch => (ch, 0)), paths := 1 }))) ∧
        -- the result
        (x.cancelled = false → x.started = false ∨ (∃ q ∈ x.queries, q.done = none) → dest (.searchJobComplete j) d) ∧
        (∀ p sq cid, x.cancelled = false → x.started = true → (∀ q ∈ x.queries, q.done.isSome = true) → x.dst = none → x.who = .nvme p sq cid →
          dest (.searchJobComplete j) ((d.dropJob i).nvmeStatus p sq cid 0 x.flags (x.gen / 2 ^ 32) (BitVec.ofNat 32 x.gen) (Dev.fitted x (Dev.jobResults x 0)))) ∧
        (∀ c id, x.cancelled = false → x.started = true → (∀ q ∈ x.queries, q.done.isSome = true) → Dev.fitted x (Dev.jobResults x 0) = [] → x.who = .ctx c id →
          dest (.searchJobComplete j) ((d.dropJob i).asyncDone c id 0 x.flags 0 (BitVec.ofNat 64 x.gen))) ∧
        (x.cancelled = true → x.dst = none ∨ x.started = false → dest (.searchJobComplete j) (d.dropJob i)) ∧
        -- large k
        (x.large = false ∨ x.big.cand.length < 4 * x.k → is (.largeKReselect j) d) ∧
        (x.large = true → 4 * x.k ≤ x.big.cand.length →
          is (.largeKReselect j) (((d.reselect x.k (4 * x.k) x.big).2.modJob i (fun y => { y with big := (d.reselect x.k (4 * x.k) x.big).1.advanceBig y.k })).count
            R.srchReselCnt R.srchSelEvt F.srchSelEvt_reselOvf))) ∧
      -- passes
      (∀ ch : Fin 128,
        (Tab.find d.search.jobs i = none ∨ (∃ x, Tab.find d.search.jobs i = some x ∧ Tab.find x.chans ch.val = none) ∨ Tab.find d.search.passes ch.val ≠ none ∨
          d.oryxOn ch = false → dest (.oryxPass ch j) d) ∧
        (∀ x c q0 rs bad e, Tab.find d.search.jobs i = some x → Tab.find x.chans ch.val = some q0 → Tab.find d.search.colls x.coll = some c →
          Tab.find d.search.passes ch.val = none → d.oryxOn ch = true → ch.val ∉ x.handed → x.large = false → x.ctx = none →
          let n := min (d.slotsFor x.part) (x.queries.length - q0)
          0 < n → d.readShare c (some ch.val) (Dev.shareOf c x ch) = (rs, bad, e) →
          let out := (List.range n).map (fun t => (q0 + t, Dev.offer c x ((x.queries[q0 + t]?).getD ⟨[], 0, 0, none, [], [], 0, 0, 0, 0, none⟩) rs bad))
          let u := ((e.modJob i (fun y => { y with queries := out.foldl (fun l o => l.set o.1 o.2.2) y.queries })).addPair (R.oryxVecLo ch) (rs.length + bad)
            (R.oryxEvt ch) F.oryxEvt_wrap).addPair (R.oryxBytesLo ch) ((rs.length + bad) * (24 + c.dim)) (R.oryxEvt ch) F.oryxEvt_wrap
          let v := u.setFlds (R.oryxStatus ch) [(F.oryxStatus_active, 1), (F.oryxStatus_slots, n), (F.oryxStatus_ctxId, 0), (F.oryxStatus_part, x.part)]
          dest (.oryxPass ch j) { v with search := { v.search with
            passes := Tab.put v.search.passes ch.val ⟨i, q0, out.map (fun o => Sel.advance x.k o.2.1.length ⟨o.2.1, [], [], 0, 0⟩), rs.length * (c.dim / 4)⟩ } })) ∧
      -- reselection of a full candidate buffer, and the merge
      (∀ n : BitVec 12,
        let full := fun (p : Pass) => p.job == i && p.q0 ≤ n.toNat && ((p.sels[n.toNat - p.q0]?).map (fun s => decide (256 ≤ s.cand.length))) == some true
        (d.search.passes.find? (fun p => full p.2) = none → is (.reselect j n) d) ∧
        (∀ x ch p z z' e, Tab.find d.search.jobs i = some x → d.search.passes.find? (fun p => full p.2) = some (ch, p) → p.sels[n.toNat - p.q0]? = some z →
          d.reselect x.k 256 z = (z', e) →
          let u : Dev := { e with search := { e.search with
            passes := Tab.put e.search.passes ch { p with sels := p.sels.set (n.toNat - p.q0) (Sel.advance x.k z'.rest.length z') } } }
          is (.reselect j n) (u.count R.srchReselCnt R.srchSelEvt F.srchSelEvt_reselOvf)) ∧
        (∀ x q, Tab.find d.search.jobs i = some x → x.chans = [] → x.queries[n.toNat]? = some q →
          let waits := x.started = false ∨ q.done.isSome = true ∨ (∃ p ∈ d.search.passes, p.2.job = i ∧ p.2.q0 ≤ n.toNat ∧ n.toNat < p.2.q0 + p.2.sels.length)
          x.large = false →
          (waits → dest (.partialListMerge j n) d) ∧
          (∀ l t e, ¬ waits → d.mergeParts x.k q.parts = (l, t, e) →
            let kth := ((l.getLast?).map (·.key)).getD 0
            let tied := b2n (decide ((l.filter (fun y => y.key == kth)).length < t)) * 4
            let fl := q.flags + tied
            dest (.partialListMerge j n) (e.modJob i (fun y => { y with flags := y.flags ||| tied, queries := y.queries.set n.toNat { q with
              flags := fl, done := some (Dev.resultBytes x n.toNat q (Dev.queryStatus x q) (fl ||| (x.flags % 2)) l t) } })))))) ∧
    (∀ ch : Fin 128,
      (Tab.find d.search.passes ch.val = none → is (.oryxPassComplete ch) d) ∧
      (∀ p x, Tab.find d.search.passes ch.val = some p → Tab.find d.search.jobs p.job = some x → (∃ z ∈ p.sels, z.rest ≠ []) → is (.oryxPassComplete ch) d) ∧
      (∀ p x, Tab.find d.search.passes ch.val = some p → Tab.find d.search.jobs p.job = some x → x.large = true → x.big.rest = [] → (∀ z ∈ p.sels, z.rest = []) →
        let next := p.q0 + p.sels.length
        let u := ((d.modJob p.job (fun y => { y with chans := if y.queries.length ≤ next then Tab.del y.chans ch.val else Tab.put y.chans ch.val next })).chargePass x p).count
          (R.oryxPassCnt ch) (R.oryxEvt ch) F.oryxEvt_passOvf
        let v := u.setFlds (R.oryxStatus ch) [(F.oryxStatus_active, 0), (F.oryxStatus_slots, 0), (F.oryxStatus_ctxId, 0), (F.oryxStatus_part, 0)]
        is (.oryxPassComplete ch) { v with search := { v.search with passes := Tab.del v.search.passes ch.val } }) ∧
      (∀ p x z l e, Tab.find d.search.passes ch.val = some p → Tab.find d.search.jobs p.job = some x → x.large = false → p.sels = [z] → z.rest = [] →
        d.partOf x.k z = (l, e) →
        let next := p.q0 + 1
        let u := (((e.modJob p.job (fun y => { y with queries := match y.queries[p.q0]? with
          | some q => y.queries.set p.q0 { q with parts := q.parts ++ [l] }
          | none => y.queries })).modJob p.job (fun y => { y with
            chans := if y.queries.length ≤ next then Tab.del y.chans ch.val else Tab.put y.chans ch.val next })).chargePass x p).count
          (R.oryxPassCnt ch) (R.oryxEvt ch) F.oryxEvt_passOvf
        let v := u.setFlds (R.oryxStatus ch) [(F.oryxStatus_active, 0), (F.oryxStatus_slots, 0), (F.oryxStatus_ctxId, 0), (F.oryxStatus_part, 0)]
        is (.oryxPassComplete ch) { v with search := { v.search with passes := Tab.del v.search.passes ch.val } }) ∧
      (∀ r (v : W32), d.busAns r (R.oryxCtrl ch) true = .ok →
        is (.oryxEnableWrite r ch v) (d.setFld (R.oryxCtrl ch) F.oryxCtrl_en (getF v F.oryxCtrl_en))))

/-- R361 to R388 (Tables 14-3 to 14-5): the flash channel controllers. A queue is submitted, freed and reset by its registers; a descriptor starts when
it is eligible and its queue's turn has come, after the checks of R367; a die's operation ends with its completion entry; an erase is
suspended and resumed; a die that overran is failed; what a rebuild gives goes to where the read's data would have gone.
The model's own choices in it: log 18 and 80. -/
def Obligations.FlashChannels : Prop :=
  ∀ (ch : Fin 128) (s : State), let d := s.dev
    let is := fun (i : Instr) (u : Dev) => exec i s = .next { s with dev := u }
    -- accesses whose lines wait, or whose bytes are still to come from another node, are started, and the command is not taken yet
    let when' := fun (l : List FchAcc) (u : Dev) => if d.fchOpen l then u else d.fchAsk l
    (∀ (q : Fin 8) (r : Req) (v : W32), let n := 2 ^ d.fld (R.fchQCfg ch q) F.fchQCfg_depth
      let forget := fun (u : Dev) => u.doneFetch (d.away (d.fchSq ch q)) none (Dev.fchUse ch q)
      (d.busAns r (R.fchQSqt ch q) true = .ok → v.toNat % n ≠ d.fld (R.fchQSqh ch q) F.fchQSqh_head →
        is (.fchSubmit r ch q v) (when' [⟨d.fchSq ch q, 64 * n, false, Dev.fchUse ch q⟩]
          (forget ((d.setFld (R.fchQSqt ch q) F.fchQSqt_tail (v.toNat % n)).fchFetch ch q 1024)))) ∧
      (d.busAns r (R.fchQSqt ch q) true = .ok → v.toNat % n = d.fld (R.fchQSqh ch q) F.fchQSqh_head →
        is (.fchSubmit r ch q v) (forget (d.setFld (R.fchQSqt ch q) F.fchQSqt_tail (v.toNat % n)))) ∧
      (d.busAns r (R.fchQCqh ch q) true = .ok → is (.fchCqHeadWrite r ch q v) ((d.setFld (R.fchQCqh ch q) F.fchQCqh_head (v.toNat % n)).setReserved ch q
        (Tab.getD (d.fch ch).reserved q 0 - (v.toNat % n + n - d.fld (R.fchQCqh ch q) F.fchQCqh_head) % n))) ∧
      (d.busAns r (R.fchQCtrl ch q) true = .ok → Tab.getD (d.fch ch).waiting q.val [] = [] →
        let w := (d.setFch ch { d.fch ch with waiting := Tab.del (d.fch ch).waiting q }).setFld (R.fchQCtrl ch q) F.fchQCtrl_reset 1
        let u := w.setFch ch { w.fch ch with phase := Tab.del (w.fch ch).phase q }
        (d.fchRuns ch q = true → is (.fchQueueReset r ch q) w) ∧
        (d.fchRuns ch q = false → is (.fchQueueReset r ch q) (((((((u.setReg (R.fchQSqt ch q) 0#32).setReg (R.fchQSqh ch q) 0#32).setReg (R.fchQCqh ch q) 0#32).setReg
          (R.fchQCqt ch q) 0#32).setReserved ch q 0)).setFld (R.fchQCtrl ch q) F.fchQCtrl_reset 0))) ∧
      (d.busAns r (R.fchQCtrl ch q) true = .ok → Tab.getD (d.fch ch).waiting q.val [] ≠ [] → d.fchOpen [d.fchCqRing ch q] = false →
        is (.fchQueueReset r ch q) (d.fchAsk [d.fchCqRing ch q]))) ∧
    (∀ (q : Fin 8) (i : BitVec 10) (x : FDesc), (Tab.getD (d.fch ch).waiting q.val [])[i.toNat]? = some x →
      let turn := d.fchEligible ch q i.toNat = true ∧ d.fchTurn ch (d.fchEligQueues ch) = some q.val
      let e := d.fchTake ch q i.toNat
      let y := e.die ch x.target
      let fine := turn ∧ e.fchCheck ch x = none
      let overs := fun (u : Dev) (fl : Nat) => when' [e.fchEntry ch x.q] (u.fchComplete ch x.q x.tag 0 fl 0)
      (∀ r ∈ ([(Instr.flashNop, 0), (Instr.flashRead, 1), (Instr.flashProgram, 2), (Instr.flashErase, 3), (Instr.flashSetBlock, 4), (Instr.flashGetBlock, 5)] :
          List ((Fin 128 → Fin 8 → BitVec 10 → Instr) × Nat)),
        (x.op ≠ r.2 → is (r.1 ch q i) d) ∧
        (∀ st, x.op = r.2 → turn → e.fchCheck ch x = some st →
          is (r.1 ch q i) (when' [e.fchEntry ch x.q] ((e.count (R.fchRefuseCnt ch) (R.fchEvt ch) F.fchEvt_refuseOvf).fchComplete ch x.q x.tag st (b2n x.clamped) 0))) ∧
        (x.op = r.2 → r.2 ≠ 1 → ¬ turn → is (r.1 ch q i) d)) ∧
      (x.op = 0 → fine → is (.flashNop ch q i) (overs e (b2n x.clamped))) ∧
      (x.op = 1 → fine → is (.flashRead ch q i) (e.setDie ch x.target { y with op := some ⟨x, 1, y.susp⟩ })) ∧
      (x.op = 1 → ¬ turn → (d.fchReady ch q i.toNat).isSome = true → d.mayReqSusp ch (d.die ch x.target) = true →
        is (.flashRead ch q i) (d.setDie ch x.target { d.die ch x.target with suspReq := true })) ∧
      (x.op = 1 → ¬ turn → ((d.fchReady ch q i.toNat).isSome = false ∨ d.mayReqSusp ch (d.die ch x.target) = false) → is (.flashRead ch q i) d) ∧
      (x.op = 2 → fine → is (.flashProgram ch q i) (when' (Dev.fchAccs ch x)
        (((e.fchProgram s.aon ch x).doneFetch (x.kind == 0 && (e.away x.data || e.away x.side)) none (Dev.fchUse ch x.q)).setDie ch x.target { y with op := some ⟨x, 2, false⟩ }))) ∧
      (x.op = 3 → fine → is (.flashErase ch q i) (e.setDie ch x.target { y with
        erase := some ⟨x, 3, false⟩, susp := false, suspReq := false, at' := e.now, ran := 0, suspCnt := 0, suspCfg := e.reg (R.fchSusp ch) })) ∧
      (∀ p, x.op = 4 → fine → x.planes = [p] →
        let k := pblkKey (dieNo ch x.target) p x.block
        let b := e.pblk k
        -- a pointer beyond the mode that the block keeps is full
        let far := decide (x.setMode = false ∧ x.wp ≠ wpFull ∧ cwCount b.slc < x.wp)
        let wp := if far = true then wpFull else x.wp
        let up := b.wp = wpFull ∨ wp = wpFull ∨ b.wp ≤ wp
        let set := fun (wp : Nat) => e.setPblk k { wp := wp, bad := b.bad || x.markBad, slc := if x.setMode then x.slc else b.slc }
        (x.setWp = false → far = false → is (.flashSetBlock ch q i) (overs (set b.wp) (b2n x.clamped))) ∧
        (x.setWp = true → far = false → up → is (.flashSetBlock ch q i) (overs (set wp) (b2n x.clamped))) ∧
        (x.setWp = true → far = true → is (.flashSetBlock ch q i) (overs ((set wp).fchClamp ch 1) 1)) ∧
        (x.setWp = true → ¬ up → is (.flashSetBlock ch q i) (overs ((set b.wp).fchClamp ch 1) 1))) ∧
      (∀ p, x.op = 5 → fine → x.planes = [p] →
        is (.flashGetBlock ch q i) (when' (Dev.fchAccs ch x ++ [e.fchEntry ch x.q])
          ((e.fchDst x.kind x.data 0 (leBytes 8 (e.fchGetWord ch x p))).fchComplete ch x.q x.tag 0 (b2n x.clamped) 0))) ∧
      -- several planes, one after the other
      (x.op = 4 → fine →
        let one := fun (r : Dev × Nat) (p : Nat) =>
          let k := pblkKey (dieNo ch x.target) p x.block
          let b := r.1.pblk k
          let far := decide (x.setMode = false ∧ x.wp ≠ wpFull ∧ cwCount b.slc < x.wp)
          let wp := if far = true then wpFull else x.wp
          let up := decide (b.wp = wpFull ∨ wp = wpFull ∨ b.wp ≤ wp)
          let n := (if far = true then 1 else 0) + (if x.setWp = true ∧ up = false then 1 else 0)
          ((r.1.setPblk k { wp := if x.setWp = true ∧ up = true then wp else b.wp, bad := b.bad || x.markBad, slc := if x.setMode then x.slc else b.slc }).fchClamp ch n,
            r.2 + n)
        let r := x.planes.foldl one (e, 0)
        is (.flashSetBlock ch q i) (overs r.1 (if x.clamped = true ∨ r.2 ≠ 0 then 1 else 0))) ∧
      (x.op = 5 → fine →
        is (.flashGetBlock ch q i) (when' (Dev.fchAccs ch x ++ [e.fchEntry ch x.q])
          ((x.planes.zipIdx.foldl (fun u p => u.fchDst x.kind x.data (8 * p.2) (leBytes 8 (u.fchGetWord ch x p.1))) e).fchComplete ch x.q x.tag 0
            (b2n x.clamped) 0)))) ∧
    (∀ (t : Fin 12), let y := d.die ch t
      (∀ good e, y.op = none → y.erase = none → is (.flashDieOpComplete ch t good e) d) ∧
      (∀ good e o, y.op = some o → o.kind = 1 → is (.flashDieOpComplete ch t good e)
        (when' (Dev.fchAccs ch o.desc ++ [d.fchEntry ch o.desc.q]) (d.fchReadDone s.aon ch t o e))) ∧
      (∀ good e o, y.op = some o → o.kind ≠ 1 →
        let u := d.setDie ch t { y with op := none }
        is (.flashDieOpComplete ch t good e) (when' [d.fchEntry ch o.desc.q]
          ((if good then u else u.fchMarkBad ch o.desc false).fchOver ch o.desc.q o.desc.tag (if good then 0 else 0x51) (b2n o.desc.clamped) 0))) ∧
      (∀ good e o, y.op = none → y.erase = some o →
        (y.susp = true → is (.flashDieOpComplete ch t good e) d) ∧
        (y.susp = false →
          let u := d.setDie ch t { y with erase := none, suspReq := false, suspCnt := 0 }
          is (.flashDieOpComplete ch t good e) (when' [d.fchEntry ch o.desc.q]
            ((if good then u.fchErase ch o.desc else u.fchMarkBad ch o.desc true).fchOver ch o.desc.q o.desc.tag (if good then 0 else 0x52) (b2n o.desc.clamped) 0)))) ∧
      (y.suspReq = true → y.erase.isSome = true → y.susp = false →
        is (.eraseSuspended ch t) ((d.setDie ch t { y with susp := true, suspReq := false, ran := y.ran + (d.now - y.at'), at' := d.now, suspCnt := y.suspCnt + 1 }).count
          (R.fchSuspCnt ch) (R.fchEvt ch) F.fchEvt_suspOvf)) ∧
      (y.suspReq = false ∨ y.erase = none ∨ y.susp = true → is (.eraseSuspended ch t) d) ∧
      (let resumed := d.setDie ch t { y with susp := false, suspReq := false, at' := d.now }
       let held := getF y.suspCfg F.fchSusp_hold * 10000 ≤ d.now - y.at'
       (y.susp = true → y.op = none → d.readWaits ch t = false → is (.eraseResume ch t) resumed) ∧
       (y.susp = false ∨ y.op.isSome = true ∨ d.readWaits ch t = true → is (.eraseResume ch t) d) ∧
       (y.susp = true → held → is (.eraseHoldExpire ch t) resumed) ∧
       (y.susp = false ∨ ¬ held → is (.eraseHoldExpire ch t) d)) ∧
      (d.mayReqSusp ch y = true → d.readWaits ch t = true → is (.eraseMinRunMet ch t) (d.setDie ch t { y with suspReq := true })) ∧
      (d.mayReqSusp ch y = false ∨ d.readWaits ch t = false → is (.eraseMinRunMet ch t) d) ∧
      (y.op = none → y.erase = none → exec (.dieTimeout ch t) s = .next s) ∧
      (∀ o, (y.op = some o ∧ y.erase = none) ∨ (y.op = none ∧ y.erase = some o) →
        let u := (d.setDie ch t { y with op := none, erase := none, susp := false, suspReq := false, failed := true }).fchOver ch o.desc.q o.desc.tag 0x56
          (b2n o.desc.clamped) 0
        let v := ((u.setFld (R.fchStatus ch) ⟨8 + t, 1⟩ 1).setFld (R.fchEvt ch) F.fchEvt_diefail 1).raise
          ⟨1, 0x0A, unitId 0x0B ch, unitId 0x0B ch, 9, 0#64, 0, false, false, none⟩
        exec (.dieTimeout ch t) s = .next (State.settled { s with dev := when' [d.fchCqRing ch o.desc.q] (v.ftlDieFailed ch t) })) ∧
      (∀ (pl : Fin 4) (b : BitVec 12) (cw : BitVec 13) (n : BitVec 37) (a : W64),
        let u := unitId 0x0B ch
        let bytes := rebuilt d (dieNo ch t) pl b.toNat cw.toNat n.toNat
        let overs := fun (good : Bool) (v : Dev) => exec (.parityRebuild ch t pl b cw n a good) s = .next (State.settled { s with dev := v })
        let ok : FaultReq := ⟨0, 0x08, u, u, 0, a, 0, false, false, none⟩
        (addrTier a = 1 ∨ addrTier a = 2 → overs true (when' [⟨a, 4096, true, 0⟩] ((d.fchPut a bytes).raise ok))) ∧
        (addrTier a ≠ 1 → addrTier a ≠ 2 → overs true (d.raise ok)) ∧
        overs false ((if n.toNat < userBlocks then d.poisonBlk n.toNat else d).raise ⟨1, 0x09, u, u, 0, a, 0, false, false, none⟩)))

/-- R395, R399, R401 to R408 (Table 15-1): the write buffer and the flash translation layer. The oldest waiting write is admitted when it may be, and
its command completes with its last block; dirty slots go to flash above HIWAT, with age, and at a drain; heat halves; a reclaim moves its
victim's blocks, and its end returns the superblock with one more erase; an idle device may collect; a measurement below 6 J turns
write-through on.
The model's own choices in it: log 5, 52, 68 and 80. -/
def Obligations.FlashTranslation : Prop :=
  ∀ (s : State), let d := s.dev
    let dest := fun (i : Instr) (u : Dev) => exec i s = .next (State.settled { s with dev := u })
    let is := fun (i : Instr) (u : Dev) => exec i s = .next { s with dev := u }
    let units := ((Tab.keys d.ftl.slots).map (· / 16)).eraseDups
    -- admission
    (d.ftl.waits = [] → dest .blockAdmission d) ∧
    (∀ w r, d.ftl.waits = w :: r →
      let may := d.ftl.admOpen = true ∧ ((Tab.find d.ftl.slots w.blk).isSome = true ∨ d.ftl.slots.length < wbSlots) ∧
        (d.gcLow ≤ d.sbF ∨ (d.gcCrit < d.sbF ∧ 4096 ≤ d.ftl.credit))
      let u := (d.setFtl (fun f => { f with waits := r })).admitVer w.blk (Dev.mergeVer (d.newest w.blk) w) w.trim
      (d.ftl.retired = false → d.sbNeed ≤ d.sbG → may → w.who = .none → dest .blockAdmission u) ∧
      (∀ p sq cid, d.ftl.retired = false → d.sbNeed ≤ d.sbG → may → w.who = .nvme p sq cid →
        dest .blockAdmission (if u.ftl.waits.any (fun x => x.who == w.who) then u else u.nvmeDone p sq cid 0 0 0#32 0#32 [])) ∧
      (d.ftl.retired = false → d.sbNeed ≤ d.sbG → ¬ may → dest .blockAdmission d) ∧
      (∀ p sq cid, d.ftl.retired = true → w.trim = false → w.who = .nvme p sq cid →
        dest .blockAdmission ((d.setFtl (fun f => { f with waits := f.waits.filter (fun x => x.who != w.who) })).nvmeDone p sq cid 0 0x20 0#32 0#32 []))) ∧
    -- a version admitted with room above LOW, and not in write-through mode
    (∀ (b : Nat) (v : LVer) (trim : Bool), d.gcLow ≤ d.sbF → b ∈ (d.unit (b / 16)).written → v.poisoned = false →
      d.flag R.ftlHoldup F.ftlHoldup_wt = false →
      d.admitVer b v trim = (d.setFtl (fun f => { f with
        slots := Tab.put f.slots b ⟨v, d.now, trim⟩, restored := f.restored.filter (· ≠ b), lastWrite := d.now, gcIdle := false })).addPair
          R.ftlUserwLo 4096 R.ftlEvt F.ftlEvt_wrap) ∧
    -- what is dirty goes to flash
    (∀ u : BitVec 33,
      (256 * d.ftl.slots.length ≤ wbSlots * d.fld R.wbcCtrl F.wbcCtrl_hiwat → is (.wbFlushToFlash u) d) ∧
      (wbSlots * d.fld R.wbcCtrl F.wbcCtrl_hiwat < 256 * d.ftl.slots.length → is (.wbFlushToFlash u) (d.flushUnit u.toNat)) ∧
      ((∀ b, 16 * u.toNat ≤ b → b < 16 * u.toNat + 16 → Tab.find d.ftl.slots b = none) → d.flushUnit u.toNat = d) ∧
      (∀ b x, 16 * u.toNat ≤ b → b < 16 * u.toNat + 16 → Tab.find d.ftl.slots b = some x →
        (∀ b', b' ≠ b → 16 * u.toNat ≤ b' → b' < 16 * u.toNat + 16 → Tab.find d.ftl.slots b' = none) →
        (d.unit u.toNat).fine = true → (d.unit u.toNat).written = [] →
        d.flushUnit u.toNat = (d.storeBlk b x.ver x.trim).setUnit u.toNat ⟨true, (d.unit u.toNat).heat, []⟩)) ∧
    (∀ b : BitVec 37,
      (Tab.find d.ftl.slots b.toNat = none → is (.wbSlotAge b) d) ∧
      (∀ x, Tab.find d.ftl.slots b.toNat = some x → d.now < x.at' + 1000000000 → is (.wbSlotAge b) d) ∧
      (∀ x, Tab.find d.ftl.slots b.toNat = some x → x.at' + 1000000000 ≤ d.now → is (.wbSlotAge b) (d.flushUnit (b.toNat / 16)))) ∧
    (∀ r, d.busAns r R.wbcCtrl true = .ok →
      let u := units.foldl (fun d n => d.flushUnit n) d
      is (.wbcDrain r) { u with ftl := { u.ftl with regionSeq := u.ftl.seq, tail := [] } }) ∧
    is .heatDecay { d with ftl := { d.ftl with units := d.ftl.units.map (fun p => (p.1, { p.2 with heat := p.2.heat / 2 })) } } ∧
    -- collection
    (let low := d.sbF < d.gcLow
     let due := low ∨ (d.sbF < d.gcHigh ∧ d.ftl.gcIdle = true) ∨ ∃ p ∈ d.ftl.sbs, p.2.failed = true ∧ p.2.use = .closed
     (d.ftl.victim.isSome = true ∨ d.ftl.ready = false ∨ ¬ due ∨ d.gcVictim = none → is .gcReclaim d) ∧
     (∀ v, d.ftl.victim = none → d.ftl.ready = true → due → d.gcVictim = some v →
       let u := (d.gcCopy v).jot .eraseIntent v
       is .gcReclaim (u.setFtl (fun f => { f with
         victim := some (v, decide low, d.validOf v), intents := v :: f.intents
         lim0 := d.reg R.ftlGcLim0, lim1 := d.reg R.ftlGcLim1, heatCfg := d.reg R.ftlHeat
         sbs := Tab.store f.sbs v { Tab.getD f.sbs v Sb.fresh with use := .reclaiming } Sb.fresh })))) ∧
    (d.ftl.victim = none → is .gcReclaimComplete d) ∧
    (∀ v fg n, d.ftl.victim = some (v, fg, n) → d.groupFailed v = false → (d.sb v).failed = false →
      let x := d.sb v
      let e := (d.jot .eraseDone v).setFtl (fun f => { f with victim := none, intents := f.intents.filter (· ≠ v) })
      let u := (e.setSb v { x with use := .free, used := 0, wear := min 65535 (x.wear + 1), slc := false, failed := false }).count R.ftlGcCnt R.ftlEvt F.ftlEvt_gcOvf
      (u.gcLow ≤ u.sbF → is .gcReclaimComplete (u.setFtl (fun f => { f with credit := 0 }))) ∧
      (u.sbF < u.gcLow → fg = false → is .gcReclaimComplete u) ∧
      (u.sbF < u.gcLow → fg = true → is .gcReclaimComplete (u.setFtl (fun f => { f with
        credit := f.credit + (4096 * sbBlocks x.slc - 4096 * n) * (u.sbF - u.gcCrit) / (u.gcLow - u.gcCrit) })))) ∧
    (d.ftl.lastWrite + getF d.ftl.lim1 F.ftlGcLim1_idleMs * 1000000 ≤ d.now → is .gcIdleTimer { d with ftl := { d.ftl with gcIdle := true } }) ∧
    (d.now < d.ftl.lastWrite + getF d.ftl.lim1 F.ftlGcLim1_idleMs * 1000000 → is .gcIdleTimer d) ∧
    -- hold-up
    (∀ mj : BitVec 16, let wt := decide (mj.toNat < 6000)
      let u := d.setFlds R.ftlHoldup [(F.ftlHoldup_mj, mj.toNat), (F.ftlHoldup_wt, b2n wt)]
      (wt = false ∨ d.flag R.ftlHoldup F.ftlHoldup_wt = true → is (.holdupMeasure mj) u) ∧
      (wt = true → d.flag R.ftlHoldup F.ftlHoldup_wt = false →
        is (.holdupMeasure mj) (units.foldl (fun d n => d.flushUnit n) (u.setFld R.ftlEvt F.ftlEvt_wt 1))))

/-- R402, R403, R430 to R432, R435, R439, R440, R442 (opcodes and places of fields are the standards', log 44): I/O commands. A controller that is not live,
or a queue that it has not, takes no command; one that comes with nothing outstanding on its queue starts at once, and completes as its
rule says.
The model's own choices in it: log 3, 22 and 44. -/
def Obligations.IoCommands : Prop :=
  ∀ (p : Fin 4) (q : NvmeCmd) (s : State), let d := s.dev
    let live := d.ctrlLive p = true ∧ q.sq ≠ 0 ∧ (Tab.find (d.ctrl p).sqs q.sq).isSome = true
    let ready := live ∧ (d.ctrl p).ps < 3 ∧ ∀ o ∈ (d.ctrl p).outst, o.cmd.sq ≠ q.sq
    let took := fun (k : OutCmd) => d.modCtrl p (fun c => { c with outst := c.outst ++ [⟨q, k, q.d13.getLsbD 15, true, none, none, 0, 0⟩] })
    let dest := fun (i : Fin 4 → NvmeCmd → Instr) (u : Dev) => exec (i p q) s = .next (State.settled { s with dev := u })
    (∀ i ∈ ([.nvmFlush, .nvmWrite, .nvmRead, .nvmWriteUncorrectable, .nvmCompare, .nvmWriteZeroes, .nvmDatasetManagement, .nvmVerify, .executeProgram, .loadProgram,
        .programActivationManagement, .memoryRangeSetManagement, .slmRead, .slmWrite, .memoryCopy, .search, .searchLargeK, .collectionAppend, .collectionDelete] :
        List (Fin 4 → NvmeCmd → Instr)), ¬ live → dest i d) ∧
    (ready →
      -- NVM commands
      (q.nsid = 0xFFFFFFFF ∨ (∃ n, d.ns? q.nsid = some n ∧ p.val ∈ n.attached) → dest .nvmFlush ((took .other).good p q)) ∧
      (q.nsid ≠ 0xFFFFFFFF → d.ns? q.nsid = none → dest .nvmFlush ((took .other).done p q 0 0x0B [])) ∧
      (∀ r ∈ ([(.nvmWrite, .write, true), (.nvmRead, .read, false), (.nvmWriteUncorrectable, .write, true), (.nvmCompare, .read, false), (.nvmWriteZeroes, .write, true),
          (.nvmVerify, .read, false)] : List ((Fin 4 → NvmeCmd → Instr) × OutCmd × Bool)),
        (d.ns? q.nsid = none → dest r.1 ((took r.2.1).done p q 0 0x0B [])) ∧
        (∀ n, d.ns? q.nsid = some n →
          (p.val ∉ n.attached → dest r.1 ((took r.2.1).done p q 0 0x0B [])) ∧
          (p.val ∈ n.attached → n.size < Dev.slba q + Dev.nlb q → dest r.1 ((took r.2.1).done p q 0 0x80 [])) ∧
          (p.val ∈ n.attached → Dev.slba q + Dev.nlb q ≤ n.size → s.locked q.nsid (Dev.slba q) (Dev.nlb q) r.2.2 = true →
            dest r.1 ((took r.2.1).done p q 2 0x86 [])))) ∧
      (∀ n b, d.ns? q.nsid = some n → p.val ∈ n.attached → Dev.slba q + Dev.nlb q ≤ n.size → Dev.lbas n (Dev.slba q) (Dev.nlb q) = [b] →
        -- what is written is admitted at once where it may be
        (s.locked q.nsid (Dev.slba q) (Dev.nlb q) true = false → d.ftl.waits = [] → d.sbNeed ≤ d.sbG → d.canAdmit b = true →
          let v := took .write
          let z := if n.lbaf = 1 then 4160 else 4096
          let l := q.data.take z
          let whole : AdmWait := ⟨b, Memory.write [] 0 (l.take 4096), [(0, 4096)], some (Cells.of (l.drop 4096)), false, false, .nvme p q.sq q.cid⟩
          let poison : AdmWait := ⟨b, [], [], none, false, true, .nvme p q.sq q.cid⟩
          let zero : AdmWait := ⟨b, [], [(0, 4096)], some [], q.d12.getLsbD 25, false, .nvme p q.sq q.cid⟩
          let made := fun (w : AdmWait) => (v.admitVer b (Dev.mergeVer (v.newest b) w) w.trim).good p q
          dest .nvmWrite (made whole) ∧ dest .nvmWriteUncorrectable (made poison) ∧ dest .nvmWriteZeroes (made zero)) ∧
        (s.locked q.nsid (Dev.slba q) (Dev.nlb q) true = false → d.ftl.retired = true → d.sbNeed ≤ d.sbG →
          let v := took .write
          dest .nvmWrite (v.done p q 0 0x20 []) ∧ dest .nvmWriteUncorrectable (v.done p q 0 0x20 []) ∧ dest .nvmWriteZeroes (v.done p q 0 0x20 [])) ∧
        -- what is read is the newest version
        (∀ v e, s.locked q.nsid (Dev.slba q) (Dev.nlb q) false = false → (took .read).sampleBlk b = (v, e) →
          let bytes := v.data.bytes 4096 ++ (if n.lbaf = 1 then v.side.bytes 64 else [])
          (v.poisoned = true →
            let bad := (e.modCtrl p (fun c => { c with mediaErrs := c.mediaErrs + 1 })).done p q 2 0x81 []
            dest .nvmRead bad ∧ dest .nvmCompare bad ∧ dest .nvmVerify bad) ∧
          (v.poisoned = false → dest .nvmRead (e.done p q 0 0 bytes) ∧ dest .nvmVerify (e.good p q) ∧
            (q.data.take bytes.length = bytes → dest .nvmCompare (e.good p q)) ∧
            (q.data.take bytes.length ≠ bytes → dest .nvmCompare (e.done p q 2 0x85 []))))) ∧
      (∀ n, d.ns? q.nsid = some n → p.val ∈ n.attached → s.locked q.nsid 0 n.size true = false →
        (q.d11.getLsbD 2 = false → dest .nvmDatasetManagement ((took .write).good p q)) ∧
        (q.d11.getLsbD 2 = true → q.d10.toNat % 256 = 0 →
          let lo := leVal ((q.data.drop 8).take 8)
          let cnt := leVal ((q.data.drop 4).take 4)
          (n.size < lo + cnt → dest .nvmDatasetManagement ((took .write).done p q 0 0x80 [])) ∧
          (lo + cnt ≤ n.size → d.ftl.retired = true → dest .nvmDatasetManagement
            ((((Dev.lbas n lo cnt).filter (fun b => d.mapped b)).foldl (fun d b => d.trimBlk b) (took .write)).good p q)))) ∧
      -- programs
      (let u := took .other
       let i := q.d10.toNat % 65536
       let size := q.d11.toNat
       let at' := q.d12.toNat
       (64 ≤ i ∨ 0x1000000 < size ∨ size < at' + q.data.length → dest .loadProgram (u.badField p q)) ∧
       (i < 64 → size ≤ 0x1000000 → at' + q.data.length ≤ size →
         let v := u.lwrite 2 (0x800000000 + i * 0x1000000 + at') q.data
         let w : Dev := { v with host := { v.host with progs := Tab.put v.host.progs i ⟨size, false⟩ } }
         dest .loadProgram (w.ended p q 0 0 0#32 [])) ∧
       (Tab.find d.host.progs i = none → dest .programActivationManagement (u.badField p q)) ∧
       (∀ g, Tab.find d.host.progs i = some g →
         let w : Dev := { u with host := { u.host with progs := Tab.put u.host.progs i ⟨g.size, q.d11.getLsbD 0⟩ } }
         dest .programActivationManagement (w.ended p q 0 0 0#32 [])) ∧
       (let ws := Dev.wordsOf 16 q.data
        let part := bits64 (ws.getD 10 0#64) 0 4
        let v := took .execute
        (d.portMay p part = false → dest .executeProgram (v.denied p q)) ∧
        (d.portMay p part = true → (∀ g, Tab.find d.host.progs i = some g → g.active = false) → dest .executeProgram (v.ended p q 0x71 0 0#32 [])) ∧
        (∀ g, d.portMay p part = true → Tab.find d.host.progs i = some g → g.active = true →
          dest .executeProgram (v.submit part ⟨ws.set 0 (mkAddr d.nodeId 2 (0x800000000 + i * 0x1000000)), 0, some (p, q.sq, q.cid), 32⟩))) ∧
       -- range sets
       (let sel := q.d10.toNat % 16
        let n := Tab.firstFree d.host.ranges 16 0
        let m := q.d10.toNat / 65536
        let with' := fun (t : Tab (List Byte)) => ({ u with host := { u.host with ranges := t } } : Dev)
        (sel = 0 → 16 ≤ n → dest .memoryRangeSetManagement (u.badField p q)) ∧
        (sel = 0 → n < 16 → dest .memoryRangeSetManagement ((with' (Tab.put u.host.ranges n q.data)).ended p q 0 0 (BitVec.ofNat 32 n) [])) ∧
        (sel = 1 → Tab.find d.host.ranges m = none → dest .memoryRangeSetManagement (u.badField p q)) ∧
        (sel = 1 → Tab.find d.host.ranges m ≠ none → dest .memoryRangeSetManagement ((with' (Tab.del u.host.ranges m)).ended p q 0 0 0#32 [])) ∧
        (2 ≤ sel → dest .memoryRangeSetManagement (u.badField p q)))) ∧
      -- the memory namespaces
      (q.nsid < 129 ∨ 144 < q.nsid → dest .slmRead ((took .other).done p q 0 0x0B []) ∧ dest .slmWrite ((took .other).done p q 0 0x0B [])) ∧
      (∀ part, part < 16 → q.nsid = 129 + part →
        let o := q.d10.toNat + 2 ^ 32 * q.d11.toNat
        let n := q.d12.toNat
        let u := took .other
        let l := d.slmRuns part o n
        (d.portMay p part = false → dest .slmRead (u.denied p q) ∧ dest .slmWrite (u.denied p q)) ∧
        (d.portMay p part = true → 0x10000000 < n → dest .slmRead (u.badField p q) ∧ dest .slmWrite (u.badField p q)) ∧
        (d.portMay p part = true → n ≤ 0x10000000 → (∀ r ∈ l, r.2.2.2.2 = true) →
          (d.slmReady l false = false → dest .slmRead (d.slmAsk l false)) ∧
          (d.slmReady l true = false → dest .slmWrite (d.slmAsk l true)) ∧
          (∀ bs e, d.slmReady l false = true → u.slmGet p l = (bs, false, e) → dest .slmRead (e.ended p q 0 0 0#32 bs)) ∧
          (∀ bs e, d.slmReady l false = true → u.slmGet p l = (bs, true, e) →
            dest .slmRead ((e.modCtrl p (fun c => { c with mediaErrs := c.mediaErrs + 1 })).done p q 2 0x81 [])) ∧
          (∀ e, d.slmReady l true = true → u.slmRo l = (false, e) → dest .slmWrite ((e.slmPut l q.data).ended p q 0 0 0#32 [])) ∧
          (∀ e, d.slmReady l true = true → u.slmRo l = (true, e) → dest .slmWrite (e.ended p q 0x58 0 0#32 []))) ∧
        -- a copy from a namespace into this one
        (∀ from' x, from' = leVal (q.data.take 4) → (from' < 129 ∨ 144 < from') → d.ns? from' = some x → d.portMay p part = true → p.val ∈ x.attached →
          n ≤ 0x10000000 → leVal ((q.data.drop 8).take 8) + ceilDiv n 4096 ≤ x.size → s.locked from' (leVal ((q.data.drop 8).take 8)) (ceilDiv n 4096) false = false →
          d.slmReady l true = true →
          ∀ vs e, u.sampleAll (Dev.lbas x (leVal ((q.data.drop 8).take 8)) (ceilDiv n 4096)) = (vs, e) →
            ((∃ v ∈ vs, v.poisoned = true) → dest .memoryCopy ((e.modCtrl p (fun c => { c with mediaErrs := c.mediaErrs + 1 })).done p q 2 0x81 [])) ∧
            ((∀ v ∈ vs, v.poisoned = false) → dest .memoryCopy (e.slmWrite p q part l (vs.flatMap (fun v => v.data.bytes 4096)))))) ∧
      -- searches and changes of collections
      (let part := q.d15.toNat % 16
       let coll := q.d12.toNat % 1024
       (d.portMay p part = false → dest .search ((took .search).denied p q) ∧ dest .searchLargeK ((took .search).denied p q) ∧
         dest .collectionAppend ((took .other).denied p q) ∧ dest .collectionDelete ((took .other).denied p q)) ∧
       (d.portMay p part = true →
         (∀ r ∈ ([(.search, false), (.searchLargeK, true)] : List ((Fin 4 → NvmeCmd → Instr) × Bool)), ∃ m j,
           let v := ((took .search).hostClamp p m).addJob j
           dest r.1 (v.2.modCtrl p (fun t => { t with outst := t.outst.map (fun o => if o.cmd.sq = q.sq && o.cmd.cid = q.cid then { o with job := some v.1 } else o) })) ∧
             j.coll = coll ∧ j.part = part ∧ j.large = r.2 ∧ j.who = .nvme p q.sq q.cid ∧ j.dst = none ∧ j.found = (d.collFor coll part).isSome ∧
             j.k = (if r.2 then clampTo 65 (2 ^ 20) (q.d14.toNat % 2 ^ 21) else clampTo 1 64 (bitsOf q.d12.toNat 10 7))) ∧
         (d.collFor coll part = none → ∀ r ∈ ([.collectionAppend, .collectionDelete] : List (Fin 4 → NvmeCmd → Instr)), q.d11 = 0#32 →
           dest r (((took .other).hostClamp p 1).nvmeStatus p q.sq q.cid 0 1 0 0#32 [])) ∧
         (∀ c, d.collFor coll part = some c → q.d11 = 0#32 →
           (8 * q.d14.toNat ≤ 4 * q.d10.toNat → q.data.length = 8 * q.d14.toNat →
             dest .collectionDelete ((took .other).addChange coll ⟨.delete ((List.range q.d14.toNat).map (fun i => leVal ((q.data.drop (8 * i)).take 5))), .nvme p q.sq q.cid, 0, 0#64⟩)) ∧
           (let z := if q.d15.getLsbD 4 then 4 * (8 + c.dim) else 32 + c.dim
            let rs := (List.range q.d14.toNat).map (fun i => recordOf c (q.d15.getLsbD 4) ((q.data.drop (i * z)).take z))
            q.d14.toNat * z ≤ 4 * q.d10.toNat → q.data.length = q.d14.toNat * z → (∀ r ∈ rs, r.2 = false) →
             dest .collectionAppend ((took .other).addChange coll ⟨.append (rs.map (·.1)), .nvme p q.sq q.cid, 0, 0#64⟩))))))

/-- R426 to R434, R436, R437, R440, R444, R500, R501, R510 (opcodes and places of fields are the standards', log 44): admin and vendor commands. One that comes to a
live controller with no other admin command outstanding starts at once, changes what its rule names, and completes; where a field names
nothing that there is, it completes with the status that says so.
The model's own choices in it: log 22, 44 and 59. -/
def Obligations.AdminCommands : Prop :=
  ∀ (p : Fin 4) (q : NvmeCmd) (s : State), let d := s.dev
    let live := d.ctrlLive p = true ∧ q.sq = 0
    let ready := live ∧ ∀ o ∈ (d.ctrl p).outst, o.cmd.sq ≠ 0
    let u := d.modCtrl p (fun c => { c with outst := c.outst ++ [⟨q, .other, false, true, none, none, 0, 0⟩] })
    let st : State := { s with dev := u }
    let dest := fun (i : Fin 4 → NvmeCmd → Instr) (v : Dev) => exec (i p q) s = .next (State.settled { s with dev := v })
    let full := fun (i : Fin 4 → NvmeCmd → Instr) (t : State) => exec (i p q) s = .next t.settled
    let c := d.ctrl p
    let lo := q.d10.toNat % 65536
    let hi := q.d10.toNat / 65536
    (∀ i ∈ ([.createIoSubmissionQueue, .deleteIoSubmissionQueue, .createIoCompletionQueue, .deleteIoCompletionQueue, .getLogPage, .identify, .setFeatures, .getFeatures,
        .namespaceManagement, .namespaceAttachment, .formatNvm, .sanitize, .nvmeMiSend, .nvmeMiReceive, .firmwareImageDownload, .firmwareCommit, .securitySend, .securityReceive] :
        List (Fin 4 → NvmeCmd → Instr)), ¬ live → dest i d) ∧
    (¬ live → exec (.nvmeAbort p q) s = .next s ∧ exec (.asynchronousEventRequest p q) s = .next s) ∧
    -- Abort and Asynchronous Event Request run beside the others
    (live →
      (let fin := fun (v : Dev) (n : Nat) => v.postCpl p ⟨0, q.cid, 0, 0, BitVec.ofNat 32 n, 0#32, []⟩
       let hit := fun (v : Dev) => (v.count (R.hostAbortCnt p) (R.hostEvt p) F.hostEvt_abortOvf).setFld (R.hostEvt p) F.hostEvt_aborted 1
       (∀ o, c.outst.find? (fun o => o.cmd.sq == lo && o.cmd.cid == hi && o.flags == 0) = some o → dest .nvmeAbort (fin (hit (d.abortOne p o 1)) 0)) ∧
       ((∀ o ∈ c.outst, o.cmd.sq = lo → o.cmd.cid = hi → o.flags ≠ 0) → (lo ≠ 0 ∨ hi ∉ c.aers) → dest .nvmeAbort (fin d 1)) ∧
       ((∀ o ∈ c.outst, o.cmd.sq = lo → o.cmd.cid = hi → o.flags ≠ 0) → lo = 0 → hi ∈ c.aers → dest .nvmeAbort (fin (hit
         ((d.modCtrl p (fun c => { c with aers := c.aers.filter (· ≠ hi) })).postCpl p ⟨0, hi, 0, 7, 0#32, 0#32, []⟩)) 0))) ∧
      (16 ≤ c.aers.length → dest .asynchronousEventRequest (d.postCpl p ⟨0, q.cid, 1, 5, 0#32, 0#32, []⟩)) ∧
      (c.aers.length < 16 → c.events = [] → dest .asynchronousEventRequest (d.modCtrl p (fun c => { c with aers := c.aers ++ [q.cid] }))) ∧
      (∀ e es, c.aers = [] → c.events = e :: es → dest .asynchronousEventRequest
        ((d.modCtrl p (fun c => { c with aers := [], events := es })).postCpl p ⟨0, q.cid, 0, 0, e, 0#32, []⟩))) ∧
    (ready →
      -- queues
      (let bad := lo = 0 ∨ 256 < lo
       let size := hi = 0 ∨ 4095 < hi
       let cq := q.d11.toNat / 65536
       (bad ∨ (Tab.find c.cqs lo).isSome = true → dest .createIoCompletionQueue (u.done p q 1 1 [])) ∧
       (¬ bad → Tab.find c.cqs lo = none → size → dest .createIoCompletionQueue (u.done p q 1 2 [])) ∧
       (¬ bad → Tab.find c.cqs lo = none → ¬ size → q.d11.getLsbD 0 = true → cq < 257 →
         dest .createIoCompletionQueue ((u.modCtrl p (fun c => { c with cqs := Tab.put c.cqs lo ⟨hi + 1, 0, 0⟩ })).good p q)) ∧
       (Tab.find c.cqs cq = none → dest .createIoSubmissionQueue (u.done p q 1 0 [])) ∧
       (¬ bad → (Tab.find c.cqs cq).isSome = true → Tab.find c.sqs lo = none → ¬ size → q.d11.getLsbD 0 = true →
         dest .createIoSubmissionQueue ((u.modCtrl p (fun c => { c with sqs := Tab.put c.sqs lo ⟨hi + 1, cq, q.d11.toNat / 2 % 4⟩ })).good p q)) ∧
       (Tab.find c.sqs lo = none → dest .deleteIoSubmissionQueue (u.done p q 1 1 [])) ∧
       ((Tab.find c.sqs lo).isSome = true → lo ≠ 0 → (∀ o ∈ c.outst, o.cmd.sq ≠ lo) →
         dest .deleteIoSubmissionQueue ((u.modCtrl p (fun c => { c with sqs := Tab.del c.sqs lo })).good p q)) ∧
       (Tab.find c.cqs lo = none → dest .deleteIoCompletionQueue (u.done p q 1 1 [])) ∧
       ((Tab.find c.cqs lo).isSome = true → (∃ x ∈ c.sqs, x.2.cq = lo) → dest .deleteIoCompletionQueue (u.done p q 1 0x0C [])) ∧
       ((Tab.find c.cqs lo).isSome = true → (∀ x ∈ c.sqs, x.2.cq ≠ lo) →
         dest .deleteIoCompletionQueue ((u.modCtrl p (fun c => { c with cqs := Tab.del c.cqs lo })).good p q))) ∧
      -- log pages and data structures
      (let n := 4 * (q.d10.toNat / 65536 + 65536 * (q.d11.toNat % 65536) + 1)
       let off := q.d12.toNat + 2 ^ 32 * q.d13.toNat
       let page := q.d10.toNat % 256
       let l := structOf 512 [(0, [BitVec.ofNat 8 (s.aon.active + 16 * s.aon.pendAct.getD 0)]), (8, fwRev s.aon.img1), (16, fwRev s.aon.img2)]
       (page = 3 → off ≤ 512 → dest .getLogPage (u.done p q 0 0 ((l.drop off).take n))) ∧
       (page = 0xC0 → dest .getLogPage (u.done p q 0 0 (s.logBytes off (min n (32 + 32 * s.aon.log.length - off))))) ∧
       (page ∉ [1, 2, 3, 4, 5, 0x0D, 0xC0] → dest .getLogPage (u.done p q 1 9 [])) ∧
       (page = 1 → dest .identify (u.done p q 0 0 (State.idController st p))) ∧
       (∀ x, page = 0 → d.ns? q.nsid = some x → p.val ∈ x.attached → dest .identify (u.done p q 0 0 (State.idNamespace u x))) ∧
       (page = 0 → d.ns? q.nsid = none → q.nsid ≠ 0xFFFFFFFF → (q.nsid < 129 ∨ 144 < q.nsid) → dest .identify (u.done p q 0 0x0B []))) ∧
      -- features
      (let fid := q.d10.toNat % 256
       let sel := q.d10.toNat / 256 % 8
       let key := Dev.featKey fid q.d11
       (Dev.featKnown fid = false → dest .getFeatures (u.badField p q) ∧ dest .setFeatures (u.badField p q)) ∧
       (Dev.featKnown fid = true → sel = 0 → fid ≠ 2 → fid ≠ 0x0C → fid ≠ 0x0E →
         dest .getFeatures (u.nvmeDone p 0 q.cid 0 0 (Tab.getD c.feats key (Dev.featDefault key)) 0#32 [])) ∧
       (Dev.featKnown fid = true → sel = 1 → dest .getFeatures (u.nvmeDone p 0 q.cid 0 0 (Dev.featDefault key) 0#32 [])) ∧
       (Dev.featKnown fid = true → sel = 2 → dest .getFeatures (u.nvmeDone p 0 q.cid 0 0 (Tab.getD c.saved key (Dev.featDefault key)) 0#32 [])) ∧
       (Dev.featKnown fid = true → fid ∉ [2, 7, 9, 0x0C, 0x0E] → dest .setFeatures ((u.modCtrl p (fun c => { c with
         feats := Tab.put c.feats key q.d11, saved := if q.d10.getLsbD 31 then Tab.put c.saved key q.d11 else c.saved })).nvmeDone p 0 q.cid 0 0 0#32 0#32 [])) ∧
       (let ps := q.d11.toNat % 32
        (fid = 2 → 4 < ps ∨ (ps = 4 ∧ d.mayPs4 = false) → dest .setFeatures (u.badField p q)) ∧
        (fid = 2 → ps ≤ 4 → (ps ≠ 4 ∨ d.mayPs4 = true) → full .setFeatures (st.onDev (fun d => ((d.setPs p ps).modCtrl p (fun c => { c with
          saved := if q.d10.getLsbD 31 then Tab.put c.saved 2 q.d11 else c.saved })).good p q)).updateCap))) ∧
      -- namespaces
      (let h := fun (o n : Nat) => leVal ((q.data.drop o).take n)
       let op := q.d10.toNat % 16
       let size := h 0 8
       let lbaf := h 26 1 % 16
       let id := Tab.firstFree d.host.nss 128 1
       let fine := size ≠ 0 ∧ size % 16 = 0 ∧ h 8 8 = size ∧ lbaf ≤ 1 ∧ h 29 1 = 0
       (op = 0 → ¬ fine → dest .namespaceManagement (u.badField p q)) ∧
       (op = 0 → fine → 128 < id → dest .namespaceManagement (u.done p q 1 0x16 [])) ∧
       (op = 0 → fine → id ≤ 128 → u.nsExtents size = none → dest .namespaceManagement (u.done p q 1 0x15 [])) ∧
       (∀ ex e, op = 0 → fine → id ≤ 128 → u.nsExtents size = some (ex, e) →
         let v : Dev := { e with host := { e.host with nss := Tab.put e.host.nss id ⟨size, lbaf, ex, []⟩ } }
         dest .namespaceManagement (v.nvmeDone p 0 q.cid 0 0 (BitVec.ofNat 32 id) 0#32 [])) ∧
       (op = 1 → q.nsid ≠ 0xFFFFFFFF → d.ns? q.nsid = none → dest .namespaceManagement (u.done p q 0 0x0B [])) ∧
       (∀ x, op = 1 → q.nsid ≠ 0xFFFFFFFF → d.ns? q.nsid = some x →
         let e := u.trimAll x.extents
         let v : Dev := { e with host := { e.host with nss := Tab.del u.host.nss q.nsid } }
         dest .namespaceManagement ((v.nsNotice (some p) q.nsid x.attached).good p q)) ∧
       (2 ≤ op → dest .namespaceManagement (u.badField p q)) ∧
       (let ids := (List.range (min 2047 (h 0 2))).map (fun i => h (2 + 2 * i) 2)
        (d.ns? q.nsid = none → dest .namespaceAttachment (u.done p q 0 0x0B [])) ∧
        (∀ x, d.ns? q.nsid = some x → op ≤ 1 → ids ≠ [] → (∀ i ∈ ids, d.portUsed i = true) →
          let set := fun (l : List Nat) => ({ u with host := { u.host with nss := Tab.put u.host.nss q.nsid { x with attached := l } } } : Dev)
          (op = 0 → (∃ i ∈ ids, i ∈ x.attached) → dest .namespaceAttachment (u.done p q 1 0x18 [])) ∧
          (op = 1 → (∃ i ∈ ids, i ∉ x.attached) → dest .namespaceAttachment (u.done p q 1 0x1A [])) ∧
          (op = 0 → (∀ i ∈ ids, i ∉ x.attached) → dest .namespaceAttachment (((set (x.attached ++ ids)).nsNotice (some p) q.nsid ids).good p q)) ∧
          (op = 1 → (∀ i ∈ ids, i ∈ x.attached) →
            dest .namespaceAttachment (((set (x.attached.filter (fun i => !ids.contains i))).nsNotice (some p) q.nsid ids).good p q))) ∧
        (∀ x, d.ns? q.nsid = some x → op ≤ 1 → (ids = [] ∨ ∃ i ∈ ids, d.portUsed i = false) → dest .namespaceAttachment (u.done p q 1 0x1C []))) ∧
       -- format and erase
       (let ses := q.d10.toNat / 512 % 8
        (q.nsid ≠ 0xFFFFFFFF → d.ns? q.nsid = none → dest .formatNvm (u.done p q 0 0x0B [])) ∧
        (∀ x, q.nsid ≠ 0xFFFFFFFF → d.ns? q.nsid = some x →
          (1 < op → dest .formatNvm (u.done p q 1 0x0A [])) ∧
          (op ≤ 1 → 2 < ses ∨ q.d10.toNat / 32 % 8 ≠ 0 → dest .formatNvm (u.badField p q)) ∧
          (op ≤ 1 → ses ≤ 2 → q.d10.toNat / 32 % 8 = 0 →
            let t := if ses = 0 then st else st.cryptErase (st.nsSlots q.nsid) false
            let e := t.dev.trimAll x.extents
            let v : Dev := { e with host := { e.host with nss := Tab.put e.host.nss q.nsid { x with lbaf := op } } }
            t.dev.ns? q.nsid = some x →
            full .formatNvm { t with dev := (v.nsNotice (some p) q.nsid x.attached).good p q })) ∧
        (q.d10.toNat % 8 = 1 → dest .sanitize (u.good p q)) ∧
        (q.d10.toNat % 8 = 4 → full .sanitize ((st.cryptErase (List.range 145) true).onDev (fun d => d.good p q))) ∧
        (q.d10.toNat % 8 ≠ 1 → q.d10.toNat % 8 ≠ 4 → dest .sanitize (u.badField p q)))) ∧
      -- updates
      (let n := 4 * (q.d10.toNat + 1)
       let fs := q.d10.toNat % 8
       let ca := q.d10.toNat / 8 % 8
       let slot := if fs = 0 then s.aon.other else fs
       let other := ∃ x, s.aon.update = some x ∧ x.path ≠ .nvme
       (other → dest .firmwareImageDownload (u.done p q 0 0x0C [])) ∧
       (¬ other → s.aon.piece .nvme (4 * q.d11.toNat) ((q.data ++ List.replicate n 0#8).take n) = none → dest .firmwareImageDownload (u.badField p q)) ∧
       (∀ a, ¬ other → s.aon.piece .nvme (4 * q.d11.toNat) ((q.data ++ List.replicate n 0#8).take n) = some a →
         full .firmwareImageDownload { st with aon := a, dev := u.good p q }) ∧
       (4 ≤ ca → dest .firmwareCommit (u.badField p q)) ∧
       (ca < 4 → 2 < fs → dest .firmwareCommit (u.done p q 1 6 [])) ∧
       (ca = 2 → fs ≤ 2 → s.aon.slotValid slot = true →
         full .firmwareCommit { st with aon := { s.aon with pendAct := some slot }, dev := u.good p q }) ∧
       (ca = 2 → fs ≤ 2 → s.aon.img slot = none → full .firmwareCommit ((st.secEvent 0x0004 0x6A).onDev (fun d => d.done p q 1 7 []))) ∧
       (∀ m k, ca = 2 → fs ≤ 2 → s.aon.img slot = some m → imgCheck s.aon m = some k →
         full .firmwareCommit (((if k = 0x68 then st.authFailed 1 else st).secEvent 0x0004 k).onDev (fun d => d.done p q 1 7 []))) ∧
       (ca < 2 → fs ≤ 2 → ¬ other → slot ≠ s.aon.other → dest .firmwareCommit (u.done p q 1 6 [])) ∧
       (∀ k t, ca < 2 → fs ≤ 2 → ¬ other → slot = s.aon.other → st.storeImage = (some k, t) → full .firmwareCommit (t.onDev (fun d => d.done p q 1 7 []))) ∧
       (∀ t, ca = 0 → fs ≤ 2 → ¬ other → slot = s.aon.other → st.storeImage = (none, t) → full .firmwareCommit (t.onDev (fun d => d.good p q))) ∧
       (∀ t, ca = 1 → fs ≤ 2 → ¬ other → slot = s.aon.other → st.storeImage = (none, t) →
         full .firmwareCommit ((t.onAon (fun a => { a with pendAct := some a.other })).onDev (fun d => d.good p q)))) ∧
      -- security protocols, and management in band
      (let sp := q.d10.toNat / 2 ^ 24
       (sp ≠ 1 → dest .securitySend (u.badField p q)) ∧
       (sp = 1 →
         let v : Dev := { u with draws := u.draws + 1 }
         let pass := (Config.freeWord d.draws).toNat % 2 = 1
         let fin := fun (t : State) (b : Byte) => t.onDev (fun d => ({ d with host := { d.host with sec := [b] } } : Dev).good p q)
         (¬ pass → full .securitySend (fin { s with dev := v } 1#8)) ∧
         (pass → full .securitySend (fin (({ s with dev := v } : State).opalDo q.data) 0#8))) ∧
       (sp = 1 → dest .securityReceive (({ u with host := { u.host with sec := [] } } : Dev).done p q 0 0 (d.host.sec.take q.d11.toNat))) ∧
       (1 < sp → dest .securityReceive (u.badField p q)) ∧
       dest .nvmeMiReceive (u.done p q 0 0 d.host.mi) ∧
       (let kept := fun (t : State) => ({ t with
          aon := { t.aon with reply := s.aon.reply }
          dev := { t.dev with host := { t.dev.host with mi := t.aon.reply } } } : State).onDev (fun d => d.good p q)
        (∀ t, q.d11.toNat % 256 = 1 → exec (.nvmSubsystemHealthStatusPoll (decide (2 ^ 31 ≤ q.d13.toNat))) st = .next t → full .nvmeMiSend (kept t)) ∧
        (∀ t, q.d11.toNat % 256 = 5 → exec (.vpdRead (BitVec.ofNat 16 q.d12.toNat) (BitVec.ofNat 16 q.d13.toNat)) st = .next t → full .nvmeMiSend (kept t)) ∧
        (7 < q.d11.toNat % 256 → full .nvmeMiSend (kept (st.answer [3#8])))))) ∧
    -- an opcode that there is not
    (∀ opc : BitVec 8,
      (q.sq = 0 → opc.toNat ∈ State.admOpcodes → exec (.invalidCommandOpcode p opc q) s = .next s) ∧
      (ready → opc.toNat ∉ State.admOpcodes → exec (.invalidCommandOpcode p opc q) s = .next (State.settled { s with dev := u.done p q 0 1 [] })))

/-- R436, R437, R264 (Tables 16-8 and 16-9; the places of fields in the common words are the standard's, log 44): vendor commands. One that comes to a live controller
with no other admin command outstanding starts at once; a port without the right ends it PARTITION_DENIED, a context, object or collection
that there is not with its own status.
The model's own choices in it: log 22, 44 and 66. -/
def Obligations.VendorCommands : Prop :=
  ∀ (p : Fin 4) (q : NvmeCmd) (s : State), let d := s.dev
    let live := d.ctrlLive p = true ∧ q.sq = 0
    let ready := live ∧ ∀ o ∈ (d.ctrl p).outst, o.cmd.sq ≠ 0
    let u := d.modCtrl p (fun c => { c with outst := c.outst ++ [⟨q, .other, false, true, none, none, 0, 0⟩] })
    let dest := fun (i : Fin 4 → NvmeCmd → Instr) (v : Dev) => exec (i p q) s = .next (State.settled { s with dev := v })
    (∀ i ∈ ([.partitionSet, .partitionGet, .contextControl, .contextState, .objectCommand, .collectionCommand, .fabricEnumerate, .fabricStatus] :
        List (Fin 4 → NvmeCmd → Instr)), ¬ live → dest i d) ∧
    (ready →
      (let part := q.d12.toNat % 16
       let small := fun (n : Nat) => b2n (decide (4 * q.d10.toNat < n))
       let ndm := b2n (q.d11 != 0#32)
       (d.portAdmin p = false → dest .partitionSet (u.denied p q) ∧ dest .fabricEnumerate (u.denied p q)) ∧
       (let h := fun (o c : Nat) => leVal ((q.data.drop o).take c)
        let cfg := setF (setF (setF (setF (d.reg (R.partCfg part)) F.partCfg_enable (h 12 1 % 2)) F.partCfg_priv (h 12 1 / 2 % 2)) F.partCfg_scrCkpt (h 12 1 / 4 % 2)) F.partCfg_slice (h 14 2)
        let e := (((u.partCfgWrite part cfg).partOryxWrite part (setF 0#32 F.partOryx_slots (h 16 2))).setFld (R.partHerd part) F.partHerd_share (h 18 1))
        let v := (List.range 4).foldl (fun d t => d.setReg (R.tierQuota part t) (BitVec.ofNat 32 (h (20 + 4 * t) 4))) e
        -- no cores given or held
        (d.portAdmin p = true → q.data.length = 64 → 64 ≤ 4 * q.d10.toNat → q.d11 = 0#32 → h 0 8 = 0 → h 8 4 = 0 →
          (∀ i < 64, v.fld (R.partKuduOwn i) F.partKuduOwn_owner ≠ part) → (∀ i < 32, v.fld (R.partChamOwn i) F.partChamOwn_owner ≠ part) →
          v.reg R.partClampCnt = d.reg R.partClampCnt → dest .partitionSet (v.ended p q 0 0 0#32 [])) ∧
        -- one core given
        (∀ k, d.portAdmin p = true → q.data.length = 64 → 64 ≤ 4 * q.d10.toNat → q.d11 = 0#32 → k < 64 → h 0 8 = 2 ^ k → h 8 4 = 0 →
          (∀ i < 64, v.fld (R.partKuduOwn i) F.partKuduOwn_owner ≠ part) → (∀ i < 32, v.fld (R.partChamOwn i) F.partChamOwn_owner ≠ part) →
          let w := v.kuduOwnWrite k (setF 0#32 F.partKuduOwn_owner part)
          (∀ i < 64, i ≠ k → w.fld (R.partKuduOwn i) F.partKuduOwn_owner ≠ part) → (∀ i < 32, w.fld (R.partChamOwn i) F.partChamOwn_owner ≠ part) →
          w.reg R.partClampCnt = d.reg R.partClampCnt → dest .partitionSet (w.ended p q 0 0 0#32 []))) ∧
       (d.portMay p part = false → dest .partitionGet (u.denied p q) ∧ dest .objectCommand (u.denied p q) ∧ dest .collectionCommand (u.denied p q)) ∧
       (d.portMay p part = true → 64 ≤ 4 * q.d10.toNat →
         let owned := fun (n : Nat) (f : Nat → Nat) => ((List.range n).map (fun i => if f i = part then 2 ^ i else 0)).foldl (· + ·) 0
         let cfg := d.reg (R.partCfg part)
         let l := leBytes 8 (owned 64 d.kuduOwner) ++ leBytes 4 (owned 32 d.chamOwner) ++
           leBytes 2 (getF cfg F.partCfg_enable + 2 * getF cfg F.partCfg_priv + 4 * getF cfg F.partCfg_scrCkpt) ++ leBytes 2 (getF cfg F.partCfg_slice) ++
           leBytes 2 (d.fld (R.partOryx part) F.partOryx_slots) ++ leBytes 2 (d.fld (R.partHerd part) F.partHerd_share) ++
           (List.range 4).flatMap (fun t => leBytes 4 (d.reg (R.tierQuota part t)).toNat) ++ leBytes 4 (d.partInfo part) ++ leBytes 4 (d.partLq part) ++ List.replicate 20 0#8
         dest .partitionGet ((u.hostClamp p ndm).ended p q 0 ndm 0#32 l)) ∧
       (let x := q.d12.toNat % 4096
        (d.ctx? x = none → dest .contextControl ((u.hostClamp p ndm).ended p q 0x72 ndm 0#32 []) ∧ dest .contextState ((u.hostClamp p ndm).ended p q 0x72 ndm 0#32 [])) ∧
        (∀ y, d.ctx? x = some y → d.portMay p y.part = false → dest .contextControl (u.denied p q) ∧ dest .contextState (u.denied p q)) ∧
        (∀ y, d.ctx? x = some y → d.portMay p y.part = true →
          (q.d13.toNat % 16 = 1 → q.d11 = 0#32 → (u.endRequest x).reg R.partClampCnt = d.reg R.partClampCnt →
            dest .contextControl ((u.endRequest x).ended p q 0 0 0#32 [])) ∧
          (q.d13.toNat % 16 = 4 → q.d11 = 0#32 → (u.clearClamp x).reg R.partClampCnt = d.reg R.partClampCnt →
            dest .contextControl ((u.clearClamp x).ended p q 0 0 0#32 [])) ∧
          (q.d13.toNat % 16 = 0 → dest .contextControl ((u.hostClamp p ndm).ended p q 0 ndm 0#32 [])) ∧
          (64 ≤ 4 * q.d10.toNat → (y.st = .running ∨ y.st = .residentRunnable ∨ y.st = .residentBlocked ∨ y.st = .ending) →
            dest .contextState ((u.hostClamp p ndm).ended p q 0 ndm 0#32 (leBytes 4 (d.ctxStateReg x) ++ leBytes 4 (d.ctxWinReg x) ++ leBytes 8 (d.ctxWrapReg x) ++
              (List.range 5).flatMap (fun a => leBytes 8 (d.ctxAcc x a)) ++ List.replicate 8 0#8))))) ∧
       (let l := ((q.data.take (4 * q.d10.toNat)) ++ List.replicate 64 0#8).take 64
        let ws := Dev.wordsOf 8 l
        let op := bits64 (ws.getD 0 0#64) 0 8
        let k := small 64 + ndm
        let v := u.hostClamp p k
        let who := Asker.nvme p 0 q.cid
        let fl := min 1 k
        d.portMay p part = true →
          (op = 1 → dest .objectCommand (v.createObj (.hostFor p part) part ws who fl)) ∧
          (op = 2 → dest .objectCommand (v.objFree part ws who fl)) ∧
          (op = 3 → dest .objectCommand (v.objMove (.hostFor p part) part ws who fl)) ∧
          (op = 4 → dest .objectCommand (v.objPin part ws who fl)) ∧
          (op = 5 → dest .objectCommand (v.objUnpin part ws who fl)) ∧
          (op = 6 → dest .objectCommand (v.objAck part who fl)) ∧
          (op = 7 → dest .objectCommand (v.objQuery part ws who fl)) ∧
          (op = 0 ∨ 7 < op → dest .objectCommand ((v.tierClamp 1).objQuery part ws who 1)) ∧
          (op = 1 → dest .collectionCommand (v.collCreate (.hostFor p part) part ws who fl)) ∧
          (op = 2 → dest .collectionCommand (v.collDestroy part ws who fl)) ∧
          (op = 3 → dest .collectionCommand (v.collInfo part ws who fl)) ∧
          (op = 0 ∨ 3 < op → dest .collectionCommand ((v.srchClamp 1).collInfo part ws who 1))) ∧
       -- Rind containers
       (let at' := BitVec.ofNat 64 (q.d14.toNat + 2 ^ 32 * q.d15.toNat)
        (d.rindBusy q true = none → d.portMay p part = false → dest .rindImport (u.denied p q)) ∧
        (d.rindBusy q false = none → d.portMay p part = false → dest .rindExport (u.denied p q)) ∧
        (d.portMay p part = true → d.findObj part at' = none →
          dest .rindImport ((u.hostClamp p ndm).ended p q 0x29 ndm 0#32 []) ∧ dest .rindExport ((u.hostClamp p ndm).ended p q 0x29 ndm 0#32 [])) ∧
        (∀ i o l, d.portMay p part = true → d.findObj part at' = some i → Tab.find d.tier.objs i = some o →
          (d.lready o.tier o.base o.size false = true → u.rindContainer o = (l, true) → dest .rindExport ((u.hostClamp p ndm).ended p q 9 ndm 0#32 [])) ∧
          (d.lready o.tier o.base o.size false = true → u.rindContainer o = (l, false) →
            let off := 4096 * q.d13.toNat
            let k := ndm + b2n (decide (l.length ≤ off))
            dest .rindExport ((u.hostClamp p k).ended p q 0 (min 1 k) (BitVec.ofNat 32 l.length) ((l.drop off).take (4 * q.d10.toNat)))) ∧
          (d.lready o.tier o.base o.size true = true → o.tier = 1 →
            leVal (((q.data.take (4 * q.d10.toNat)).drop 5).take 1) % 16 ≠ o.fmt → d.ftl.retired = false →
            dest .rindImport ((u.hostClamp p ndm).ended p q 9 ndm 0#32 [])) ∧
          -- a container of one block
          (let buf := q.data.take (4 * q.d10.toNat)
           let h := fun (x c : Nat) => leVal ((buf.drop x).take c)
           let e := BitVec.ofNat 64 (h 64 8)
           ∀ bytes, d.lready o.tier o.base o.size true = true → o.tier = 1 → d.ftl.retired = false → o.size ≤ 4096 → 0 < o.size →
            h 0 4 = 0x31444E52 → h 4 1 = 1 → h 5 1 % 16 = o.fmt → 0 < h 8 8 → h 8 8 ≤ 4096 → h 16 4 = 1 → h 24 8 = 64 → h 32 8 = 72 → rindLen e ≤ 4096 →
            buf.length = 72 + ceilDiv (rindLen e) 4 * 4 → q.d11 = 0#32 → buf.length = 4 * q.d10.toNat →
            rindDecode o.fmt e ((buf.drop 72).take (rindLen e)) = some bytes →
            dest .rindImport ((u.lwrite o.tier o.base (bytes.take (min 4096 o.size))).ended p q 0 0 0#32 [])))) ∧
       -- the fabric
       (d.portAdmin p = true → d.isRootCfg = false → dest .fabricEnumerate ((u.hostClamp p (1 + ndm)).ended p q 0 1 0#32 [])) ∧
       (d.portAdmin p = true → d.isRootCfg = true → dest .fabricEnumerate (((u.enumStart s.prefNode).hostClamp p ndm).ended p q 0 ndm 0#32 [])) ∧
       (256 ≤ 4 * q.d10.toNat →
         let r := fun (a : Nat) => leBytes 4 (d.reg a).toNat
         dest .fabricStatus ((u.hostClamp p ndm).ended p q 0 ndm 0#32
           (r R.addrNode ++ r R.dirEnum ++ r R.capHerd ++ r R.dirCfg ++ (List.range 36).flatMap (fun h => r (R.hlState h)) ++ List.replicate 96 0#8)))))

/-- R421 to R423, R425, R445 to R452, R529, R533, R534, R540 (Tables 16-1, 16-2, 16-11): controllers and ports. A controller whose link is down or that is in D3 takes
no command; power states change where the table of APST says and the device is idle; PERST#, a link and a cable act on the ports of their
connector.
The model's own choices in it: log 1, 45, 59 and 75. -/
def Obligations.ControllersAndPorts : Prop :=
  ∀ (s : State), let d := s.dev
    let is := fun (i : Instr) (u : Dev) => exec i s = .next { s with dev := u }
    (∀ p : Fin 4, let c := d.ctrl p
      let there := d.portUp p = true ∧ c.d3 = false
      let reset := ({ s with dev := d.ctrlReset p } : State).updateCap.settled
      (there → is (.controllerEnable p) ({ d.modCtrl p (fun c => { c with
        en := true, rdy := s.aon.mainGood && s.aon.step == 9 && !c.cfs, shst := 0 }) with
          rdata := ctrlReg c 4 ++ ctrlReg c 0, rflags := 0, rstatus := 0 })) ∧
      (let w : W64 := ctrlReg c 4 ++ ctrlReg c 0
       bits64 w 0 16 = 0x0FFF ∧ bits64 w 16 1 = 1 ∧ bits64 w 17 2 = 0b01 ∧ bits64 w 24 8 = 0x5A ∧ bits64 w 32 4 = 0 ∧ bits64 w 36 1 = 1 ∧
       bits64 w 37 8 = 0b01000001 ∧ bits64 w 48 4 = 0 ∧ bits64 w 52 4 = 4 ∧ bits64 w 56 1 = 0 ∧ bits64 w 57 1 = 0 ∧ ctrlReg c 8 = 0x00020000#32) ∧
      (¬ there → is (.controllerEnable p) d ∧ is (.controllerReset p) d ∧ (∀ b, is (.shutdownNotification p b) d)) ∧
      (there → exec (.controllerReset p) s = .next reset) ∧
      (d.portUp p = true → exec (.functionLevelReset p) s = .next reset) ∧
      (d.portUp p = false → is (.functionLevelReset p) d) ∧
      (∀ b, let u := (if d.ftl.admOpen then d.holdupFlush false else d).modCtrl p (fun c => { c with shst := 2 })
        there → exec (.shutdownNotification p b) s = .next (State.settled { s with dev := u })) ∧
      -- power states
      (∀ ps : Fin 5, let e := (c.apstTab.getD c.ps 0#64).toNat
        let due := d.ctrlLive p = true ∧ d.apstIdle = true ∧ (Tab.getD c.feats 0x0C 0#32).getLsbD 0 = true ∧ bitsOf e 3 5 = ps.val ∧ c.ps < ps.val ∧ 3 ≤ ps.val ∧
          bitsOf e 8 24 ≠ 0 ∧ c.idleAt + bitsOf e 8 24 * 1000000 ≤ d.now ∧ (ps.val = 4 → d.mayPs4 = true)
        (due → exec (.apstTransition p ps) s = .next (({ s with dev := d.setPs p ps } : State).updateCap.settled)) ∧
        (¬ due → is (.apstTransition p ps) d)) ∧
      (d.portUsed p = true → 3 ≤ c.ps → exec (.nonOperationalWake p) s = .next ({ s with dev := d.setPs p c.lastOp } : State).updateCap) ∧
      (d.portUsed p = false ∨ c.ps < 3 → is (.nonOperationalWake p) d) ∧
      (∀ ps, (ps < 3 ∨ d.devPs = 4) → d.setPs p ps = (d.modCtrl p (fun c => { c with ps := ps, lastOp := if ps < 3 then ps else c.lastOp })).setFld (R.hostLink p) F.hostLink_ps ps) ∧
      -- links
      (let u := d.setFlds (R.hostLink p) [(F.hostLink_speed, 0), (F.hostLink_width, 0), (F.hostLink_flit, 0), (F.hostLink_up, 0)]
       (d.flag (R.hostLink p) F.hostLink_up = true → is (.hostLinkDown p) (u.setFld (R.hostEvt p) F.hostEvt_linkdown 1)) ∧
       (d.flag (R.hostLink p) F.hostLink_up = false → is (.hostLinkDown p) u)) ∧
      (∀ (speed : Fin 7) (width : Fin 17) (flit : Bool),
        let may := s.mayTrain p = true ∧ 1 ≤ speed.val ∧ width.val ∈ [1, 2, 4, 8, 16] ∧ width.val ≤ portLanes d.portMode ∧ (flit = true ∨ speed.val ≠ 6)
        (may → is (.hostLinkUp p speed width flit) (d.setFlds (R.hostLink p)
          [(F.hostLink_speed, speed.val), (F.hostLink_width, width.val), (F.hostLink_flit, b2n flit), (F.hostLink_up, 1)])) ∧
        (¬ may → is (.hostLinkUp p speed width flit) d)) ∧
      -- configuration requests
      (∀ (off : BitVec 12) (v : W32), let o := alignDown off.toNat 4
        let up := s.aon.mainGood = true ∧ 3 ≤ s.aon.step ∧ d.portUp p = true
        (¬ up → ∀ b, is (.pcieConfigurationRequest p off b v) d) ∧
        (up → is (.pcieConfigurationRequest p off false v) { d with rdata := (cfgRead c o).setWidth 64, rflags := 0, rstatus := 0 }) ∧
        (up → o = 4 → is (.pcieConfigurationRequest p off true v) (d.modCtrl p (fun c => { c with cfg := Tab.store c.cfg 4 (v &&& 0x7FF#32) 0#32 }))) ∧
        (up → o = 0x10 → is (.pcieConfigurationRequest p off true v) (d.modCtrl p (fun c => { c with cfg := Tab.store c.cfg 0x10 (v &&& 0xFFFF0000#32) 0#32 }))) ∧
        (up → o = 0x14 → is (.pcieConfigurationRequest p off true v) (d.modCtrl p (fun c => { c with cfg := Tab.store c.cfg 0x14 v 0#32 }))) ∧
        (up → o = 0x44 → v.toNat % 4 = 3 → is (.pcieConfigurationRequest p off true v) (d.modCtrl p (fun c => { c with d3 := true }))) ∧
        (up → o = 0x44 → v.toNat % 4 = 0 → is (.pcieConfigurationRequest p off true v) (d.modCtrl p (fun c => { c with d3 := false }))) ∧
        (up → o = 0 → cfgRead c o &&& 0xFFFF#32 = 0x1F5C#32) ∧ (o = 8 → cfgRead c o >>> 8 = 0x010802#32) ∧
        (o ∈ [0x18, 0x1C, 0x20, 0x24] → cfgRead c o = 0#32) ∧ (o = 0x44 → (cfgRead c o).toNat % 4 = if c.d3 then 3 else 0))) ∧
    (s.dev.devPs ≠ 3 → exec .ps3Wake s = .next s) ∧
    (d.devPs = 3 → portCount d.portMode = 1 → (d.ctrl 0).lastOp < 3 →
      exec .ps3Wake s = .next ({ s with dev := d.setPs 0 (d.ctrl 0).lastOp } : State).updateCap) ∧
    (∀ conn : Bool, let n := b2n conn
      let set := fun (f : Port → Port) => ({ d with host := { d.host with ports := Tab.store d.host.ports n (f (d.conn n)) Port.reset } } : Dev)
      is (.perstDeassert conn) (set (fun c => { c with perst := false, perstAt := if c.perst then s.aon.ns else c.perstAt })) ∧
      is (.cablePresentChange conn true) (set (fun c => { c with cable := true })) ∧
      (d.portMode ≠ 1 → d.portMode ≠ 2 →
        is (.cablePresentChange conn false) ((set (fun c => { c with cable := false })).portDown 0) ∧
        exec (.portResetPerst true) s = .next (({ s with dev := d.modConn 1 (fun c => { c with perst := true }) } : State).updateCap.settled) ∧
        exec (.portResetPerst false) s = .next (({ s with dev := (((d.modConn 0 (fun c => { c with perst := true })).portDown 0).ctrlReset 0).dcqDown [0, 9] 0 } : State).updateCap.settled)) ∧
      (d.portMode = 1 →
        is (.cablePresentChange conn false) ((set (fun c => { c with cable := false })).portDown n) ∧
        exec (.portResetPerst conn) s = .next (({ s with dev := (((set (fun c => { c with perst := true })).portDown n).ctrlReset n).dcqDown [0, 9] n } : State).updateCap.settled)) ∧
      (d.portMode = 2 →
        is (.cablePresentChange conn false) (((set (fun c => { c with cable := false })).portDown (2 * n)).portDown (2 * n + 1)) ∧
        let u := ((((set (fun c => { c with perst := true })).portDown (2 * n)).ctrlReset (2 * n)).dcqDown [0, 9] (2 * n)).portDown (2 * n + 1)
        exec (.portResetPerst conn) s = .next (({ s with dev := (u.ctrlReset (2 * n + 1)).dcqDown [0, 9] (2 * n + 1) } : State).updateCap.settled)))

/-- R488 to R497, R501, R502, R505 to R514 (Tables 18-3, 18-5, 18-6, 18-11; the bytes of messages are the model's, log 20 and 21): the management port and the Tahr
firmware. A protocol that is not served gets no answer; a request that is served gets its answer and changes what its rule says and nothing
else.
The model's own choices in it: log 20, 21 and 73. -/
def Obligations.Management : Prop :=
  ∀ (s : State), let a := s.aon
    let d := s.dev
    let is := fun (i : Instr) (b : AonSt) => exec i s = .next { s with aon := b }
    let full := a.standby = true ∧ a.running.isSome = true ∧ a.fawn = none ∧ a.lcFuse = false
    let fawnToo := a.standby = true ∧ (a.running.isSome = true ∨ a.fawn.isSome = true) ∧ a.lcFuse = false
    let base := fawnToo ∨ (a.standby = true ∧ a.lcFuse = true)
    let tells := fun (i : Instr) (l : List Byte) => (full → is i { a with reply := l }) ∧ (¬ full → is i { a with reply := [] })
    -- NVMe-MI
    (∀ (p : Fin 4), tells (.readNvmeMiDataStructure 0#8 p) [0#8, 4#8, 2#8, 0#8] ∧ tells (.readNvmeMiDataStructure 1#8 p) [0#8, BitVec.ofNat 8 p.val, 64#8, 0#8] ∧
      tells (.readNvmeMiDataStructure 2#8 p) (0#8 :: (Tab.keys d.host.ctrls).map (BitVec.ofNat 8)) ∧
      tells (.readNvmeMiDataStructure 3#8 p) [0#8, BitVec.ofNat 8 p.val, 0x5C#8, 0x1F#8] ∧
      (∀ t : BitVec 8, 3 < t.toNat → tells (.readNvmeMiDataStructure t p) [4#8]) ∧
      (let c := Tab.getD d.host.ctrls p Ctrl.reset
       let st := if a.mainGood then b2n c.rdy + 2 * b2n c.cfs + 4 * c.shst else 0
       tells (.controllerHealthStatusPoll p) ([0#8, BitVec.ofNat 8 st, BitVec.ofNat 8 d.critWarn] ++ leBytes 2 d.compositeK ++ [BitVec.ofNat 8 (min 100 d.availSpare)]))) ∧
    (∀ b, tells (.nvmSubsystemHealthStatusPoll b) ([0#8, BitVec.ofNat 8 (b2n (a.mainGood && !d.devFatal)), BitVec.ofNat 8 d.critWarn] ++ leBytes 2 d.compositeK ++
      d.host.ctrls.map (fun c => BitVec.ofNat 8 (b2n (a.mainGood && c.2.rdy))))) ∧
    (∀ (id port : BitVec 8) (v : W32), let known := id.toNat ≠ 0 ∧ id.toNat ≤ 3
      let key := id.toNat * 256 + port.toNat
      (known → tells (.configurationGet id port) (0#8 :: leBytes 4 (Tab.getD a.miCfg key (miCfgReset id.toNat)).toNat)) ∧
      (¬ known → tells (.configurationGet id port) [4#8] ∧ tells (.configurationSet id port v) [4#8]) ∧
      (id.toNat = 3 → v ≠ 64#32 → tells (.configurationSet id port v) [4#8]) ∧
      (full → known → (id.toNat ≠ 3 ∨ v = 64#32) →
        is (.configurationSet id port v) { a with miCfg := Tab.store a.miCfg key v (miCfgReset id.toNat), reply := [0#8] })) ∧
    (∀ (off len : BitVec 16) (e : List Byte),
      tells (.vpdRead off len) (0#8 :: Memory.read a.vpd off.toNat len.toNat) ∧
      (65536 < off.toNat + e.length → tells (.vpdWrite off e) [4#8]) ∧
      (full → off.toNat + e.length ≤ 65536 → is (.vpdWrite off e) { a with vpd := Memory.write a.vpd off.toNat e, reply := [0#8] })) ∧
    (full → exec .nvmeMiReset s = .next (({ s with aon := { a with reply := [0#8] } } : State).deviceReset 4)) ∧
    (¬ full → is .nvmeMiReset { a with reply := [] }) ∧
    -- admin commands from the management port
    (∀ (p : Fin 4) (opc : BitVec 8) (q : NvmeCmd),
      (¬ full → is (.tunnelledAdminCommand p opc q) { a with reply := [] }) ∧
      (full → a.mainGood = false → is (.tunnelledAdminCommand p opc q) { a with reply := [2#8] }) ∧
      (full → a.mainGood = true → d.portUsed p = false → is (.tunnelledAdminCommand p opc q) { a with reply := [4#8] }) ∧
      (full → a.mainGood = true → d.portUsed p = true → opc.toNat ∉ [0x02, 0x06, 0x0A, 0x10, 0x11, 0x81, 0x82] →
        is (.tunnelledAdminCommand p opc q) { a with reply := [3#8] }) ∧
      (∀ t, full → a.mainGood = true → d.portUsed p = true →
        let c : NvmeCmd := { q with sq := 0, cid := 0x10000 }
        let u := d.modCtrl p (fun k => { k with outst := k.outst ++ [⟨c, .other, false, true, none, none, 0, 0⟩] })
        tunnelled opc.toNat { s with dev := u } p c = some t →
        let l := (t.dev.ctrl p).cpls.filter (fun c => c.cid == 0x10000)
        let v := if l.isEmpty then t.dev else t.dev.modCtrl p (fun c => { c with cpls := c.cpls.filter (fun c => c.cid != 0x10000) })
        let bytes := [0#8] ++ l.flatMap (fun c => leBytes 4 c.dw0.toNat ++ leBytes 4 c.dw1.toNat ++ leBytes 2 (c.sc * 2 + c.sct * 512) ++ c.data)
        exec (.tunnelledAdminCommand p opc q) s = .next (State.settled { t with dev := v, aon := { t.aon with reply := bytes } }))) ∧
    -- PLDM
    (∀ (cmd : BitVec 8) (e : List Byte),
      (¬ base → is (.pldmBaseRequest cmd e) { a with reply := [] }) ∧
      (base → e.head? ≠ some 5#8 → is (.pldmBaseRequest 2#8 e) { a with reply := [0#8, BitVec.ofNat 8 a.eid] }) ∧
      (base → is (.pldmBaseRequest 4#8 e) { a with reply := [0#8, if a.lcFuse then 0x01#8 else if a.fawn.isSome then 0x21#8 else 0x25#8] }) ∧
      (fawnToo → e.head? = some 5#8 → is (.pldmBaseRequest 2#8 e) { a with reply := s.pldmInventory }) ∧
      (base → (cmd.toNat = 0 ∨ 5 < cmd.toNat) → is (.pldmBaseRequest cmd e) { a with reply := [5#8] })) ∧
    (∀ (id : BitVec 16), let i := id.toNat
      (0x100 ≤ i → i < 0x140 → tells (.pldmGetSensorReading id) (0#8 :: leBytes 2 (d.fld (R.tahrTemp (i - 0x100)) F.tahrTemp_temp))) ∧
      (0x200 ≤ i → i < 0x210 → tells (.pldmGetSensorReading id) (0#8 :: leBytes 2 (d.fld (R.tahrMon (i - 0x200)) F.tahrMon_mv))) ∧
      (0x280 ≤ i → i < 0x290 → tells (.pldmGetSensorReading id) (0#8 :: leBytes 2 (d.fld (R.tahrMon (i - 0x280)) F.tahrMon_curr))) ∧
      (0x300 ≤ i → i < 0x320 → tells (.pldmGetSensorReading id) (0#8 :: leBytes 2 (d.fld (R.tempoRate (i - 0x300)) F.tempoRate_rate))) ∧
      (i = 0x400 → tells (.pldmGetSensorReading id) (0#8 :: leBytes 2 (a.samples.headD 0)))) ∧
    (¬ fawnToo → is .pldmRequestUpdate { a with reply := [] } ∧ is .pldmActivateFirmware { a with reply := [] } ∧ is .getNonce { a with reply := [] }) ∧
    (fawnToo → a.update.isSome = true → is .pldmRequestUpdate { a with reply := [0x81#8] }) ∧
    (fawnToo → a.update = none → is .pldmRequestUpdate { a with update := some ⟨.pldm, [], 0⟩, reply := [0#8] }) ∧
    (∀ (off : BitVec 32) (e : List Byte),
      (¬ fawnToo ∨ (∀ u, a.update = some u → u.path ≠ .pldm) → is (.pldmFirmwareData off e) { a with reply := [] }) ∧
      (∀ u, fawnToo → a.update = some u → u.path = .pldm →
        (a.piece .pldm off.toNat e = none → is (.pldmFirmwareData off e) { a with reply := [1#8] }) ∧
        (∀ b, a.piece .pldm off.toNat e = some b → is (.pldmFirmwareData off e) { b with reply := [0#8] }) ∧
        (∀ k t, s.storeImage = (some k, t) → exec .pldmActivateFirmware s = .next (t.replying [1#8])) ∧
        (∀ t, a.fawn = none → s.storeImage = (none, t) →
          exec .pldmActivateFirmware s = .next { t with aon := { t.aon with pendAct := some t.aon.other, reply := [0#8] } }))) ∧
    -- SPDM
    (∀ fl asym hash : W32, ∀ slot : BitVec 8, ∀ off len : BitVec 16, ∀ e : List Byte,
      (¬ base ∨ a.fawn.isSome = true → is .getVersion { a with reply := [] } ∧ is (.getCapabilities fl) { a with reply := [] }) ∧
      (base → a.fawn = none → is .getVersion { a with spdm := 1, reply := [0x04#8, 0x13#8] }) ∧
      (base → a.fawn = none → a.spdm < 1 → is (.getCapabilities fl) { a with reply := [0x7F#8] }) ∧
      (base → a.fawn = none → 1 ≤ a.spdm → is (.getCapabilities fl) { a with spdm := max 2 a.spdm, reply := [0x61#8, 0x16#8] }) ∧
      (a.spdm < 2 ∨ asym.getLsbD 7 = false ∨ hash.getLsbD 1 = false → tells (.negotiateAlgorithms asym hash) [0x7F#8]) ∧
      (full → 2 ≤ a.spdm → asym.getLsbD 7 = true → hash.getLsbD 1 = true →
        is (.negotiateAlgorithms asym hash) { a with spdm := 3, reply := [0x63#8] ++ leBytes 4 0x80 ++ leBytes 4 0x02 }) ∧
      (a.spdm < 3 ∨ a.idKey = false → tells .getDigests [0x7F#8] ∧ tells (.getCertificate slot off len) [0x7F#8] ∧ tells (.challenge slot e) [0x7F#8]) ∧
      (a.spdm ≥ 3 → a.idKey = true → tells .getDigests (0x01#8 :: Config.digest Config.certificate)) ∧
      (a.spdm ≥ 3 → a.idKey = true → slot = 0#8 → tells (.getCertificate slot off len) (0x02#8 :: (Config.certificate.drop off.toNat).take len.toNat) ∧
        tells (.challenge slot e) (0x03#8 :: (Config.digest Config.certificate ++ Config.signature e))) ∧
      (a.spdm < 3 → tells (.getMeasurements slot e) [0x7F#8]) ∧
      (a.spdm ≥ 3 → tells (.getMeasurements 0#8 e) [0x60#8, 7#8]) ∧
      (a.spdm ≥ 3 → tells (.getMeasurements 4#8 e) (0x60#8 :: ([BitVec.ofNat 8 a.svn] ++ Config.signature e))) ∧
      (a.spdm ≥ 3 → 7 < slot.toNat → slot ≠ 0xFF#8 → tells (.getMeasurements slot e) [0x7F#8])) ∧
    -- addresses
    (∀ (x : BitVec 7) (id : BitVec 8),
      (a.standby = true → is (.i3cDynamicAddressAssign x) { a with i3c := some x.toNat } ∧ is (.mctpSetEndpointId id) { a with eid := id.toNat, reply := [0#8, id] }) ∧
      (a.standby = false → is (.i3cDynamicAddressAssign x) a ∧ is (.mctpSetEndpointId id) a)) ∧
    -- the life cycle
    (fawnToo → let q := fun i => leBytes 8 (Config.freeWord (d.draws + i)).toNat
      exec .getNonce s = .next { s with
        dev := { d with draws := d.draws + 4 }
        aon := { a with nonce := some (q 0 ++ q 1 ++ q 2 ++ q 3, a.ns), nonceSeq := a.nonceSeq + 1, reply := q 0 ++ q 1 ++ q 2 ++ q 3 } }) ∧
    (∀ (target : Fin 5) serial nonce owner sig, let i := Instr.transition target serial nonce owner sig
      let good := serial = Config.serial ∧ (∃ n, a.nonce = some n ∧ n.1 = nonce ∧ a.ns < n.2 + 60000000000) ∧ lcAllowed a.lc target = true ∧ (target.val = 2 → owner.isSome = true) ∧
        Config.sigValid (2#8 :: BitVec.ofNat 8 a.lc :: BitVec.ofNat 8 target :: leBytes 8 serial.toNat ++ nonce ++ owner.getD [] ++ a.ownerKey.getD [] ++ sig) = true
      let spent : State := { s with aon := { a with nonce := none } }
      (¬ fawnToo → is i { a with reply := [] }) ∧
      (fawnToo → a.update.isSome = true → is i { a with reply := [0x6C#8] }) ∧
      (fawnToo → a.update = none → ¬ good → exec i s = .next ((spent.authFailed 2).replying [0x6B#8])) ∧
      (fawnToo → a.update = none → good →
        let t := spent.flushForReset
        let u := ({ t with aon := { t.aon with lc := target.val, ownerKey := if target.val = 2 then owner else t.aon.ownerKey } } : State).lcErase a.lc target
        exec i s = .next (((u.secEvent 0x0009 target).replying [0x00#8]).deviceReset 6)))

/-- R490 to R493, R496, R497, R508 to R514 (Tables 18-9 and 18-11): the log, samples, settings, the boot of an image and Fawn mode.
The model's own choices in it: log 7, 8 and 59. -/
def Obligations.FirmwareAndFawn : Prop :=
  ∀ (s : State), let a := s.aon
    let d := s.dev
    let is := fun (i : Instr) (b : AonSt) => exec i s = .next { s with aon := b }
    let dev := fun (i : Instr) (u : Dev) => exec i s = .next { s with dev := u }
    -- the log
    (a.mainGood = false ∨ a.running = none → exec .tahrLogPoll s = .next s) ∧
    (∀ e, a.mainGood = true → a.running.isSome = true → Tab.getD d.flt.unTahr 0 0 = 1 → Tab.getD d.flt.unTahr 1 0 = 0 → Tab.getD d.flt.unTahr 2 0 = 0 →
      Tab.find d.flt.ring (d.fld (R.fltRingTahr 0) F.fltRingTahr_tahr % 256) = some e → a.log.length < 64000 →
      ∃ u, exec .tahrLogPoll s = .next { s with dev := u, aon := { a with log := e :: a.log, uncommitted := min 64000 (a.uncommitted + 1) } } ∧
        Tab.getD u.flt.unTahr 0 0 = 0 ∧ u.fld (R.fltRingTahr 0) F.fltRingTahr_tahr = (d.fld (R.fltRingTahr 0) F.fltRingTahr_tahr + 1) % 256) ∧
    is .tahrLogCommit { a with uncommitted := 0 } ∧
    -- samples
    (∀ t : BitVec 12, a.warned = [] →
      (∀ i, i < 48 → let v := if i = 0 then signedOf 12 t.toNat else d.temp i
        v < signedOf 12 (d.fld R.tahrTempLim F.tahrTempLim_warn) ∧ v < signedOf 12 (d.fld R.tahrTempLim F.tahrTempLim_crit)) →
      d.flag R.tahrEvt F.tahrEvt_warn = false → d.flag R.tahrEvt F.tahrEvt_crit = false →
      dev (.tempSample [t]) ((d.setFlds (R.tahrTemp 0) [(F.tahrTemp_temp, t.toNat), (F.tahrTemp_valid, 1)]).setFlds R.tahrEvt
        [(F.tahrEvt_warn, 0), (F.tahrEvt_crit, 0)])) ∧
    (∀ t : BitVec 12, 0 ∉ a.warned → (∀ i, 0 < i → i < 48 → i ∉ a.warned → d.temp i < signedOf 12 (d.fld R.tahrTempLim F.tahrTempLim_warn)) →
      (∀ i ∈ a.warned, signedOf 12 (d.fld R.tahrTempLim F.tahrTempLim_warn) ≤ d.temp i) →
      signedOf 12 (d.fld R.tahrTempLim F.tahrTempLim_warn) ≤ signedOf 12 t.toNat →
      ∃ u, exec (.tempSample [t]) s = .next u ∧ u.aon.warned = a.warned ++ [0] ∧ u.dev.fld R.tahrEvt F.tahrEvt_warn = 1 ∧
        u.dev.fld (R.tahrTemp 0) F.tahrTemp_temp = t.toNat ∧ u.aon.log.length = min 64000 (a.log.length + 1)) ∧
    (∀ e : List W32, ∃ u, dev (.monitorSample e) u ∧ (∀ i v, i < 14 → e[i]? = some v → u.reg (R.tahrMon i) = v) ∧
      (∀ v, e[14]? = some v → u.reg (R.tahrMon 14) = setF v F.tahrMon_curr 0) ∧ u.reg (R.tahrMon 15) = d.reg (R.tahrMon 15) ∧
      ∀ r, (∀ i < 15, r ≠ R.tahrMon i) → u.reg r = d.reg r) ∧
    -- settings and the security version
    (∀ r, d.busAns r R.tahrSetCtrl true = .ok →
      let fmt := ((a.running.bind a.img).map Img.setFmt).getD (d.fld R.tahrStatus F.tahrStatus_setFmt)
      (a.copyA = none → a.copyB = none → is (.settingsSave r) { a with copyA := some ⟨fmt, 1, d.settingVals []⟩ }) ∧
      (∀ x y, a.copyA = some x → a.copyB = some y → y.seq < x.seq → is (.settingsSave r) { a with copyB := some ⟨fmt, x.seq + 1, d.settingVals x.vals⟩ }) ∧
      (∀ x y, a.copyA = some x → a.copyB = some y → x.seq ≤ y.seq → is (.settingsSave r) { a with copyA := some ⟨fmt, y.seq + 1, d.settingVals y.vals⟩ })) ∧
    (let v := ((a.running.bind a.img).map Img.svn).getD 0
     (a.readyAt = none ∨ (∃ t, a.readyAt = some t ∧ a.ns < t + 600000000000) ∨ v ≤ a.svn ∨ 64 < v → exec .svnFuseAdvance s = .next s) ∧
     (∀ t, a.readyAt = some t → t + 600000000000 ≤ a.ns → a.svn < v → v ≤ 64 →
       exec .svnFuseAdvance s = .next (({ s with aon := { a with svn := v } } : State).secEvent 0x0006 v))) ∧
    -- the boot ROM and its watchdog
    (let starts := a.step = 1 ∧ a.running = none ∧ a.fawn = none ∧ a.standby = true
     (¬ starts → exec .bootRomStart s = .next s) ∧
     (starts → a.lcFuse = true → is .bootRomStart { a with step := 0, keys := [] }) ∧
     (starts → a.lcFuse = false → a.pendAct = none →
       (a.recov = true → exec .bootRomStart s = .next (s.enterFawn 0)) ∧
       (a.recov = false → 3 ≤ a.bootCnt → exec .bootRomStart s = .next (s.enterFawn 1)) ∧
       (a.recov = false → a.bootCnt < 3 → a.slotValid 1 = false → a.slotValid 2 = false → exec .bootRomStart s = .next (s.enterFawn 2)) ∧
       (a.recov = false → a.bootCnt < 3 → a.slotValid 1 = true ∨ a.slotValid 2 = true →
         (a.img a.active = none → exec .bootRomStart s = .next (({ s with aon := { a with bootCnt := a.bootCnt + 1, step := 0 } } : State).secEvent 0x0007 (a.bootCnt + 1))) ∧
         (∀ m k, a.img a.active = some m → imgCheck a m = some k → k ≠ 0x68 →
           exec .bootRomStart s = .next (({ s with aon := { a with bootCnt := a.bootCnt + 1, step := 0 } } : State).secEvent 0x0007 (a.bootCnt + 1))) ∧
         (∀ m c, a.img a.active = some m → imgCheck a m = none → a.chooseSettings m = some c → m.setFmt ≤ c.fmt →
           let u := d.setFlds R.tahrStatus [(F.tahrStatus_ready, 1), (F.tahrStatus_defaulted, 0), (F.tahrStatus_setFmt, m.setFmt)]
           exec .bootRomStart s = .next { s with dev := u, aon := { a with running := some a.active, step := 1, setVals := c.vals } }))) ∧
     (a.step = 9 ∨ (a.step = 0 ∧ a.running.isSome = true) ∨ a.fawn.isSome = true ∨ a.lcFuse = true ∨ a.standby = false ∨ a.inputGood = false →
       exec .bootWatchdogExpire s = .next s) ∧
     (a.step ≠ 9 → (a.step ≠ 0 ∨ a.running = none) → a.fawn = none → a.lcFuse = false → a.standby = true → a.inputGood = true →
       (a.running = none → exec .bootWatchdogExpire s = .next (({ s with aon := { a with step := 0 } } : State).deviceReset 5)) ∧
       (a.running.isSome = true →
         let c := min 3 (a.bootCnt + 1)
         let t := ({ s with aon := { a with bootCnt := c } } : State).secEvent 0x0007 c
         exec .bootWatchdogExpire s = .next (({ t with aon := { t.aon with step := 0 } } : State).deviceReset 5)))) ∧
    -- Fawn mode
    (∀ (w : W64) (off : BitVec 27) (len : BitVec 21) (e : List Byte) (op : BitVec 8),
      (a.fawn = none → ∀ i ∈ [Instr.fawnNop, .fawnReservedOp op, .fawnWrite w off e, .fawnCommit, .fawnBoot, .fawnBootOther, .fawnReadLog w off len, .fawnAbort],
        exec i s = .next s) ∧
      (∀ f, a.fawn = some f →
        let done := fun (b : AonSt) (f : Fawn) (op st fl : Nat) (out : List Byte) => ({ b with fawn := some { f with op := op, status := st, flags := fl, out := out } } : AonSt)
        let other := ∃ u, a.update = some u ∧ u.path ≠ .fawn
        let g : Fawn := { f with addr := w, len := (e.take 1048576).length, off := off.toNat }
        let big := b2n (decide (1048576 < e.length))
        is .fawnNop (done a f 0 0 0 []) ∧
        is (.fawnReservedOp op) (done a f op.toNat 0 1 []) ∧
        (other → is (.fawnWrite w off e) (done a g 1 0x6C big []) ∧ is .fawnCommit (done a f 2 0x6C 0 [])) ∧
        (¬ other → a.piece .fawn off.toNat (e.take 1048576) = none → is (.fawnWrite w off e) (done a g 1 0x6E big [])) ∧
        (¬ other → (a.update = none → off.toNat = 0) → (∀ u, a.update = some u → u.next = off.toNat) → off.toNat + (e.take 1048576).length ≤ imgMax →
          let u := a.update.getD ⟨.fawn, [], 0⟩
          let b : AonSt := { (a.setImg a.other none) with update := some { u with bytes := Memory.write u.bytes off.toNat (e.take 1048576), next := off.toNat + (e.take 1048576).length } }
          is (.fawnWrite w off e) (done b g 1 0 big [])) ∧
        (∀ k t, ¬ other → s.storeImage = (some k, t) → exec .fawnCommit s = .next (t.fawnDone 2 k 0 [])) ∧
        (∀ t, ¬ other → s.storeImage = (none, t) →
          exec .fawnCommit s = .next (({ t with aon := { t.aon with active := t.aon.other, bootCnt := 0, pendAct := none } } : State).bootSlot t.aon.other)) ∧
        exec .fawnBoot s = .next (({ s with aon := { a with bootCnt := 0, pendAct := none } } : State).bootSlot a.active) ∧
        (a.slotValid a.other = true →
          exec .fawnBootOther s = .next (({ s with aon := { a with active := a.other, bootCnt := 0, pendAct := none } } : State).bootSlot a.other)) ∧
        (a.slotValid a.other = false → is .fawnBootOther (done a f 4 0x6D 0 [])) ∧
        (let n := min 1048576 len.toNat
         is (.fawnReadLog w off len) (done a { f with addr := w, len := n, off := off.toNat } 5 0 (b2n (decide (1048576 < len.toNat)))
           (s.logBytes off.toNat (min n (32 + 32 * a.log.length - off.toNat))))) ∧
        (other ∨ a.update = none → is .fawnAbort (done a f 6 0 0 [])) ∧
        (¬ other → is .fawnAbort (done { a with update := none } f 6 0 0 []))))

/-- R457 to R469, R478, R480 to R483 (Tables 17-4 to 17-12): the fault logic. A report is captured in the free slot of its class and counted; one that finds the
slot held is counted and escalates; a fatal one fences what its scope names. Stalls, scrubs and injections report as their rules say; a
retirement copies, then remaps and is recorded.
The model's own choices in it: log 58 and 71. -/
def Obligations.FaultLogic : Prop :=
  ∀ (s : State), let d := s.dev
    let dest := fun (i : Instr) (u : Dev) => exec i s = .next (State.settled { s with dev := u })
    let is := fun (i : Instr) (u : Dev) => exec i s = .next { s with dev := u }
    -- reports that strike no memory
    (∀ f : FaultReq, d.flt.raised = [] → f.trim = f → f.cause ∉ [0, 1, 0x0D, 0x15] → exemptCause f.cause = false →
      let b := unitDie f.source
      let taken := fun (u : Dev) => exec (.faultReport f) s = .next ({ s with dev := u } : State).drivePins
      let esc := (d.count (R.fltEscCnt b) (R.fltEvt b) F.fltEvt_escOvf).setFld (R.fltEvt b) F.fltEvt_esc 1
      (f.cls < 2 → d.flag (R.fltCapInfo b f.cls) F.fltCapInfo_valid = false → taken ((d.countClass b f.cls).capture b f.cls false f)) ∧
      (f.cls = 0 → d.flag (R.fltCapInfo b 0) F.fltCapInfo_valid = true →
        (let u := esc.countClass b 1
         (u.flag (R.fltCapInfo b 1) F.fltCapInfo_valid = false → taken (u.capture b 1 true f)) ∧
         (u.flag (R.fltCapInfo b 1) F.fltCapInfo_valid = true → taken u))) ∧
      (f.cls = 2 → f.scope = none → d.flag (R.fltCapInfo b 2) F.fltCapInfo_valid = false → unitKind f.master = 1 →
        taken (((d.countClass b 2).capture b 2 false f).fenceKudu (unitInst f.master)))) ∧
    -- stalls
    (∀ k : Fin 64, let u := unitId 1 k
      ((d.core k).cur = none ∨ d.isFenced u = true → exec (.coreStallTimeout k) s = .next s) ∧
      ((d.core k).cur.isSome = true → d.isFenced u = false → dest (.coreStallTimeout k) (d.raise ⟨2, 0x0C, u, u, 9, 0#64, 0, false, false, some 0⟩))) ∧
    (∀ die : Fin 2, let u := unitId 0x13 die
      let held := ∃ k, 32 * die.val ≤ k ∧ k < 32 * die.val + 32 ∧ (d.core k).cur.isSome = true ∧ d.isFenced (unitId 1 k) = false
      (¬ held → exec (.fabricStallTimeout die) s = .next s) ∧
      (held → dest (.fabricStallTimeout die) (d.raise ⟨2, 0x0C, u, u, 9, 0#64, 0, false, false, some 1⟩))) ∧
    -- scrubs
    (∀ (m : BitVec 16) (a : W64), let k := unitKind m.toNat
      let r := mcBase k (unitInst m.toNat) + 0x18
      let corr : FaultReq := ⟨0, 0x00, m.toNat, m.toNat, 5, a, 0, false, false, none⟩
      let unc : FaultReq := ⟨1, 0x01, m.toNat, m.toNat, 5, a, 0, false, false, none⟩
      d.flag (R.fltInj (unitDie m.toNat)) F.fltInj_arm = false → unitInst m.toNat < (if k = 3 then 8 else 16) →
      (k ≠ 3 → k ≠ 4 → dest (.scrubRead m a 0) d ∧ dest (.scrubRead m a 1) (d.raise corr) ∧ (k ≠ 8 → k ≠ 0x0D → dest (.scrubRead m a 2) (d.raise unc))) ∧
      (k = 3 ∨ k = 4 → d.fld r F.hbmcScrub_hours = 0 → ∀ n, dest (.scrubRead m a n) d) ∧
      (k = 3 ∨ k = 4 → d.fld r F.hbmcScrub_hours ≠ 0 → Dev.lastWord (addrTier a) (addrOff a) = false →
        dest (.scrubRead m a 0) (d.setFld r F.hbmcScrub_active 1) ∧ dest (.scrubRead m a 1) ((d.setFld r F.hbmcScrub_active 1).raise corr) ∧
        dest (.scrubRead m a 2) ((d.setFld r F.hbmcScrub_active 1).raise unc))) ∧
    -- capture slots, injection, the fault pair
    (∀ r (b cls : Fin 3), d.busAns r (R.fltCapInfo b cls) true = .ok → is (.faultCaptureAck r b cls) (d.setFld (R.fltCapInfo b cls) F.fltCapInfo_valid 0)) ∧
    (∀ r (b : Fin 3) (m : BitVec 16) (kind : Fin 4), d.busAns r (R.fltInj b) true = .ok → is (.faultInjectArm r b m kind)
      (d.setFlds (R.fltInj b) [(F.fltInj_unit, m.toNat), (F.fltInj_kind, if kind.val = 3 then 0 else kind.val), (F.fltInj_arm, 1)])) ∧
    (∀ pos neg : Bool, let u := unitId 0x12 0
      (pos = s.aon.fltP → neg = s.aon.fltN → is (.faultPinReadbackMismatch pos neg) (d.setFld (R.fltStatus 2) F.fltStatus_pinFault 0)) ∧
      (pos ≠ s.aon.fltP ∨ neg ≠ s.aon.fltN → dest (.faultPinReadbackMismatch pos neg)
        ((d.setFld (R.fltStatus 2) F.fltStatus_pinFault 1).raise ⟨0, 0x16, u, u, 9, 0#64, 0, false, false, none⟩))) ∧
    (s.aon.standby = true → s.aon.standbyAt + 5000000 ≤ s.aon.ns →
      exec .faultPairRelease s = .next { s with aon := { s.aon with fltP := !d.devFatal, fltN := d.devFatal } }) ∧
    (s.aon.standby = false ∨ s.aon.ns < s.aon.standbyAt + 5000000 →
      exec .faultPairRelease s = .next { s with aon := { s.aon with fltP := false, fltN := false } }) ∧
    -- a read of HBM or LPDDR by unit m: an armed injection is taken, poison that is read is an exempt fault of the reader
    (∀ m t off n : Nat, let u := unitId (ctrlOf t off).1 (ctrlOf t off).2
      let a := mkAddr d.nodeId t off
      let old := d.poisoned (memKey t off) n = true ∨ d.retiredAddr t off = true
      d.resolve t off = (t, off) → (t = 1 ∨ t = 2) → d.rindNew t off = false →
      (d.armed t off = none → ¬ old → d.meetPiece m t off n = d) ∧
      (d.armed t off = none → old → unitKind m ≠ 1 → d.meetPiece m t off n = d.raise ⟨1, 0x02, m, u, 0, a, 0, false, false, none⟩) ∧
      (∀ k, d.armed t off = some (u, k) → ¬ old → k ≠ 0 →
        d.meetPiece m t off n = (d.setFld (R.fltInj (unitDie u)) F.fltInj_arm 0).raise ⟨k - 1, k - 1, m, u, 0, a, 0, false, true, none⟩ ∧
        (k = 2 → d.injBad t off = true))) ∧
    -- retirement
    (∀ r (lpc : Bool) (i : Fin 16) (bank : Bool) (old spare : W64),
      let kind := if lpc then 4 else 3
      let b := if lpc then R.lpcStatus i else R.hbmcStatus i
      let t := if lpc then 2 else 1
      let n := if bank then bankGranules kind else 1
      let g := alignDown (granuleOf t old.toNat) n
      let h := alignDown (granuleOf t spare.toNat) n
      let e := ((d.setPair (b + 0x24) old.toNat).setPair (b + 0x2C) spare.toNat).setFld (b + 0x20) F.hbmcRetCmd_bank (b2n bank)
      let st := fun (v : Nat) => e.setFlds (b + 0x20) [(F.hbmcRetCmd_go, 0), (F.hbmcRetCmd_status, v)]
      let mine := d.flt.retired.filter (fun x => x.ctrl == unitId kind i)
      let dup := ∃ x ∈ mine, x.old ≤ g ∧ g < x.old + (if x.bank then bankGranules kind else 1)
      let fits := ctrlOf t old.toNat = (kind, i.val) ∧ ctrlOf t spare.toNat = (kind, i.val) ∧ spareFree d kind i h n = true
      let cap := if lpc then (if bank then 4 else 256) else (if bank then 8 else 512)
      let used := (mine.filter (fun x => x.bank == bank)).length
      d.busAns r (b + 0x20) true = .ok →
      ((∃ x ∈ d.flt.retiring, x.ctrl = unitId kind i) → is (.memoryRetire r lpc i bank old spare) e) ∧
      ((∀ x ∈ d.flt.retiring, x.ctrl ≠ unitId kind i) →
        (dup → is (.memoryRetire r lpc i bank old spare) (st 4)) ∧
        (¬ dup → ¬ fits → is (.memoryRetire r lpc i bank old spare) (st 3)) ∧
        (¬ dup → fits → cap ≤ used → is (.memoryRetire r lpc i bank old spare) ((st 2).setFld (b + 4) F.hbmcEvt_retFull 1)) ∧
        (¬ dup → fits → used < cap →
          let v := e.setFlds (b + 0x20) [(F.hbmcRetCmd_go, 1), (F.hbmcRetCmd_status, 1)]
          let x : Retired := ⟨unitId kind i, bank, g, h⟩
          let w := v.withhold x
          is (.memoryRetire r lpc i bank old spare) { w with flt := { w.flt with retiring := v.flt.retiring ++ [x] } } ∧
          w.flt.withheld = v.flt.withheld ++ [x] ∧
          w.pair (R.capTierAvailLo t) = v.pair (R.capTierAvailLo t) - (if v.flag b F.hbmcStatus_withdrawn then 0 else 4096 * n))) ∧
      ((∀ x ∈ d.flt.retiring, x.ctrl ≠ unitId kind i) → exec (.memoryRetireComplete lpc i) s = .next s) ∧
      (∀ x, d.flt.retiring.find? (fun x => x.ctrl == unitId kind i) = some x →
        let u : Dev := { d with flt := { d.flt with retiring := d.flt.retiring.filter (· ≠ x) } }
        exec (.memoryRetireComplete lpc i) s = .next { s with
          dev := (u.addRetired x).setFlds (b + 0x20) [(F.hbmcRetCmd_go, 0), (F.hbmcRetCmd_status, 0)]
          aon := { s.aon with retired := s.aon.retired ++ [x] } }))

/-- R492, R521 to R543 (Tables 19-3 and 19-4): power, resets and start-up. A device reset keeps what lies in flash, in management flash, in fuses and in the key
store, turns the main rails off and begins start-up at the step that its cause asks for; one that comes while a reset runs adds its cause and
nothing else.
The model's own choices in it: log 4, 8 and 19. -/
def Obligations.PowerAndResets : Prop :=
  ∀ (s : State), let a := s.aon
    let d := s.dev
    let is := fun (i : Instr) (u : Dev) => exec i s = .next { s with dev := u }
    let aon := fun (i : Instr) (b : AonSt) => exec i s = .next { s with aon := b }
    let inReset := a.mainGood = false ∧ (a.step = 1 ∨ a.step = 2) ∧ a.fawn = none
    -- what a device reset of a cause leaves
    let again := fun (i : Instr) (c : Nat) => inReset → is i (d.setFld R.pwrCause ⟨c, 1⟩ 1)
    let whole := fun (i : Instr) (c : Nat) => ¬ inReset → ∃ t, exec i s = .next t ∧
      (let restart := c = 5 ∨ c = 6 ∨ a.pendAct.isSome = true ∨ a.running = none
       t.aon.step = (if restart then 1 else 2) ∧ t.aon.running = (if restart then none else a.running) ∧ t.aon.update = (if restart then none else a.update) ∧
       t.aon.mainGood = false ∧ t.aon.pwrgd = false ∧ t.aon.readyAt = none ∧ t.aon.fawn = none ∧
       t.aon.log = a.log ∧ t.aon.keys = a.keys ∧ t.aon.lc = a.lc ∧ t.aon.lcFuse = a.lcFuse ∧ t.aon.svn = a.svn ∧ t.aon.img1 = a.img1 ∧ t.aon.img2 = a.img2 ∧
       t.aon.active = a.active ∧ t.aon.pendAct = a.pendAct ∧ t.aon.copyA = a.copyA ∧ t.aon.copyB = a.copyB ∧ t.aon.retired = a.retired ∧ t.aon.bootCnt = a.bootCnt ∧
       t.aon.vpd = a.vpd ∧ t.aon.eid = a.eid ∧
       t.dev.ctxs = [] ∧ t.dev.mem = [] ∧ t.dev.flt = Dev.reset.flt ∧ t.dev.herd = Dev.reset.herd ∧ t.dev.ftl.flash = d.ftl.flash ∧ t.dev.flash.words = d.flash.words ∧
       t.dev.host.nss = d.host.nss ∧ t.dev.fld R.pwrCause ⟨c, 1⟩ = 1 ∧ (∀ k, 1 ≤ k → k ≤ 7 → k ≠ c → t.dev.fld R.pwrCause ⟨k, 1⟩ = 0) ∧
       (∀ i < 8, t.dev.reg (R.pwrStep i) = 0#32) ∧ t.dev.fld R.hostPortcfg F.hostPortcfg_mode = d.fld R.hostPortcfg F.hostPortcfg_next ∧
       t.dev.fld R.pwrStatus F.pwrStatus_inForce = min (d.fld R.pwrCap F.pwrCap_w) (min 450 a.thermCap))
    (∀ cause : Fin 8, let c := if cause.val = 0 then 4 else cause.val
      again (.deviceReset cause) c ∧ whole (.deviceReset cause) c) ∧
    again .nvmSubsystemReset 3 ∧ whole .nvmSubsystemReset 3 ∧
    (∀ r, d.busAns r R.pwrCtrl true = .ok → again (.pwrCtrlReset r) 4 ∧ whole (.pwrCtrlReset r) 4) ∧
    (∀ us : BitVec 16, us.toNat < 10 → exec (.resetPinAssert us) s = .next s) ∧
    (∀ us : BitVec 16, 100 ≤ us.toNat → whole (.resetPinAssert us) 2 ∧
      (inReset → exec (.resetPinAssert us) s = .next { s with dev := d.setFld R.pwrCause ⟨2, 1⟩ 1, aon := { a with resetLow := true } })) ∧
    aon .resetPinRelease { a with resetLow := false } ∧
    -- power
    (a.inputGood = false → exec .mainPowerLoss s = .next s) ∧
    (a.inputGood = true → (a.mainGood = false ∨ d.ftl.admOpen = false) →
      let u := (d.count R.pwrLossCnt R.pwrEvt F.pwrEvt_lossOvf).setFld R.pwrEvt F.pwrEvt_loss 1
      let v := (u.setFlds R.pwrStatus [(F.pwrStatus_mainGood, 0), (F.pwrStatus_vcoreMv, 0), (F.pwrStatus_atFloor, 0)]).setFld R.pwrStatus F.pwrStatus_holdup 1
      exec .mainPowerLoss s = .next { ({ s with dev := v } : State).opalLock with
        aon := { ({ s with dev := v } : State).opalLock.aon with mainGood := false, pwrgd := false, readyAt := none, inputGood := false, holdup := true, step := 0 } }) ∧
    (a.inputGood = true ∨ a.standby = false → exec .mainPowerReturn s = .next s) ∧
    (a.inputGood = false → a.standby = true →
      let t : State := { s with dev := d.setFld R.pwrStatus F.pwrStatus_holdup 0, aon := { a with inputGood := true, holdup := false } }
      exec .mainPowerReturn s = exec (.deviceReset 1) t) ∧
    (a.inputGood = true → exec .standbyPowerLoss s = .next s) ∧
    (a.inputGood = false → aon .standbyPowerLoss { a with
      standby := false, holdup := false, running := none, fawn := none, update := none, charged := false, log := a.log.drop a.uncommitted
      uncommitted := 0, nonce := none, fltP := false, fltN := false }) ∧
    (∃ t, exec .coldReset s = .next t ∧ t.aon.step = 1 ∧ t.aon.running = none ∧ t.aon.mainGood = false ∧ t.aon.log = a.log.drop a.uncommitted ∧ t.aon.lc = a.lc ∧
      t.aon.svn = a.svn ∧ t.aon.keys = a.keys ∧ t.aon.img1 = a.img1 ∧ t.aon.img2 = a.img2 ∧ t.aon.copyA = a.copyA ∧ t.aon.copyB = a.copyB ∧ t.aon.retired = a.retired ∧
      t.aon.update = none ∧ t.aon.nonce = none ∧ t.dev.ctxs = [] ∧ t.dev.mem = [] ∧ t.dev.ftl.flash = d.ftl.flash ∧
      t.dev.reg R.pwrCause = regReset R.pwrCause ∧ t.dev.reg R.secEvt = regReset R.secEvt) ∧
    (a.standby = true → aon .holdupBankCharged { a with charged := true }) ∧
    (a.standby = false → aon .holdupBankCharged a) ∧
    (∀ (w : BitVec 16) (mv : BitVec 12), let b : AonSt := { a with samples := w.toNat :: a.samples.take 9 }
      let v := clampTo 550 900 mv.toNat
      let u := d.setFlds R.pwrStatus [(F.pwrStatus_vcoreMv, v), (F.pwrStatus_atFloor, b2n (v == 550))]
      (a.mainGood = false → aon (.powerControlSample w mv) b) ∧
      (a.mainGood = true → v = 550 → exec (.powerControlSample w mv) s = .next { s with dev := u.setFld R.pwrEvt F.pwrEvt_floor 1, aon := b }) ∧
      (a.mainGood = true → v ≠ 550 → exec (.powerControlSample w mv) s = .next { s with dev := u, aon := b })) ∧
    (∀ r (v : W32), d.busAns r R.pwrCap true = .ok →
      let n := getF v F.pwrCap_w
      let c := clampTo 250 450 (n / 25 * 25)
      let k := b2n (decide (n % 25 ≠ 0)) + b2n (decide (c ≠ n / 25 * 25))
      exec (.pwrCapWrite r v) s = .next ({ s with dev := (d.setFld R.pwrCap F.pwrCap_w c).countN R.pwrClampCnt R.pwrEvt F.pwrEvt_clampOvf k } : State).updateCap) ∧
    -- heat
    (let cur := min a.thermCap (d.fld R.pwrStatus F.pwrStatus_inForce)
     let n := max 250 (cur - 25)
     let crit := d.flag R.tahrEvt F.tahrEvt_crit
     let u := (d.count R.pwrThrottleCnt R.pwrEvt F.pwrEvt_throttleOvf).setFld R.pwrEvt F.pwrEvt_throttle 1
     (crit = true → n < cur → exec .thermalCapStep s = .next ({ s with dev := u, aon := { a with thermCap := n } } : State).updateCap) ∧
     (crit = true → cur ≤ n → exec .thermalCapStep s = .next s) ∧
     (crit = false → a.thermCap < 450 → exec .thermalCapStep s = .next ({ s with aon := { a with thermCap := min 450 (a.thermCap + 25) } } : State).updateCap) ∧
     (crit = false → 450 ≤ a.thermCap → exec .thermalCapStep s = .next s)) ∧
    (let hot := (∃ i, i < 40 ∧ 920 ≤ d.temp i) ∨ 520 ≤ d.temp 62
     let x := unitId 0x12 0
     (a.mainGood = false ∨ ¬ hot → exec .thermalTrip s = .next s) ∧
     (a.mainGood = true → hot →
       let t := ({ s with dev := d.raise ⟨2, 0x11, x, x, 9, 0#64, 0, false, false, some 2⟩ } : State).settled
       let u := t.dev.setFlds R.pwrStatus [(F.pwrStatus_mainGood, 0), (F.pwrStatus_vcoreMv, 0), (F.pwrStatus_atFloor, 0)]
       exec .thermalTrip s = .next { t with
         dev := u.setFld R.pwrEvt F.pwrEvt_trip 1
         aon := { t.aon with mainGood := false, pwrgd := false, readyAt := none, step := if t.aon.step = 9 then 0 else t.aon.step } })) ∧
    (∀ (cage : Fin 9) (w : BitVec 8), aon (.cageModuleInsert cage w) { a with cages := Tab.put a.cages cage.val (decide (w.toNat ≤ 16)) }) ∧
    -- the steps of start-up
    (∀ (ms : W32) (fail : List (BitVec 16)), let i := Instr.startupStepEnd ms fail
      let rec' := fun (u : Dev) (k : Nat) => u.setReg (R.pwrStep (k - 1)) (BitVec.ofNat 32 (max 1 ms.toNat))
      let next := fun (u : Dev) (k : Nat) => exec i s = .next (State.settled { s with dev := rec' u k, aon := { a with step := k + 1 } })
      (a.step = 0 ∨ 8 < a.step → exec i s = .next s.settled) ∧
      (a.step = 1 → a.charged = true → a.running.isSome = true → a.fawn = none → next d 1) ∧
      (a.step = 1 → a.charged = false ∨ a.running = none ∨ a.fawn.isSome = true → exec i s = .next s.settled) ∧
      (a.step = 2 → a.resetLow = true ∨ a.inputGood = false → exec i s = .next s.settled) ∧
      (a.step = 2 → a.resetLow = false → a.inputGood = true → ∃ t, exec i s = .next (State.settled t) ∧
        t.aon.mainGood = true ∧ t.aon.pwrgd = true ∧ t.aon.step = 3 ∧ t.dev.now = 0 ∧ t.dev.fld R.pwrStatus F.pwrStatus_mainGood = 1 ∧
        (∀ k < 3, t.dev.fld (R.tsStatus k) F.tsStatus_running = 1) ∧ t.dev.reg (R.pwrStep 1) = BitVec.ofNat 32 (max 1 ms.toNat)) ∧
      (a.step = 3 → fail = [] → a.retired = [] → d.flt.raised = [] → d.devFatal = false →
        next ((List.range 3).foldl (fun d b => d.setFld (R.fltStatus b) F.fltStatus_selftestDone 1) d) 3) ∧
      (4 ≤ a.step → a.step ≤ 8 → d.devFatal = true → exec i s = .next s.settled) ∧
      (d.devFatal = false →
        (a.step = 4 → next { d with mem := [], flt := { d.flt with poison := [] }, flash := { d.flash with wbuf := [], wbPoison := [], oryxIn := [] } } 4) ∧
        (a.step = 5 → next d 5) ∧
        (a.step = 6 → next { d with dcqs := [] } 6) ∧
        (a.step = 7 → Tab.find a.setVals R.pwrCap = none → Tab.getD a.setVals setEnumStart 0#32 = 0#32 →
          next (d.startFirmware a.setVals (ms.toNat - (d.reg (R.pwrStep 5)).toNat)) 7) ∧
        (a.step = 8 → ∃ t, exec i s = .next (State.settled t) ∧ t.aon.step = 9 ∧ t.aon.readyAt = some a.ns ∧ t.aon.bootCnt = 0 ∧
          t.dev.host.ctrls = d.host.ctrls.map (fun c => (c.1, { c.2 with rdy := c.2.en })) ∧ t.dev.reg (R.pwrStep 7) = BitVec.ofNat 32 (max 1 ms.toNat))))

/-- The memory of tiers 0 to 2 by byte (R68; what a byte that nothing has written reads as is R507's zero): a byte reads as it was written last, every other byte
as before, and a write, a wipe and a copy keep the list in its canonical form, in which no two lists hold the same bytes.
The model's own choices in it: log 10. -/
def Obligations.MemoryBytes : Prop :=
  (∀ (m : List Host.Cell) (k j : Nat) (b : Byte), Memory.get (Memory.set m k b) j = if j = k then b else Memory.get m j) ∧
  (∀ (m : List Host.Cell) (l : List Byte) (k j : Nat),
    Memory.get (Memory.write m k l) j = if k ≤ j ∧ j < k + l.length then l.getD (j - k) 0#8 else Memory.get m j) ∧
  (∀ (m : List Host.Cell) (k n j : Nat), Memory.wf m = true → Memory.get (Memory.wipe m k n) j = if k ≤ j ∧ j < k + n then 0#8 else Memory.get m j) ∧
  (∀ (m : List Host.Cell) (k n dest j : Nat), Memory.wf m = true →
    Memory.get (Memory.copy m k n dest) j = if dest ≤ j ∧ j < dest + n then Memory.get m (k + (j - dest)) else Memory.get m j) ∧
  (∀ (m : List Host.Cell) (l : List Byte) (k n dest : Nat), Memory.wf m = true →
    Memory.wf (Memory.write m k l) = true ∧ Memory.wf (Memory.wipe m k n) = true ∧ Memory.wf (Memory.copy m k n dest) = true) ∧
  (∀ (m n : List Host.Cell), Memory.wf m = true → Memory.wf n = true → (∀ k, Memory.get m k = Memory.get n k) → m = n)

/-- A step takes the command at the front of the queue and is that command's effect on the state with the queue's rest. On an empty queue one
nanosecond passes (the model's choice, log 1): Tahr standby time always counts, the main time-stamp while the main rails are in
regulation (R62, R494); a nanosecond in which a controller has a command outstanding, a context can run, or a search, a move or a compaction
is on counts for no controller's idle time (R448).
The model's own choices in it: log 1 and 2. -/
def Obligations.StepTakesTheFront : Prop :=
  ∀ (s : State) (c : Instr) (r : List Instr),
    (s.pending = c :: r → step s = exec c { s with pending := r }) ∧
    (s.pending = [] → s.aon.mainGood = true → step s = .next { s with dev := { s.dev.idlePause with now := s.dev.now + 1 }, aon := { s.aon with ns := s.aon.ns + 1 } }) ∧
    (s.pending = [] → s.aon.mainGood = false → step s = .next { s with aon := { s.aon with ns := s.aon.ns + 1 } }) ∧
    (∀ p : Nat, s.dev.idlePause.ctrl p = if s.dev.apstIdle = false ∧ s.dev.portUsed p = true
      then { s.dev.ctrl p with idleAt := (s.dev.ctrl p).idleAt + 1 } else s.dev.ctrl p)

/-- Every step that finds a well-formed command, or none, answers a next state. It takes one command off the queue and adds none, keeps the
standby records in what their places can hold (R492, R507, R508, R512, R525, Table 18-6), lowers no security version, and moves the life
cycle only along Table 18-6. -/
def Obligations.EveryStepKeepsTheRecords : Prop :=
  ∀ (s : State), (∀ c ∈ s.pending, c.wf = true) → s.aon.Inv →
    ∃ t, step s = .next t ∧ t.pending = s.pending.tail ∧ t.aon.Inv ∧ s.aon.Onward t.aon

/-- What the machine holds after reset: the standby records meet their invariant; no command waits; no context, object, collection, namespace or
line is there; memory lists nothing; every register of the table reads its reset value (R12), among them the counts of units in service
and the power cap. That the machine starts at a cold reset with no image is the model's choice (log 8).
The model's own choices in it: log 8 and 9. -/
def Obligations.ResetState : Prop :=
  State.reset.aon.Inv ∧ State.reset.pending = [] ∧ State.reset.dev.ctxs = [] ∧ State.reset.dev.mem = [] ∧ Memory.wf State.reset.dev.mem = true ∧
  State.reset.dev.tier.objs = [] ∧ State.reset.dev.search.colls = [] ∧ State.reset.dev.host.nss = [] ∧ State.reset.dev.herd.dir = [] ∧
  State.reset.dev.flt.raised = [] ∧ State.reset.aon.mainGood = false ∧ State.reset.aon.standby = true ∧ State.reset.aon.lc = 0 ∧
  (∀ a, State.reset.dev.reg a = regReset a) ∧
  (∀ p ∈ ([(R.capVersion, 0x1040100), (R.capScratch, 0x1000000), (R.capStep, 0x47E), (R.capHerd, 0x2424), (R.tierWait, 10),
      (R.fltCtrl 2, 1), (R.partCost, 0x1404010), (R.pwrCap, 450), (R.tempoCtrl 31, 0x41), (R.tempoRate 31, 0), (R.dirTokin, 64), (R.wbcCtrl, 0xC000),
      (R.ftlGcLim0, 0x2000040), (R.tahrTempLim, 0x34802A8), (R.fchSusp 15, 0x14C864), (R.srchWheyThresh, 0x1000000), (R.kuduGap 63, 0x300C8),
      (R.addrNode, 0)] : List (Nat × W32)), State.reset.dev.reg p.1 = p.2) ∧
  State.reset.dev.fld R.capKudu F.capKudu_inService = 64 ∧ State.reset.dev.fld R.capCham F.capCham_inService = 32 ∧
  State.reset.dev.fld R.capHerd F.capHerd_inService = 36 ∧ State.reset.dev.fld R.pwrCap F.pwrCap_w = 450
end

