-- ==== Sys2Proof/Laws/Tab.lean ====
section
/-! SUPPORT. The laws of tables: what a lookup gives after a store, and that every operation keeps the keys rising. -/
namespace Sys2Proof.Machine
variable {α : Type}

@[simp] theorem Tab.find_nil (k : Nat) : Tab.find ([] : Tab α) k = none := rfl

@[simp] theorem Tab.find_put_same (t : Tab α) (k : Nat) (v : α) : Tab.find (Tab.put t k v) k = some v := by
  induction t with
  | nil => simp [Tab.put, Tab.find]
  | cons p r ih =>
    obtain ⟨j, w⟩ := p
    simp only [Tab.put]
    split
    · simp [Tab.find]
    · split
      · simp [Tab.find]
      · rename_i h1 h2
        have : j ≠ k := fun h => h2 h.symm
        simp [Tab.find, this, ih]

theorem Tab.find_put_other (t : Tab α) {k k' : Nat} (v : α) (h : k' ≠ k) :
    Tab.find (Tab.put t k v) k' = Tab.find t k' := by
  induction t with
  | nil => simp [Tab.put, Tab.find, Ne.symm h]
  | cons p r ih =>
    obtain ⟨j, w⟩ := p
    simp only [Tab.put]
    split
    · simp [Tab.find, Ne.symm h]
    · split
      · rename_i h2; subst h2; simp [Tab.find, Ne.symm h]
      · simp only [Tab.find]; split <;> simp_all

@[simp] theorem Tab.find_del_same (t : Tab α) (k : Nat) : Tab.find (Tab.del t k) k = none := by
  induction t with
  | nil => rfl
  | cons p r ih =>
    obtain ⟨j, w⟩ := p
    simp only [Tab.del]; split
    · exact ih
    · rename_i h; simp [Tab.find, h, ih]

theorem Tab.find_del_other (t : Tab α) {k k' : Nat} (h : k' ≠ k) :
    Tab.find (Tab.del t k) k' = Tab.find t k' := by
  induction t with
  | nil => rfl
  | cons p r ih =>
    obtain ⟨j, w⟩ := p
    simp only [Tab.del]; split
    · rename_i e; subst e; rw [ih]; simp [Tab.find, Ne.symm h]
    · simp only [Tab.find]; split <;> simp_all

@[simp] theorem Tab.getD_put_same (t : Tab α) (k : Nat) (v d : α) : Tab.getD (Tab.put t k v) k d = v := by
  simp [Tab.getD]

theorem Tab.getD_put_other (t : Tab α) {k k' : Nat} (v d : α) (h : k' ≠ k) :
    Tab.getD (Tab.put t k v) k' d = Tab.getD t k' d := by
  simp [Tab.getD, Tab.find_put_other t v h]

@[simp] theorem Tab.getD_store_same [DecidableEq α] (t : Tab α) (k : Nat) (v d : α) :
    Tab.getD (Tab.store t k v d) k d = v := by
  unfold Tab.store; split
  · rename_i h; simp [Tab.getD, h]
  · simp

theorem Tab.getD_store_other [DecidableEq α] (t : Tab α) {k k' : Nat} (v d : α) (h : k' ≠ k) :
    Tab.getD (Tab.store t k v d) k' d = Tab.getD t k' d := by
  unfold Tab.store; split
  · simp [Tab.getD, Tab.find_del_other t h]
  · exact Tab.getD_put_other t v d h

theorem Tab.risesFrom_mono (t : Tab α) {a b : Nat} (h : a ≤ b) (ht : Tab.risesFrom b t = true) :
    Tab.risesFrom a t = true := by
  cases t with
  | nil => rfl
  | cons p r =>
    obtain ⟨j, w⟩ := p
    simp [Tab.risesFrom] at ht ⊢
    exact ⟨by omega, ht.2⟩

theorem Tab.risesFrom_put (t : Tab α) (b k : Nat) (v : α) (hb : b ≤ k) (ht : Tab.risesFrom b t = true) :
    Tab.risesFrom b (Tab.put t k v) = true := by
  induction t generalizing b with
  | nil => simp [Tab.put, Tab.risesFrom, hb]
  | cons p r ih =>
    obtain ⟨j, w⟩ := p
    simp [Tab.risesFrom] at ht
    simp only [Tab.put]
    split
    · simp [Tab.risesFrom, ht.2]; omega
    · split
      · rename_i h; subst h; simp [Tab.risesFrom, ht.2, hb]
      · simp [Tab.risesFrom, ht.1]; exact ih _ (by omega) ht.2

theorem Tab.risesFrom_del (t : Tab α) (b k : Nat) (ht : Tab.risesFrom b t = true) :
    Tab.risesFrom b (Tab.del t k) = true := by
  induction t generalizing b with
  | nil => rfl
  | cons p r ih =>
    obtain ⟨j, w⟩ := p
    simp [Tab.risesFrom] at ht
    simp only [Tab.del]
    split
    · exact Tab.risesFrom_mono _ (by omega) (ih _ ht.2)
    · simp [Tab.risesFrom, ht.1]; exact ih _ ht.2

theorem Tab.risesFrom_store [DecidableEq α] (t : Tab α) (k : Nat) (v d : α) (ht : Tab.risesFrom 0 t = true) :
    Tab.risesFrom 0 (Tab.store t k v d) = true := by
  unfold Tab.store; split
  · exact Tab.risesFrom_del t 0 k ht
  · exact Tab.risesFrom_put t 0 k v (Nat.zero_le _) ht

theorem Tab.risesFrom_modify (t : Tab α) (b k : Nat) (f : α → α) (ht : Tab.risesFrom b t = true) :
    Tab.risesFrom b (Tab.modify t k f) = true := by
  induction t generalizing b with
  | nil => rfl
  | cons p r ih =>
    obtain ⟨j, w⟩ := p
    simp [Tab.risesFrom] at ht
    simp only [Tab.modify]; split
    · simp [Tab.risesFrom, ht]
    · simp [Tab.risesFrom, ht.1]; exact ih _ ht.2

end Sys2Proof.Machine
end

