-- ==== Sys2Proof/Laws/Run.lean ====
section
/-! SUPPORT. What the run of an ITNUM instruction does, said once: which instruction executes (R116 to R120, R125) and how it leaves
its context (R111, R112, R117). -/
namespace Sys2Proof.Machine

theorem Tab.find_modify_same {α : Type} (t : Tab α) (k : Nat) (f : α → α) : Tab.find (Tab.modify t k f) k = (Tab.find t k).map f := by
  induction t with
  | nil => rfl
  | cons p r ih =>
    obtain ⟨j, w⟩ := p
    simp only [Tab.modify]
    split
    · rename_i h; simp [Tab.find, h]
    · rename_i h; simp [Tab.find, h, ih]

theorem Tab.find_modify_other {α : Type} (t : Tab α) {k k' : Nat} (f : α → α) (h : k' ≠ k) :
    Tab.find (Tab.modify t k f) k' = Tab.find t k' := by
  induction t with
  | nil => rfl
  | cons p r ih =>
    obtain ⟨j, w⟩ := p
    simp only [Tab.modify]
    split
    · rename_i e; subst e; simp [Tab.find, Ne.symm h]
    · simp only [Tab.find, ih]

theorem Tab.modify_modify {α : Type} (t : Tab α) (k : Nat) (f g : α → α) :
    Tab.modify (Tab.modify t k f) k g = Tab.modify t k (fun a => g (f a)) := by
  induction t with
  | nil => rfl
  | cons p r ih =>
    obtain ⟨j, w⟩ := p
    simp only [Tab.modify]
    split
    · rename_i h; simp [Tab.modify, h]
    · rename_i h; simp [Tab.modify, h, ih]

theorem Tab.modify_congr {α : Type} (t : Tab α) (k : Nat) (f g : α → α) (h : ∀ a, Tab.find t k = some a → f a = g a) :
    Tab.modify t k f = Tab.modify t k g := by
  induction t with
  | nil => rfl
  | cons p r ih =>
    obtain ⟨j, w⟩ := p
    simp only [Tab.modify]
    split
    · rename_i e; rw [h w (by simp [Tab.find, e])]
    · rename_i e; rw [ih (fun a ha => h a (by simp [Tab.find, e, ha]))]

theorem Tab.modify_id {α : Type} (t : Tab α) (k : Nat) (f : α → α) (h : ∀ a, Tab.find t k = some a → f a = a) :
    Tab.modify t k f = t := by
  induction t with
  | nil => rfl
  | cons p r ih =>
    obtain ⟨j, w⟩ := p
    simp only [Tab.modify]
    split
    · rename_i e; rw [h w (by simp [Tab.find, e])]
    · rename_i e; rw [ih (fun a ha => h a (by simp [Tab.find, e, ha]))]

/-- The clamps that the extension rule counts (R118). -/
def extCount (k : ExtKind) (w : W64) : Nat := match k with | .none => b2n (iExt w) | .opt => 0 | .req => b2n (!iExt w)

namespace Ctx

theorem clampAt_zero (x : Ctx) (pc : W64) : x.clampAt pc 0 = x := by simp [clampAt]
/-- Clamps of one instruction add up. -/
theorem clampAt_add (x : Ctx) (pc : W64) (n m : Nat) : (x.clampAt pc n).clampAt pc m = x.clampAt pc (n + m) := by
  unfold clampAt
  by_cases h1 : n = 0
  · simp [h1]
  · by_cases h2 : m = 0
    · simp [h2]
    · have : n + m ≠ 0 := by omega
      simp only [h1, h2, this, if_false]
      congr 1
      · omega
      · rw [Bool.eq_iff_iff]; cases x.clampOvf <;> simp; omega
      · cases x.firstClamp <;> rfl
      · simp [Nat.or_assoc]
theorem clampAt_pc (x : Ctx) (i : Nat) (v : W64) : (x.clampAt v i).arch.pc = x.arch.pc := by unfold clampAt; split <;> rfl
theorem setS_pc (x : Ctx) (i : Nat) (v : W64) : (x.setS i v).arch.pc = x.arch.pc := by unfold setS; split <;> rfl
theorem setP_pc (x : Ctx) (i : Nat) (v : Bool) : (x.setP i v).arch.pc = x.arch.pc := by unfold setP; split <;> rfl
theorem setS_clampAt (x : Ctx) (pc : W64) (n i : Nat) (v : W64) : (x.clampAt pc n).setS i v = (x.setS i v).clampAt pc n := by
  unfold setS clampAt; split <;> split <;> rfl
theorem setP_clampAt (x : Ctx) (pc : W64) (n i : Nat) (v : Bool) : (x.clampAt pc n).setP i v = (x.setP i v).clampAt pc n := by
  unfold setP clampAt; split <;> split <;> rfl
/-- Clamps that an effect counts and clamps that the extension rule counts are one number. -/
theorem executed_clampAt (x : Ctx) (m n now : Nat) (nx : W64) : (x.clampAt x.arch.pc m).executed now n nx = x.executed now (m + n) nx := by
  unfold executed; rw [clampAt_pc, clampAt_add]
theorem executed_setS (x : Ctx) (m n i : Nat) (v : W64) (now : Nat) (nx : W64) :
    ((x.clampAt x.arch.pc m).setS i v).executed now n nx = (x.setS i v).executed now (m + n) nx := by
  rw [setS_clampAt, ← setS_pc x i v, executed_clampAt]
theorem executed_setP (x : Ctx) (m n i : Nat) (v : Bool) (now : Nat) (nx : W64) :
    ((x.clampAt x.arch.pc m).setP i v).executed now n nx = (x.setP i v).executed now (m + n) nx := by
  rw [setP_clampAt, ← setP_pc x i v, executed_clampAt]

end Ctx

namespace Dev

theorem ctx?_modCtx (d : Dev) (c : Nat) (f : Ctx → Ctx) : (d.modCtx c f).ctx? c = (d.ctx? c).map f := Tab.find_modify_same _ _ _
theorem modCtx_modCtx (d : Dev) (c : Nat) (f g : Ctx → Ctx) : (d.modCtx c f).modCtx c g = d.modCtx c (fun x => g (f x)) := by
  simp [modCtx, Tab.modify_modify]
theorem modCtx_congr (d : Dev) (c : Nat) (f g : Ctx → Ctx) {x : Ctx} (h : d.ctx? c = some x) (e : f x = g x) : d.modCtx c f = d.modCtx c g := by
  unfold modCtx
  rw [Tab.modify_congr d.ctxs c f g (fun a ha => by unfold ctx? at h; rw [h] at ha; cases ha; exact e)]

theorem modCtx_id (d : Dev) (c : Nat) (f : Ctx → Ctx) (h : ∀ x, f x = x) : d.modCtx c f = d := by
  have : Tab.modify d.ctxs c f = d.ctxs := Tab.modify_id _ _ _ (fun a _ => h a)
  unfold modCtx; rw [this]

theorem trapNow_modCtx (d : Dev) (c : Nat) (f : Ctx → Ctx) {x : Ctx} (h : d.ctx? c = some x) :
    (d.modCtx c f).trapNow c = d.modCtx c (fun z => if (f z).launch.clampTrap && (f z).clamps ≠ 0 then (f z).ended d.now 0x12 else f z) := by
  unfold trapNow
  rw [ctx?_modCtx, h]
  dsimp only [Option.map]
  split
  · rename_i e
    rw [endCtx, modCtx_modCtx]
    apply modCtx_congr _ _ _ _ h
    simp only [e, if_true, Ctx.ended]; rfl
  · rename_i e
    apply modCtx_congr _ _ _ _ h
    simp only [e]
    rfl

/-- The run of an instruction that executes. -/
theorem run_ready {d : Dev} {c : Nat} {x : Ctx} {w : W64} {cls op : Nat} {uses : List Nat} (h : d.Runs c x w cls op uses) (xw : W64)
    (k : ExtKind) (f : Dev → Ctx → W64 → Nat → Leave) :
    d.run c w xw cls op k uses f =
      (match f d x (if iExt w && k ≠ .none then xw else 0#64) (extCount k w) with
       | .wait e => e
       | l => d.leaveBy c (behind' x w) (extCount k w) l) := by
  obtain ⟨h1, h2, h3, h4, h5, h6, h7, h8⟩ := h
  have hp : (x.p (bits64 w 50 3) == bit64 w 49) = false := by simp [h7]
  have he : (iExt w && !inCode x (x.arch.pc + 8#64)) = false := by
    cases hw : iExt w
    · rfl
    · simp [h6 hw]
  have hf : (uses.any (fun r => r != 0 && x.pendingRegs.contains r)) = false := by
    rw [List.any_eq_false]
    intro r hr
    rcases h8 r hr with h | h <;> simp [h]
  unfold run
  rw [h1]
  dsimp only
  rw [if_neg (by simp [h2, h3, h4, h5, he]), if_neg (by simp [hp]), if_neg (by rw [hf]; simp)]
  cases k <;> rfl

/-- The clamps, the program counter and the end by CLAMP_TRAP of an instruction whose effect changes its context alone. -/
theorem leaveBy_next {d : Dev} {c : Nat} {x : Ctx} (h : d.ctx? c = some x) (e : Dev) (g : Ctx → Ctx) (he : e = d.modCtx c g) (next : W64) (n : Nat) :
    d.leaveBy c next n (.next e) = d.modCtx c (fun _ => (g x).executed d.now n next) := by
  subst he
  simp only [leaveBy, clampC, modCtx_modCtx]
  rw [trapNow_modCtx _ _ _ h]
  apply modCtx_congr _ _ _ _ h
  simp [Ctx.executed]

theorem leaveBy_goto {d : Dev} {c : Nat} {x : Ctx} (h : d.ctx? c = some x) (e : Dev) (g : Ctx → Ctx) (he : e = d.modCtx c g) (a next : W64) (n : Nat) :
    d.leaveBy c next n (.goto a e) = d.modCtx c (fun _ => (g x).executed d.now n a) := by
  subst he
  simp only [leaveBy, clampC, modCtx_modCtx]
  rw [trapNow_modCtx _ _ _ h]
  apply modCtx_congr _ _ _ _ h
  simp [Ctx.executed]

end Dev

/-- An instruction that executes and whose effect changes its context alone. -/
theorem run_next {d : Dev} {c : Nat} {x : Ctx} {w : W64} {cls op : Nat} {uses : List Nat} (h : d.Runs c x w cls op uses) (xw : W64)
    (k : ExtKind) (f : Dev → Ctx → W64 → Nat → Leave) (g : Ctx → Ctx) (n : Nat)
    (hn : (extCount k w) = n)
    (hf : f d x (if iExt w && k ≠ .none then xw else 0#64) n = .next (d.modCtx c g)) :
    d.run c w xw cls op k uses f = d.modCtx c (fun _ => (g x).executed d.now n (Dev.behind' x w)) := by
  rw [Dev.run_ready h, hn, hf]
  exact Dev.leaveBy_next h.here _ g rfl _ _

/-- An instruction that executes, whose effect on the device leaves its context as y and then changes it by g. -/
theorem run_next' {d : Dev} {c : Nat} {x y : Ctx} {w : W64} {cls op : Nat} {uses : List Nat} (h : d.Runs c x w cls op uses) (xw : W64)
    (k : ExtKind) (f : Dev → Ctx → W64 → Nat → Leave) (g : Ctx → Ctx) (n : Nat) (d' : Dev) (hn : extCount k w = n)
    (hf : f d x (if iExt w && k ≠ .none then xw else 0#64) n = .next (d'.modCtx c g)) (hc : d'.ctx? c = some y) :
    d.run c w xw cls op k uses f = d'.modCtx c (fun _ => (g y).executed d'.now n (Dev.behind' x w)) := by
  rw [Dev.run_ready h, hn, hf]
  exact Dev.leaveBy_next hc _ g rfl _ _

/-- An instruction that executes and jumps, its other effect in its context alone. -/
theorem run_goto {d : Dev} {c : Nat} {x : Ctx} {w : W64} {cls op : Nat} {uses : List Nat} (h : d.Runs c x w cls op uses) (xw : W64)
    (k : ExtKind) (f : Dev → Ctx → W64 → Nat → Leave) (g : Ctx → Ctx) (n : Nat) (a : W64) (hn : extCount k w = n)
    (hf : f d x (if iExt w && k ≠ .none then xw else 0#64) n = .goto a (d.modCtx c g)) :
    d.run c w xw cls op k uses f = d.modCtx c (fun _ => (g x).executed d.now n a) := by
  rw [Dev.run_ready h, hn, hf]
  exact Dev.leaveBy_goto h.here _ g rfl _ _ _

/-- The executed context of an effect that may have changed the whole device. -/
theorem leaveBy_issued (d e : Dev) (c : Nat) (next : W64) (n : Nat) :
    d.leaveBy c next n (.next e) = e.modCtx c (fun y => y.executed e.now n next) := by
  cases h : e.ctx? c with
  | some y =>
    rw [show d.leaveBy c next n (.next e) = e.leaveBy c next n (.next e) from rfl, Dev.leaveBy_next h e id (Dev.modCtx_id _ _ id (fun _ => rfl)).symm]
    exact Dev.modCtx_congr _ _ _ _ h rfl
  | none =>
    have hm : ∀ (u : Dev) (f : Ctx → Ctx), u.ctx? c = none → u.modCtx c f = u := by
      intro u f hu
      have : Tab.modify u.ctxs c f = u.ctxs := Tab.modify_id _ _ _ (fun a ha => by unfold Dev.ctx? at hu; rw [hu] at ha; cases ha)
      unfold Dev.modCtx; rw [this]
    simp only [Dev.leaveBy, Dev.clampC, hm e _ h, Dev.trapNow, h]
/-- An instruction that executes, whatever its effect changes. -/
theorem run_issued {d : Dev} {c : Nat} {x : Ctx} {w : W64} {cls op : Nat} {uses : List Nat} (h : d.Runs c x w cls op uses) (xw : W64)
    (k : ExtKind) (f : Dev → Ctx → W64 → Nat → Leave) (n : Nat) (d' : Dev) (hn : extCount k w = n)
    (hf : f d x (if iExt w && k ≠ .none then xw else 0#64) n = .next d') :
    d.run c w xw cls op k uses f = d'.modCtx c (fun y => y.executed d'.now n (Dev.behind' x w)) := by
  rw [Dev.run_ready h, hn, hf]
  exact leaveBy_issued _ _ _ _ _
/-- An instruction that cannot execute yet. -/
theorem run_wait {d : Dev} {c : Nat} {x : Ctx} {w : W64} {cls op : Nat} {uses : List Nat} (h : d.Runs c x w cls op uses) (xw : W64)
    (k : ExtKind) (f : Dev → Ctx → W64 → Nat → Leave) (d' : Dev)
    (hf : f d x (if iExt w && k ≠ .none then xw else 0#64) (extCount k w) = .wait d') :
    d.run c w xw cls op k uses f = d' := by
  rw [Dev.run_ready h, hf]

end Sys2Proof.Machine
end

