-- ==== Sys2Proof/Laws/Scratch.lean ====
section
/-! SUPPORT. The memory of bytes (R101) and a context's scratch (R122, R212): a read after a write, what a write leaves alone, and
that every operation keeps the canonical form. -/
namespace Sys2Proof.Machine

/-! ## Memory -/

@[simp] theorem Memory.get_set_same (m : List Host.Cell) (k : Nat) (b : Byte) : Memory.get (Memory.set m k b) k = b :=
  Tab.getD_store_same m k b 0#8
theorem Memory.get_set_other (m : List Host.Cell) {k k' : Nat} (b : Byte) (h : k' ≠ k) : Memory.get (Memory.set m k b) k' = Memory.get m k' :=
  Tab.getD_store_other m b 0#8 h
theorem Memory.find_filter (p : Host.Cell → Bool) (m : List Host.Cell) (k : Nat) (h : ∀ b, p (k, b) = true) :
    Tab.find (m.filter p) k = Tab.find m k := by
  induction m with
  | nil => rfl
  | cons c r ih =>
    obtain ⟨j, b⟩ := c
    by_cases hp : p (j, b) = true
    · rw [List.filter_cons_of_pos hp]; simp only [Tab.find, ih]
    · rw [List.filter_cons_of_neg hp, ih]
      have : j ≠ k := fun e => hp (e ▸ h b)
      simp [Tab.find, this]
theorem Memory.find_filter_none (p : Host.Cell → Bool) (m : List Host.Cell) (k : Nat) (h : ∀ b, p (k, b) = false) :
    Tab.find (m.filter p) k = none := by
  induction m with
  | nil => rfl
  | cons c r ih =>
    obtain ⟨j, b⟩ := c
    by_cases hp : p (j, b) = true
    · rw [List.filter_cons_of_pos hp]
      have : j ≠ k := fun e => by subst e; rw [h b] at hp; cases hp
      simp [Tab.find, this, ih]
    · rw [List.filter_cons_of_neg hp, ih]
theorem Memory.get_wipe (m : List Host.Cell) (k n i : Nat) :
    Memory.get (Memory.wipe m k n) i = if k ≤ i ∧ i < k + n then 0#8 else Memory.get m i := by
  unfold Memory.get Memory.wipe Tab.getD
  split
  · rename_i h
    rw [Memory.find_filter_none _ _ _ (fun b => by simp; omega)]; rfl
  · rename_i h
    rw [Memory.find_filter _ _ _ (fun b => by simp; omega)]

/-! ## The canonical form -/

theorem Memory.all_put {p : Host.Cell → Bool} (m : List Host.Cell) (k : Nat) (b : Byte) (h : m.all p = true) (hb : p (k, b) = true) :
    (Tab.put m k b).all p = true := by
  induction m with
  | nil => simp [Tab.put, hb]
  | cons c r ih =>
    obtain ⟨j, v⟩ := c
    simp only [List.all_cons, Bool.and_eq_true] at h
    simp only [Tab.put]
    split
    · simp [hb, h.1]; simpa using h.2
    · split
      · simp [hb]; simpa using h.2
      · simp only [List.all_cons, Bool.and_eq_true]; exact ⟨h.1, ih h.2⟩
theorem Memory.all_del {p : Host.Cell → Bool} (m : List Host.Cell) (k : Nat) (h : m.all p = true) : (Tab.del m k).all p = true := by
  induction m with
  | nil => rfl
  | cons c r ih =>
    obtain ⟨j, v⟩ := c
    simp only [List.all_cons, Bool.and_eq_true] at h
    simp only [Tab.del]
    split
    · exact ih h.2
    · simp only [List.all_cons, Bool.and_eq_true]; exact ⟨h.1, ih h.2⟩
/-- A write keeps the canonical form. -/
theorem Memory.set_wf (m : List Host.Cell) (k : Nat) (b : Byte) (h : Memory.wf m = true) : Memory.wf (Memory.set m k b) = true := by
  simp only [Memory.wf, Bool.and_eq_true] at h ⊢
  refine ⟨Tab.risesFrom_store m k b 0#8 h.1, ?_⟩
  unfold Memory.set Tab.store
  split
  · exact Memory.all_del m k h.2
  · rename_i hb; exact Memory.all_put m k b h.2 (by simpa using hb)
theorem Memory.write_wf (m : List Host.Cell) (k : Nat) (l : List Byte) (h : Memory.wf m = true) : Memory.wf (Memory.write m k l) = true := by
  induction l generalizing m k with
  | nil => exact h
  | cons b r ih => exact ih _ _ (Memory.set_wf m k b h)
theorem Memory.risesFrom_filter (p : Host.Cell → Bool) (m : List Host.Cell) (b : Nat) (h : Tab.risesFrom b m = true) :
    Tab.risesFrom b (m.filter p) = true := by
  induction m generalizing b with
  | nil => rfl
  | cons c r ih =>
    obtain ⟨j, v⟩ := c
    simp only [Tab.risesFrom, Bool.and_eq_true, decide_eq_true_eq] at h
    by_cases hp : p (j, v) = true
    · rw [List.filter_cons_of_pos hp]; simp only [Tab.risesFrom, Bool.and_eq_true, decide_eq_true_eq]; exact ⟨h.1, ih _ h.2⟩
    · rw [List.filter_cons_of_neg hp]; exact Tab.risesFrom_mono _ (by omega) (ih _ h.2)
/-- Wiping keeps the canonical form. -/
theorem Memory.wipe_wf (m : List Host.Cell) (k n : Nat) (h : Memory.wf m = true) : Memory.wf (Memory.wipe m k n) = true := by
  simp only [Memory.wf, Bool.and_eq_true] at h ⊢
  refine ⟨Memory.risesFrom_filter _ m 0 h.1, ?_⟩
  unfold Memory.wipe
  rw [List.all_eq_true]
  intro c hc
  exact (List.all_eq_true.mp h.2) c (List.mem_filter.mp hc).1
/-- Copying keeps the canonical form. -/
theorem Memory.copy_wf (m : List Host.Cell) (k n dest : Nat) (h : Memory.wf m = true) : Memory.wf (Memory.copy m k n dest) = true := by
  unfold Memory.copy
  have : ∀ (l : List Host.Cell) (m : List Host.Cell), Memory.wf m = true → Memory.wf (l.foldl (fun m c => Memory.set m c.1 c.2) m) = true := by
    intro l
    induction l with
    | nil => exact fun _ h => h
    | cons c r ih => exact fun m h => ih _ (Memory.set_wf m _ _ h)
  exact this _ _ (Memory.wipe_wf m dest n h)
theorem Memory.reset_wf : Memory.wf State.reset.dev.mem = true := rfl

/-! ## Scratch -/

namespace Dev

/-- What a write of scratch leaves of the rest: every other context, the registers, the cores, and of the context itself all but the
bookkeeping of its pages. -/
structure ScrKeep (d : Dev) (c : Nat) (x : Ctx) (e : Dev) (y : Ctx) : Prop where
  here : e.ctx? c = some y
  self : y = { x with invalid := y.invalid, ckptPages := y.ckptPages, live := y.live, dirty := y.dirty }
  others : ∀ j, j ≠ c → e.ctx? j = d.ctx? j
  regs : e.regs = d.regs
  cores : e.cores = d.cores
  now : e.now = d.now

theorem ScrKeep.refl {d : Dev} {c : Nat} {x : Ctx} (h : d.ctx? c = some x) : ScrKeep d c x d x := ⟨h, rfl, fun _ _ => rfl, rfl, rfl, rfl⟩
theorem ScrKeep.trans {d : Dev} {c : Nat} {x : Ctx} {e : Dev} {y : Ctx} {f : Dev} {z : Ctx} (h : ScrKeep d c x e y) (k : ScrKeep e c y f z) :
    ScrKeep d c x f z := by
  refine ⟨k.here, ?_, fun j hj => (k.others j hj).trans (h.others j hj), k.regs.trans h.regs, k.cores.trans h.cores, k.now.trans h.now⟩
  have h1 := h.self
  have h2 := k.self
  rw [h1] at h2
  exact h2
theorem ScrKeep.res {d : Dev} {c : Nat} {x : Ctx} {e : Dev} {y : Ctx} (h : ScrKeep d c x e y) : e.isRes c y = d.isRes c x := by
  have : y.core = x.core := by rw [h.self]
  unfold isRes core; rw [h.cores, this]
theorem ScrKeep.clip {d : Dev} {c : Nat} {x : Ctx} {e : Dev} {y : Ctx} (h : ScrKeep d c x e y) (o : Nat) : scrClip y o = scrClip x o := by
  have : y.allot = x.allot := by rw [h.self]
  unfold scrClip; rw [this]
theorem ScrKeep.key {d : Dev} {c : Nat} {x : Ctx} {e : Dev} {y : Ctx} (h : ScrKeep d c x e y) (o : Nat) : scrKey y o = scrKey x o := by
  have h1 : y.core = x.core := by rw [h.self]
  have h2 : y.base = x.base := by rw [h.self]
  unfold scrKey; rw [h1, h2]

theorem ctx?_modCtx_other (d : Dev) (c : Nat) (f : Ctx → Ctx) {j : Nat} (h : j ≠ c) : (d.modCtx c f).ctx? j = d.ctx? j :=
  Tab.find_modify_other _ _ h

/-- Opening a page changes no byte that the context reads; the page is then not invalid. -/
theorem scrOpen_keep {d : Dev} {c : Nat} {x : Ctx} (h : d.ctx? c = some x) (hr : d.isRes c x = true) (p : Nat) :
    ∃ y, ScrKeep d c x (d.scrOpen c p) y ∧ (∀ o, (d.scrOpen c p).scrByte c y o = d.scrByte c x o) ∧
      y.invalid = x.invalid.filter (· ≠ p) := by
  obtain ⟨g, hg⟩ : ∃ g : Ctx → Ctx, g = fun x => { x with invalid := x.invalid.filter (· ≠ p), ckptPages := x.ckptPages.filter (· ≠ p), live := if x.live.contains p then x.live else p :: x.live, dirty := if x.dirty.contains p then x.dirty else p :: x.dirty } := ⟨_, rfl⟩
  obtain ⟨e, hs, he⟩ : ∃ e : Dev, d.scrOpen c p = e.modCtx c g ∧ ((x.invalid.contains p = false ∧ e = d) ∨
      (x.invalid.contains p = true ∧ e = { d with mem := Memory.wipe d.mem (scrKey x (4096 * p)) 4096 })) := by
    refine ⟨_, by unfold scrOpen; rw [h, hg], ?_⟩
    by_cases hp : x.invalid.contains p = true
    · right; rw [hp, hr]; exact ⟨rfl, rfl⟩
    · left; simp only [Bool.not_eq_true] at hp; rw [hp]; exact ⟨rfl, rfl⟩
  have hf : e.ctxs = d.ctxs ∧ e.cores = d.cores ∧ e.regs = d.regs ∧ e.now = d.now := by rcases he with ⟨_, h'⟩ | ⟨_, h'⟩ <;> rw [h'] <;> exact ⟨rfl, rfl, rfl, rfl⟩
  have hc : e.ctx? c = some x := by unfold ctx?; rw [hf.1]; exact h
  have hk : ScrKeep d c x (e.modCtx c g) (g x) := by
    refine ⟨by rw [ctx?_modCtx, hc]; rfl, by rw [hg], ?_, hf.2.2.1, hf.2.1, hf.2.2.2⟩
    intro j hj
    rw [ctx?_modCtx_other _ _ _ hj]; unfold ctx?; rw [hf.1]
  have hi : (g x).invalid = x.invalid.filter (· ≠ p) := by rw [hg]
  rw [hs]
  refine ⟨g x, hk, ?_, hi⟩
  intro o
  have hr2 : (e.modCtx c g).isRes c (g x) = true := by rw [hk.res]; exact hr
  have hm : (e.modCtx c g).mem = e.mem := rfl
  unfold scrByte
  rw [hk.clip]
  dsimp only
  rw [hr2, hr, if_pos rfl, if_pos rfl, hk.key, hm, hi]
  generalize scrClip x o = q
  by_cases hq : q / 4096 = p
  · have h1 : (x.invalid.filter (· ≠ p)).contains (q / 4096) = false := by simp [hq]
    rw [h1, if_neg (by simp), hq]
    rcases he with ⟨hp, h'⟩ | ⟨hp, h'⟩
    · rw [h', hp, if_neg (by simp)]
    · rw [hp, if_pos rfl, h']; dsimp only
      rw [Memory.get_wipe, if_pos]
      unfold scrKey; omega
  · have h1 : (x.invalid.filter (· ≠ p)).contains (q / 4096) = x.invalid.contains (q / 4096) := by
      rw [Bool.eq_iff_iff]; simp [hq]
    rw [h1]
    rcases he with ⟨hp, h'⟩ | ⟨hp, h'⟩
    · rw [h']
    · have hz : Memory.get (Memory.wipe d.mem (scrKey x (4096 * p)) 4096) (scrKey x q) = Memory.get d.mem (scrKey x q) := by
        rw [Memory.get_wipe, if_neg]
        unfold scrKey; omega
      rw [h']; dsimp only; rw [hz]

/-- Opening pages changes no byte that the context reads; none of them is then invalid. -/
theorem scrOpens_keep {d : Dev} {c : Nat} {x : Ctx} (h : d.ctx? c = some x) (hr : d.isRes c x = true) (ps : List Nat) :
    ∃ y, ScrKeep d c x (ps.foldl (fun d p => d.scrOpen c p) d) y ∧
      (∀ o, (ps.foldl (fun d p => d.scrOpen c p) d).scrByte c y o = d.scrByte c x o) ∧ (∀ p, p ∈ ps → p ∉ y.invalid) ∧
      (∀ p, p ∈ y.invalid → p ∈ x.invalid) := by
  induction ps generalizing d x with
  | nil => exact ⟨x, ScrKeep.refl h, fun _ => rfl, fun _ hp => by simp at hp, fun _ hp => hp⟩
  | cons p r ih =>
    obtain ⟨y, hk, hb, hi⟩ := scrOpen_keep h hr p
    obtain ⟨z, hk2, hb2, hi2, hs2⟩ := ih hk.here (by rw [hk.res]; exact hr)
    refine ⟨z, hk.trans hk2, fun o => (hb2 o).trans (hb o), ?_, ?_⟩
    · intro q hq hz
      rcases List.mem_cons.mp hq with e | hq
      · subst e
        have := hs2 q hz
        rw [hi] at this
        simp at this
      · exact hi2 q hq hz
    · intro q hq
      have := hs2 q hq
      rw [hi] at this
      exact (List.mem_filter.mp this).1

theorem scrPuts_keep {d : Dev} {c : Nat} {x : Ctx} (h : d.ctx? c = some x) (hr : d.isRes c x = true) (ws : List SWrite)
    (hv : ∀ w, w ∈ ws → scrClip x w.addr / 4096 ∉ x.invalid) :
    ScrKeep d c x (ws.foldl (fun d w => d.scrPut c w) d) x ∧
      (∀ o, o < x.allot → (ws.foldl (fun d w => d.scrPut c w) d).scrByte c x o = scratchAfter x ws (d.scrByte c x) o) := by
  induction ws generalizing d with
  | nil => exact ⟨ScrKeep.refl h, fun _ _ => rfl⟩
  | cons w r ih =>
    have hw := hv w (List.mem_cons_self ..)
    have he : d.scrPut c w = { d with mem := Memory.set d.mem (scrKey x (scrClip x w.addr)) ((Memory.get d.mem (scrKey x (scrClip x w.addr)) &&& ~~~w.mask) ||| (w.val &&& w.mask)) } := by
      unfold scrPut; rw [h]; dsimp only; rw [hr, if_pos rfl]
    have hk : ScrKeep d c x (d.scrPut c w) x := by rw [he]; exact ⟨h, rfl, fun _ _ => rfl, rfl, rfl, rfl⟩
    obtain ⟨hk2, hb2⟩ := ih hk.here (by rw [hk.res]; exact hr) (fun v hm => hv v (List.mem_cons_of_mem _ hm))
    refine ⟨hk.trans hk2, ?_⟩
    intro o ho
    rw [List.foldl_cons, hb2 o ho]
    have hbyte : ∀ q, q < x.allot → (d.scrPut c w).scrByte c x q = (if q = scrClip x w.addr then ((d.scrByte c x q) &&& ~~~w.mask) ||| (w.val &&& w.mask) else d.scrByte c x q) := by
      intro q hq
      have hcl : scrClip x q = q := by unfold scrClip; rw [if_pos hq]
      have hr' : (d.scrPut c w).isRes c x = true := by rw [hk.res]; exact hr
      unfold scrByte
      rw [hcl]; dsimp only
      rw [hr', hr, if_pos rfl, if_pos rfl, he]; dsimp only
      by_cases e : q = scrClip x w.addr
      · subst e
        rw [if_neg (by simpa using hw), Memory.get_set_same, if_pos rfl, if_neg (by simpa using hw)]
      · rw [if_neg e, Memory.get_set_other]
        unfold scrKey; omega
    clear hb2 hk2 ih
    generalize hf : (d.scrPut c w).scrByte c x = f at hbyte ⊢
    generalize d.scrByte c x = g at hbyte ⊢
    show scratchAfter x r f o = scratchAfter x r (fun q => if q = scrClip x w.addr then (g q &&& ~~~w.mask) ||| (w.val &&& w.mask) else g q) o
    have : ∀ (l : List SWrite) (f g : Nat → Byte), (∀ q, q < x.allot → f q = g q) → scratchAfter x l f o = scratchAfter x l g o := by
      intro l
      induction l with
      | nil => exact fun f g hfg => hfg o ho
      | cons v r ih =>
        intro f g hfg
        simp only [scratchAfter]
        apply ih
        intro q hq; simp only [hfg q hq]
    exact this r _ _ hbyte

/-- Where no write runs beyond the end, the order of the writes stands. -/
theorem lastOrder_within {α : Type} (d : Dev) {z : Nat} {at' : α → Nat} {ws : List α} (h : ∀ w ∈ ws, at' w < z) : d.lastOrder z at' ws = (ws, d) := by
  unfold lastOrder
  rw [if_pos]
  simpa [List.all_eq_true] using h
/-- The choice of an order draws free words; it changes nothing else. -/
theorem lastOrder_dev {α : Type} (d : Dev) (z : Nat) (at' : α → Nat) (ws : List α) : ∃ n, (d.lastOrder z at' ws).2 = { d with draws := n } := by
  have key : ∀ (l : List Nat) (f : List α × Dev → Nat → List α × Dev), (∀ a i, ∃ n, (f a i).2 = { a.2 with draws := n }) →
      ∀ a : List α × Dev, ∃ n, (l.foldl f a).2 = { a.2 with draws := n } := by
    intro l f hf
    induction l with
    | nil => exact fun a => ⟨a.2.draws, rfl⟩
    | cons i r ih =>
      intro a
      obtain ⟨n, hn⟩ := ih (f a i)
      obtain ⟨m, hm⟩ := hf a i
      exact ⟨n, by rw [List.foldl_cons, hn, hm]⟩
  unfold lastOrder
  split
  · exact ⟨d.draws, rfl⟩
  · refine key _ _ (fun a i => ?_) _
    dsimp only
    split
    · exact ⟨a.2.draws, rfl⟩
    · exact ⟨a.2.draws + 1, rfl⟩

/-- What a write of scratch does: the context reads what was written under the masks, every other byte as before. -/
theorem scrWrite_keep {d : Dev} {c : Nat} {x : Ctx} (h : d.ctx? c = some x) (hr : d.isRes c x = true) (ws : List SWrite) :
    ∃ y, ScrKeep d c x (d.scrWrite c ws) y ∧
      (∀ o, o < x.allot → (d.scrWrite c ws).scrByte c y o = scratchAfter x (d.lastOrder x.allot SWrite.addr ws).1 (d.scrByte c x) o) := by
  obtain ⟨m, hm⟩ := d.lastOrder_dev x.allot SWrite.addr ws
  have hW : d.scrWrite c ws = (let e := (d.lastOrder x.allot SWrite.addr ws).2
      let ws := (d.lastOrder x.allot SWrite.addr ws).1
      let pages := (ws.map (fun w => scrClip x w.addr / 4096)).eraseDups
      let e := pages.foldl (fun d p => d.scrOpen c p) e
      let e := (ws.foldl (fun d w => d.scrPut c w) e).scrClean c ws
      if e.resv.isEmpty then e else ws.foldl (fun d w => d.breakResv 0 (scrKey x (scrClip x w.addr)) 1) e) := by
    unfold scrWrite; rw [h]
  rw [hW]
  generalize (d.lastOrder x.allot SWrite.addr ws).1 = ws'
  rw [hm]
  dsimp only
  have h0 : ScrKeep d c x { d with draws := m } x := ⟨h, rfl, fun _ _ => rfl, rfl, rfl, rfl⟩
  suffices hs : ∀ (d : Dev), d.ctx? c = some x → d.isRes c x = true → ∃ y, ScrKeep d c x (let e := ((ws'.map (fun w => scrClip x w.addr / 4096)).eraseDups).foldl (fun d p => d.scrOpen c p) d
      let e := (ws'.foldl (fun d w => d.scrPut c w) e).scrClean c ws'
      if e.resv.isEmpty then e else ws'.foldl (fun d w => d.breakResv 0 (scrKey x (scrClip x w.addr)) 1) e) y ∧
      (∀ o, o < x.allot → Dev.scrByte (let e := ((ws'.map (fun w => scrClip x w.addr / 4096)).eraseDups).foldl (fun d p => d.scrOpen c p) d
      let e := (ws'.foldl (fun d w => d.scrPut c w) e).scrClean c ws'
      if e.resv.isEmpty then e else ws'.foldl (fun d w => d.breakResv 0 (scrKey x (scrClip x w.addr)) 1) e) c y o = scratchAfter x ws' (d.scrByte c x) o) by
    obtain ⟨y, hk, hb⟩ := hs { d with draws := m } h hr
    exact ⟨y, h0.trans hk, hb⟩
  clear hW hm h0 h hr m d ws
  intro d h hr
  generalize ws' = ws
  obtain ⟨y, hk, hb, hi, _⟩ := scrOpens_keep h hr ((ws.map (fun w => scrClip x w.addr / 4096)).eraseDups)
  obtain ⟨hk2, hb2⟩ := scrPuts_keep hk.here (by rw [hk.res]; exact hr) ws (fun w hw => by
    rw [hk.clip]; exact hi _ (by rw [List.mem_eraseDups]; exact List.mem_map_of_mem hw))
  have hput : ∀ (l : List SWrite) (f : Nat → Byte) (o : Nat), scratchAfter y l f o = scratchAfter x l f o := by
    intro l
    induction l with
    | nil => exact fun _ _ => rfl
    | cons v r ih => intro f o; simp only [scratchAfter, ih, hk.clip]
  have hal : y.allot = x.allot := by rw [hk.self]
  have h3 := hk.trans hk2
  -- poison and reservations are no part of what the context reads
  have hclean : ∀ (e : Dev) (z : Ctx), e.ctx? c = some z → e.isRes c z = true → ScrKeep e c z (e.scrClean c ws) z ∧ (e.scrClean c ws).mem = e.mem := by
    intro e z hz hrz
    unfold scrClean; rw [hz]; dsimp only; rw [hrz, if_pos rfl]
    split
    · exact ⟨ScrKeep.refl hz, rfl⟩
    · exact ⟨⟨hz, rfl, fun _ _ => rfl, rfl, rfl, rfl⟩, rfl⟩
  have hbr : ∀ (l : List SWrite) (f : SWrite → Nat) (e : Dev), e.ctx? c = some y →
      ScrKeep e c y (l.foldl (fun d w => d.breakResv 0 (f w) 1) e) y ∧ (l.foldl (fun d w => d.breakResv 0 (f w) 1) e).mem = e.mem := by
    intro l f
    induction l with
    | nil => exact fun e he => ⟨ScrKeep.refl he, rfl⟩
    | cons w r ih =>
      intro e he
      have h1 : ScrKeep e c y (e.breakResv 0 (f w) 1) y ∧ (e.breakResv 0 (f w) 1).mem = e.mem := by
        unfold breakResv; split
        · exact ⟨ScrKeep.refl he, rfl⟩
        · exact ⟨⟨he, rfl, fun _ _ => rfl, rfl, rfl, rfl⟩, rfl⟩
      obtain ⟨h2, h4⟩ := ih _ h1.1.here
      exact ⟨h1.1.trans h2, h4.trans h1.2⟩
  generalize hE : ws.foldl (fun d w => d.scrPut c w) (((ws.map (fun w => scrClip x w.addr / 4096)).eraseDups).foldl (fun d p => d.scrOpen c p) d) = E at *
  obtain ⟨hc1, hc2⟩ := hclean E y h3.here (by rw [h3.res]; exact hr)
  obtain ⟨W, hW⟩ : ∃ W : Dev, W = (if (E.scrClean c ws).resv.isEmpty then E.scrClean c ws else ws.foldl (fun d w => d.breakResv 0 (scrKey x (scrClip x w.addr)) 1) (E.scrClean c ws)) := ⟨_, rfl⟩
  dsimp only
  rw [hE, ← hW]
  have hfin : ScrKeep E c y W y ∧ W.mem = E.mem := by
    rw [hW]; split
    · exact ⟨hc1, hc2⟩
    · obtain ⟨k1, k2⟩ := hbr ws (fun w => scrKey x (scrClip x w.addr)) _ hc1.here
      exact ⟨hc1.trans k1, k2.trans hc2⟩
  refine ⟨y, h3.trans hfin.1, ?_⟩
  intro o ho
  have e1 : W.scrByte c y o = E.scrByte c y o := by
    unfold scrByte; rw [hfin.1.res, hfin.2]
  rw [e1, hb2 o (by rw [hal]; exact ho), hput]
  have : (fun o => (((ws.map (fun w => scrClip x w.addr / 4096)).eraseDups).foldl (fun d p => d.scrOpen c p) d).scrByte c y o) = d.scrByte c x := funext hb
  exact congrArg (fun f => scratchAfter x ws f o) this

end Dev

end Sys2Proof.Machine
end

