-- ==== Sys2Proof/Laws/Notes.lean ====
section
/-! SUPPORT. What the counting of clamps leaves alone (R65, R83, R111, R127). -/
namespace Sys2Proof.Machine
namespace Dev

/-- What the counting of clamps leaves: the contexts but for one's clamp and flag fields, memory, cores, scale files, time. -/
structure NoteKeep (d : Dev) (c : Nat) (x : Ctx) (e : Dev) (y : Ctx) : Prop where
  here : e.ctx? c = some y
  self : y = { x with clamps := y.clamps, clampOvf := y.clampOvf, firstClamp := y.firstClamp, flags := y.flags }
  others : ∀ j, j ≠ c → e.ctx? j = d.ctx? j
  mem : e.mem = d.mem
  cores : e.cores = d.cores
  now : e.now = d.now
  scales : e.scales = d.scales
  draws : e.draws = d.draws
  flt : e.flt = d.flt

theorem NoteKeep.refl {d : Dev} {c : Nat} {x : Ctx} (h : d.ctx? c = some x) : NoteKeep d c x d x :=
  ⟨h, rfl, fun _ _ => rfl, rfl, rfl, rfl, rfl, rfl, rfl⟩
theorem NoteKeep.trans {d : Dev} {c : Nat} {x : Ctx} {e : Dev} {y : Ctx} {f : Dev} {z : Ctx} (h : NoteKeep d c x e y) (k : NoteKeep e c y f z) :
    NoteKeep d c x f z := by
  refine ⟨k.here, ?_, fun j hj => (k.others j hj).trans (h.others j hj), k.mem.trans h.mem, k.cores.trans h.cores, k.now.trans h.now, k.scales.trans h.scales, k.draws.trans h.draws, k.flt.trans h.flt⟩
  have h1 := h.self
  have h2 := k.self
  rw [h1] at h2
  exact h2

/-- A change of registers alone. -/
structure RegKeep (d e : Dev) : Prop where
  ctxs : e.ctxs = d.ctxs
  mem : e.mem = d.mem
  cores : e.cores = d.cores
  now : e.now = d.now
  scales : e.scales = d.scales
  draws : e.draws = d.draws
  flt : e.flt = d.flt
theorem RegKeep.refl (d : Dev) : RegKeep d d := ⟨rfl, rfl, rfl, rfl, rfl, rfl, rfl⟩
theorem RegKeep.trans {d e f : Dev} (h : RegKeep d e) (k : RegKeep e f) : RegKeep d f :=
  ⟨k.ctxs.trans h.ctxs, k.mem.trans h.mem, k.cores.trans h.cores, k.now.trans h.now, k.scales.trans h.scales, k.draws.trans h.draws, k.flt.trans h.flt⟩
theorem setReg_keep (d : Dev) (a : Nat) (v : W32) : RegKeep d (d.setReg a v) := ⟨rfl, rfl, rfl, rfl, rfl, rfl, rfl⟩
theorem setFld_keep (d : Dev) (a : Nat) (f : Fld) (v : Nat) : RegKeep d (d.setFld a f v) := ⟨rfl, rfl, rfl, rfl, rfl, rfl, rfl⟩
theorem setFlds_keep (d : Dev) (a : Nat) (l : List (Fld × Nat)) : RegKeep d (d.setFlds a l) := by
  unfold setFlds
  induction l generalizing d with
  | nil => exact RegKeep.refl d
  | cons p r ih => exact (setFld_keep d a p.1 p.2).trans (ih _)
theorem count_keep (d : Dev) (a b : Nat) (f : Fld) : RegKeep d (d.count a b f) := by
  unfold count; split
  · exact setFld_keep _ _ _ _
  · exact setReg_keep _ _ _
theorem setPair_keep (d : Dev) (a v : Nat) : RegKeep d (d.setPair a v) := (setReg_keep _ _ _).trans (setReg_keep _ _ _)
theorem addrClamp_keep (d : Dev) (r : Req) (k : Nat) (a : W64) : RegKeep d (d.addrClamp r k a) := by
  unfold addrClamp; dsimp only; split
  · exact count_keep _ _ _ _
  · exact (count_keep _ _ _ _).trans ((setPair_keep _ _ _).trans (setFlds_keep _ _ _))
theorem RegKeep.note {d e : Dev} (k : RegKeep d e) {c : Nat} {x : Ctx} (h : d.ctx? c = some x) : NoteKeep d c x e x := by
  refine ⟨?_, rfl, ?_, k.mem, k.cores, k.now, k.scales, k.draws, k.flt⟩
  · unfold ctx?; rw [k.ctxs]; exact h
  · intro j _; unfold ctx?; rw [k.ctxs]

theorem clampC_keep {d : Dev} {c : Nat} {x : Ctx} (h : d.ctx? c = some x) (n : Nat) : NoteKeep d c x (d.clampC c n) (x.clampAt x.arch.pc n) := by
  refine ⟨by unfold clampC; rw [ctx?_modCtx, h]; rfl, ?_, fun j hj => ctx?_modCtx_other _ _ _ hj, rfl, rfl, rfl, rfl, rfl, rfl⟩
  unfold Ctx.clampAt; split <;> rfl
theorem flagC_keep {d : Dev} {c : Nat} {x : Ctx} (h : d.ctx? c = some x) (n : Nat) : NoteKeep d c x (d.flagC c n) { x with flags := x.flags ||| n } :=
  ⟨by unfold flagC; rw [ctx?_modCtx, h]; rfl, rfl, fun j hj => ctx?_modCtx_other _ _ _ hj, rfl, rfl, rfl, rfl, rfl, rfl⟩
theorem clampA_keep {d : Dev} {c : Nat} {x : Ctx} (h : d.ctx? c = some x) (k : Nat) (a : W64) : ∃ y, NoteKeep d c x (d.clampA c k a) y :=
  ⟨_, (clampC_keep h 1).trans ((addrClamp_keep _ _ _ _).note (clampC_keep h 1).here)⟩
theorem noteClamps_keep {d : Dev} {c : Nat} {x : Ctx} (h : d.ctx? c = some x) (ks : List Nat) (a : W64) :
    ∃ y, NoteKeep d c x (d.noteClamps (.ctx c) ks a) y := by
  unfold noteClamps
  induction ks generalizing d x with
  | nil => exact ⟨x, NoteKeep.refl h⟩
  | cons k r ih =>
    obtain ⟨y, hy⟩ := clampA_keep h k a
    obtain ⟨z, hz⟩ := ih hy.here
    exact ⟨z, hy.trans hz⟩
theorem noteOpnds_keep {d : Dev} {c : Nat} {x : Ctx} (h : d.ctx? c = some x) (l : List Opnd) : ∃ y, NoteKeep d c x (d.noteOpnds c l) y := by
  unfold noteOpnds
  induction l generalizing d x with
  | nil => exact ⟨x, NoteKeep.refl h⟩
  | cons o r ih =>
    obtain ⟨y, hy⟩ := noteClamps_keep (clampC_keep h o.n).here o.ks o.a
    obtain ⟨z, hz⟩ := ih hy.here
    exact ⟨z, (clampC_keep h o.n).trans (hy.trans hz)⟩
theorem noteInvalid_keep {d : Dev} {c : Nat} {x : Ctx} (h : d.ctx? c = some x) : ∃ y, NoteKeep d c x (d.noteInvalid c) y := by
  unfold noteInvalid noteInvalidAt; rw [h]; dsimp only [Option.map, Option.getD]
  have h1 : NoteKeep d c x (d.modCtx c (fun y => y.clampAt x.arch.pc 1)) (x.clampAt x.arch.pc 1) := by
    refine ⟨by rw [ctx?_modCtx, h]; rfl, ?_, fun j hj => ctx?_modCtx_other _ _ _ hj, rfl, rfl, rfl, rfl, rfl, rfl⟩
    unfold Ctx.clampAt; split <;> rfl
  exact ⟨_, h1.trans ((count_keep _ _ _ _).note h1.here)⟩
/-- What a compute instruction notes changes nothing that its results depend on. -/
theorem noted_keep {d : Dev} {c : Nat} {x : Ctx} (h : d.ctx? c = some x) (w : Work) : ∃ y, NoteKeep d c x (d.noted c x w) y := by
  unfold noted; dsimp only
  obtain ⟨y, hy⟩ := noteOpnds_keep h w.ops
  have h2 := hy.trans (clampC_keep hy.here w.clamps)
  split
  · obtain ⟨z, hz⟩ := noteInvalid_keep h2.here
    exact ⟨_, (h2.trans hz).trans (flagC_keep hz.here _)⟩
  · exact ⟨_, h2.trans (flagC_keep h2.here _)⟩

theorem NoteKeep.res {d : Dev} {c : Nat} {x : Ctx} {e : Dev} {y : Ctx} (h : NoteKeep d c x e y) : e.isRes c y = d.isRes c x := by
  have : y.core = x.core := by rw [h.self]
  unfold isRes core; rw [h.cores, this]
theorem NoteKeep.byte {d : Dev} {c : Nat} {x : Ctx} {e : Dev} {y : Ctx} (h : NoteKeep d c x e y) (o : Nat) : e.scrByte c y o = d.scrByte c x o := by
  have h1 : y.allot = x.allot := by rw [h.self]
  have h2 : y.invalid = x.invalid := by rw [h.self]
  have h3 : y.core = x.core := by rw [h.self]
  have h4 : y.base = x.base := by rw [h.self]
  have h5 : y.image = x.image := by rw [h.self]
  unfold scrByte; rw [h.res, h.mem, h2, h5]; unfold scrClip scrKey; rw [h1, h3, h4]

end Dev
end Sys2Proof.Machine
end

