-- ==== Sys2Proof/Laws/State.lean ====
section
/-! SUPPORT. What each update of the state changes and what it leaves, field by field: every lemma holds by unfolding, so that no
proof unfolds a record update. -/
namespace Sys2Proof.Machine

@[simp] theorem State.onDev_dev (s : State) (f : Dev → Dev) : (s.onDev f).dev = f s.dev := rfl
@[simp] theorem State.onDev_aon (s : State) (f : Dev → Dev) : (s.onDev f).aon = s.aon := rfl
@[simp] theorem State.onDev_pending (s : State) (f : Dev → Dev) : (s.onDev f).pending = s.pending := rfl
@[simp] theorem State.onAon_dev (s : State) (f : AonSt → AonSt) : (s.onAon f).dev = s.dev := rfl
@[simp] theorem State.onAon_aon (s : State) (f : AonSt → AonSt) : (s.onAon f).aon = f s.aon := rfl
@[simp] theorem State.onAon_pending (s : State) (f : AonSt → AonSt) : (s.onAon f).pending = s.pending := rfl
@[simp] theorem State.replying_dev (s : State) (l : List Byte) : (s.replying l).dev = s.dev := rfl
@[simp] theorem State.replying_aon (s : State) (l : List Byte) : (s.replying l).aon = { s.aon with reply := l } := rfl
@[simp] theorem State.replying_pending (s : State) (l : List Byte) : (s.replying l).pending = s.pending := rfl
@[simp] theorem State.putCtx_aon (s : State) (c : Nat) (y : Ctx) : (s.putCtx c y).aon = s.aon := rfl
@[simp] theorem State.putCtx_pending (s : State) (c : Nat) (y : Ctx) : (s.putCtx c y).pending = s.pending := rfl
@[simp] theorem State.putCtx_dev (s : State) (c : Nat) (y : Ctx) : (s.putCtx c y).dev = s.dev.modCtx c (fun _ => y) := rfl

@[simp] theorem Dev.setReg_now (d : Dev) (a : Nat) (v : W32) : (d.setReg a v).now = d.now := rfl
@[simp] theorem Dev.setReg_draws (d : Dev) (a : Nat) (v : W32) : (d.setReg a v).draws = d.draws := rfl
@[simp] theorem Dev.setReg_regs (d : Dev) (a : Nat) (v : W32) : (d.setReg a v).regs = Tab.store d.regs a v (regReset a) := rfl
@[simp] theorem Dev.setReg_shadow (d : Dev) (a : Nat) (v : W32) : (d.setReg a v).shadow = d.shadow := rfl
@[simp] theorem Dev.setReg_held (d : Dev) (a : Nat) (v : W32) : (d.setReg a v).held = d.held := rfl
@[simp] theorem Dev.setReg_tsHeld (d : Dev) (a : Nat) (v : W32) : (d.setReg a v).tsHeld = d.tsHeld := rfl
@[simp] theorem Dev.setReg_rdata (d : Dev) (a : Nat) (v : W32) : (d.setReg a v).rdata = d.rdata := rfl
@[simp] theorem Dev.setReg_rflags (d : Dev) (a : Nat) (v : W32) : (d.setReg a v).rflags = d.rflags := rfl
@[simp] theorem Dev.setReg_rstatus (d : Dev) (a : Nat) (v : W32) : (d.setReg a v).rstatus = d.rstatus := rfl
@[simp] theorem Dev.setReg_mem (d : Dev) (a : Nat) (v : W32) : (d.setReg a v).mem = d.mem := rfl
@[simp] theorem Dev.setReg_scales (d : Dev) (a : Nat) (v : W32) : (d.setReg a v).scales = d.scales := rfl
@[simp] theorem Dev.setReg_dcqs (d : Dev) (a : Nat) (v : W32) : (d.setReg a v).dcqs = d.dcqs := rfl
@[simp] theorem Dev.setReg_stopped (d : Dev) (a : Nat) (v : W32) : (d.setReg a v).stopped = d.stopped := rfl
@[simp] theorem Dev.setReg_d2dMods (d : Dev) (a : Nat) (v : W32) : (d.setReg a v).d2dMods = d.d2dMods := rfl
@[simp] theorem Dev.setReg_d2dDirs (d : Dev) (a : Nat) (v : W32) : (d.setReg a v).d2dDirs = d.d2dDirs := rfl
@[simp] theorem Dev.setReg_flt (d : Dev) (a : Nat) (v : W32) : (d.setReg a v).flt = d.flt := rfl
@[simp] theorem Dev.setReg_ctxs (d : Dev) (a : Nat) (v : W32) : (d.setReg a v).ctxs = d.ctxs := rfl
@[simp] theorem Dev.setReg_cores (d : Dev) (a : Nat) (v : W32) : (d.setReg a v).cores = d.cores := rfl
@[simp] theorem Dev.setReg_launchQ (d : Dev) (a : Nat) (v : W32) : (d.setReg a v).launchQ = d.launchQ := rfl
@[simp] theorem Dev.setReg_posts (d : Dev) (a : Nat) (v : W32) : (d.setReg a v).posts = d.posts := rfl
@[simp] theorem Dev.setReg_resv (d : Dev) (a : Nat) (v : W32) : (d.setReg a v).resv = d.resv := rfl
@[simp] theorem Dev.setReg_chamExc (d : Dev) (a : Nat) (v : W32) : (d.setReg a v).chamExc = d.chamExc := rfl
@[simp] theorem Dev.setReg_tier (d : Dev) (a : Nat) (v : W32) : (d.setReg a v).tier = d.tier := rfl
@[simp] theorem Dev.setReg_herd (d : Dev) (a : Nat) (v : W32) : (d.setReg a v).herd = d.herd := rfl
@[simp] theorem Dev.setReg_search (d : Dev) (a : Nat) (v : W32) : (d.setReg a v).search = d.search := rfl
@[simp] theorem Dev.setReg_flash (d : Dev) (a : Nat) (v : W32) : (d.setReg a v).flash = d.flash := rfl
@[simp] theorem Dev.setReg_ftl (d : Dev) (a : Nat) (v : W32) : (d.setReg a v).ftl = d.ftl := rfl
@[simp] theorem Dev.setReg_host (d : Dev) (a : Nat) (v : W32) : (d.setReg a v).host = d.host := rfl

@[simp] theorem Dev.setFld_now (d : Dev) (a : Nat) (f : Fld) (v : Nat) : (d.setFld a f v).now = d.now := rfl
@[simp] theorem Dev.setFld_draws (d : Dev) (a : Nat) (f : Fld) (v : Nat) : (d.setFld a f v).draws = d.draws := rfl
@[simp] theorem Dev.setFld_regs (d : Dev) (a : Nat) (f : Fld) (v : Nat) : (d.setFld a f v).regs = Tab.store d.regs a (setF (d.reg a) f v) (regReset a) := rfl
@[simp] theorem Dev.setFld_shadow (d : Dev) (a : Nat) (f : Fld) (v : Nat) : (d.setFld a f v).shadow = d.shadow := rfl
@[simp] theorem Dev.setFld_held (d : Dev) (a : Nat) (f : Fld) (v : Nat) : (d.setFld a f v).held = d.held := rfl
@[simp] theorem Dev.setFld_tsHeld (d : Dev) (a : Nat) (f : Fld) (v : Nat) : (d.setFld a f v).tsHeld = d.tsHeld := rfl
@[simp] theorem Dev.setFld_rdata (d : Dev) (a : Nat) (f : Fld) (v : Nat) : (d.setFld a f v).rdata = d.rdata := rfl
@[simp] theorem Dev.setFld_rflags (d : Dev) (a : Nat) (f : Fld) (v : Nat) : (d.setFld a f v).rflags = d.rflags := rfl
@[simp] theorem Dev.setFld_rstatus (d : Dev) (a : Nat) (f : Fld) (v : Nat) : (d.setFld a f v).rstatus = d.rstatus := rfl
@[simp] theorem Dev.setFld_mem (d : Dev) (a : Nat) (f : Fld) (v : Nat) : (d.setFld a f v).mem = d.mem := rfl
@[simp] theorem Dev.setFld_scales (d : Dev) (a : Nat) (f : Fld) (v : Nat) : (d.setFld a f v).scales = d.scales := rfl
@[simp] theorem Dev.setFld_dcqs (d : Dev) (a : Nat) (f : Fld) (v : Nat) : (d.setFld a f v).dcqs = d.dcqs := rfl
@[simp] theorem Dev.setFld_stopped (d : Dev) (a : Nat) (f : Fld) (v : Nat) : (d.setFld a f v).stopped = d.stopped := rfl
@[simp] theorem Dev.setFld_d2dMods (d : Dev) (a : Nat) (f : Fld) (v : Nat) : (d.setFld a f v).d2dMods = d.d2dMods := rfl
@[simp] theorem Dev.setFld_d2dDirs (d : Dev) (a : Nat) (f : Fld) (v : Nat) : (d.setFld a f v).d2dDirs = d.d2dDirs := rfl
@[simp] theorem Dev.setFld_flt (d : Dev) (a : Nat) (f : Fld) (v : Nat) : (d.setFld a f v).flt = d.flt := rfl
@[simp] theorem Dev.setFld_ctxs (d : Dev) (a : Nat) (f : Fld) (v : Nat) : (d.setFld a f v).ctxs = d.ctxs := rfl
@[simp] theorem Dev.setFld_cores (d : Dev) (a : Nat) (f : Fld) (v : Nat) : (d.setFld a f v).cores = d.cores := rfl
@[simp] theorem Dev.setFld_launchQ (d : Dev) (a : Nat) (f : Fld) (v : Nat) : (d.setFld a f v).launchQ = d.launchQ := rfl
@[simp] theorem Dev.setFld_posts (d : Dev) (a : Nat) (f : Fld) (v : Nat) : (d.setFld a f v).posts = d.posts := rfl
@[simp] theorem Dev.setFld_resv (d : Dev) (a : Nat) (f : Fld) (v : Nat) : (d.setFld a f v).resv = d.resv := rfl
@[simp] theorem Dev.setFld_chamExc (d : Dev) (a : Nat) (f : Fld) (v : Nat) : (d.setFld a f v).chamExc = d.chamExc := rfl
@[simp] theorem Dev.setFld_tier (d : Dev) (a : Nat) (f : Fld) (v : Nat) : (d.setFld a f v).tier = d.tier := rfl
@[simp] theorem Dev.setFld_herd (d : Dev) (a : Nat) (f : Fld) (v : Nat) : (d.setFld a f v).herd = d.herd := rfl
@[simp] theorem Dev.setFld_search (d : Dev) (a : Nat) (f : Fld) (v : Nat) : (d.setFld a f v).search = d.search := rfl
@[simp] theorem Dev.setFld_flash (d : Dev) (a : Nat) (f : Fld) (v : Nat) : (d.setFld a f v).flash = d.flash := rfl
@[simp] theorem Dev.setFld_ftl (d : Dev) (a : Nat) (f : Fld) (v : Nat) : (d.setFld a f v).ftl = d.ftl := rfl
@[simp] theorem Dev.setFld_host (d : Dev) (a : Nat) (f : Fld) (v : Nat) : (d.setFld a f v).host = d.host := rfl

@[simp] theorem Dev.setPair_now (d : Dev) (a v : Nat) : (d.setPair a v).now = d.now := rfl
@[simp] theorem Dev.setPair_draws (d : Dev) (a v : Nat) : (d.setPair a v).draws = d.draws := rfl
@[simp] theorem Dev.setPair_shadow (d : Dev) (a v : Nat) : (d.setPair a v).shadow = d.shadow := rfl
@[simp] theorem Dev.setPair_held (d : Dev) (a v : Nat) : (d.setPair a v).held = d.held := rfl
@[simp] theorem Dev.setPair_tsHeld (d : Dev) (a v : Nat) : (d.setPair a v).tsHeld = d.tsHeld := rfl
@[simp] theorem Dev.setPair_rdata (d : Dev) (a v : Nat) : (d.setPair a v).rdata = d.rdata := rfl
@[simp] theorem Dev.setPair_rflags (d : Dev) (a v : Nat) : (d.setPair a v).rflags = d.rflags := rfl
@[simp] theorem Dev.setPair_rstatus (d : Dev) (a v : Nat) : (d.setPair a v).rstatus = d.rstatus := rfl
@[simp] theorem Dev.setPair_mem (d : Dev) (a v : Nat) : (d.setPair a v).mem = d.mem := rfl
@[simp] theorem Dev.setPair_scales (d : Dev) (a v : Nat) : (d.setPair a v).scales = d.scales := rfl
@[simp] theorem Dev.setPair_dcqs (d : Dev) (a v : Nat) : (d.setPair a v).dcqs = d.dcqs := rfl
@[simp] theorem Dev.setPair_stopped (d : Dev) (a v : Nat) : (d.setPair a v).stopped = d.stopped := rfl
@[simp] theorem Dev.setPair_d2dMods (d : Dev) (a v : Nat) : (d.setPair a v).d2dMods = d.d2dMods := rfl
@[simp] theorem Dev.setPair_d2dDirs (d : Dev) (a v : Nat) : (d.setPair a v).d2dDirs = d.d2dDirs := rfl
@[simp] theorem Dev.setPair_flt (d : Dev) (a v : Nat) : (d.setPair a v).flt = d.flt := rfl
@[simp] theorem Dev.setPair_ctxs (d : Dev) (a v : Nat) : (d.setPair a v).ctxs = d.ctxs := rfl
@[simp] theorem Dev.setPair_cores (d : Dev) (a v : Nat) : (d.setPair a v).cores = d.cores := rfl
@[simp] theorem Dev.setPair_launchQ (d : Dev) (a v : Nat) : (d.setPair a v).launchQ = d.launchQ := rfl
@[simp] theorem Dev.setPair_posts (d : Dev) (a v : Nat) : (d.setPair a v).posts = d.posts := rfl
@[simp] theorem Dev.setPair_resv (d : Dev) (a v : Nat) : (d.setPair a v).resv = d.resv := rfl
@[simp] theorem Dev.setPair_chamExc (d : Dev) (a v : Nat) : (d.setPair a v).chamExc = d.chamExc := rfl
@[simp] theorem Dev.setPair_tier (d : Dev) (a v : Nat) : (d.setPair a v).tier = d.tier := rfl
@[simp] theorem Dev.setPair_herd (d : Dev) (a v : Nat) : (d.setPair a v).herd = d.herd := rfl
@[simp] theorem Dev.setPair_search (d : Dev) (a v : Nat) : (d.setPair a v).search = d.search := rfl
@[simp] theorem Dev.setPair_flash (d : Dev) (a v : Nat) : (d.setPair a v).flash = d.flash := rfl
@[simp] theorem Dev.setPair_ftl (d : Dev) (a v : Nat) : (d.setPair a v).ftl = d.ftl := rfl
@[simp] theorem Dev.setPair_host (d : Dev) (a v : Nat) : (d.setPair a v).host = d.host := rfl

@[simp] theorem Dev.modCtx_now (d : Dev) (c : Nat) (f : Ctx → Ctx) : (d.modCtx c f).now = d.now := rfl
@[simp] theorem Dev.modCtx_draws (d : Dev) (c : Nat) (f : Ctx → Ctx) : (d.modCtx c f).draws = d.draws := rfl
@[simp] theorem Dev.modCtx_regs (d : Dev) (c : Nat) (f : Ctx → Ctx) : (d.modCtx c f).regs = d.regs := rfl
@[simp] theorem Dev.modCtx_shadow (d : Dev) (c : Nat) (f : Ctx → Ctx) : (d.modCtx c f).shadow = d.shadow := rfl
@[simp] theorem Dev.modCtx_held (d : Dev) (c : Nat) (f : Ctx → Ctx) : (d.modCtx c f).held = d.held := rfl
@[simp] theorem Dev.modCtx_tsHeld (d : Dev) (c : Nat) (f : Ctx → Ctx) : (d.modCtx c f).tsHeld = d.tsHeld := rfl
@[simp] theorem Dev.modCtx_rdata (d : Dev) (c : Nat) (f : Ctx → Ctx) : (d.modCtx c f).rdata = d.rdata := rfl
@[simp] theorem Dev.modCtx_rflags (d : Dev) (c : Nat) (f : Ctx → Ctx) : (d.modCtx c f).rflags = d.rflags := rfl
@[simp] theorem Dev.modCtx_rstatus (d : Dev) (c : Nat) (f : Ctx → Ctx) : (d.modCtx c f).rstatus = d.rstatus := rfl
@[simp] theorem Dev.modCtx_mem (d : Dev) (c : Nat) (f : Ctx → Ctx) : (d.modCtx c f).mem = d.mem := rfl
@[simp] theorem Dev.modCtx_scales (d : Dev) (c : Nat) (f : Ctx → Ctx) : (d.modCtx c f).scales = d.scales := rfl
@[simp] theorem Dev.modCtx_dcqs (d : Dev) (c : Nat) (f : Ctx → Ctx) : (d.modCtx c f).dcqs = d.dcqs := rfl
@[simp] theorem Dev.modCtx_stopped (d : Dev) (c : Nat) (f : Ctx → Ctx) : (d.modCtx c f).stopped = d.stopped := rfl
@[simp] theorem Dev.modCtx_d2dMods (d : Dev) (c : Nat) (f : Ctx → Ctx) : (d.modCtx c f).d2dMods = d.d2dMods := rfl
@[simp] theorem Dev.modCtx_d2dDirs (d : Dev) (c : Nat) (f : Ctx → Ctx) : (d.modCtx c f).d2dDirs = d.d2dDirs := rfl
@[simp] theorem Dev.modCtx_flt (d : Dev) (c : Nat) (f : Ctx → Ctx) : (d.modCtx c f).flt = d.flt := rfl
@[simp] theorem Dev.modCtx_ctxs (d : Dev) (c : Nat) (f : Ctx → Ctx) : (d.modCtx c f).ctxs = Tab.modify d.ctxs c f := rfl
@[simp] theorem Dev.modCtx_cores (d : Dev) (c : Nat) (f : Ctx → Ctx) : (d.modCtx c f).cores = d.cores := rfl
@[simp] theorem Dev.modCtx_launchQ (d : Dev) (c : Nat) (f : Ctx → Ctx) : (d.modCtx c f).launchQ = d.launchQ := rfl
@[simp] theorem Dev.modCtx_posts (d : Dev) (c : Nat) (f : Ctx → Ctx) : (d.modCtx c f).posts = d.posts := rfl
@[simp] theorem Dev.modCtx_resv (d : Dev) (c : Nat) (f : Ctx → Ctx) : (d.modCtx c f).resv = d.resv := rfl
@[simp] theorem Dev.modCtx_chamExc (d : Dev) (c : Nat) (f : Ctx → Ctx) : (d.modCtx c f).chamExc = d.chamExc := rfl
@[simp] theorem Dev.modCtx_tier (d : Dev) (c : Nat) (f : Ctx → Ctx) : (d.modCtx c f).tier = d.tier := rfl
@[simp] theorem Dev.modCtx_herd (d : Dev) (c : Nat) (f : Ctx → Ctx) : (d.modCtx c f).herd = d.herd := rfl
@[simp] theorem Dev.modCtx_search (d : Dev) (c : Nat) (f : Ctx → Ctx) : (d.modCtx c f).search = d.search := rfl
@[simp] theorem Dev.modCtx_flash (d : Dev) (c : Nat) (f : Ctx → Ctx) : (d.modCtx c f).flash = d.flash := rfl
@[simp] theorem Dev.modCtx_ftl (d : Dev) (c : Nat) (f : Ctx → Ctx) : (d.modCtx c f).ftl = d.ftl := rfl
@[simp] theorem Dev.modCtx_host (d : Dev) (c : Nat) (f : Ctx → Ctx) : (d.modCtx c f).host = d.host := rfl

@[simp] theorem Dev.modCore_now (d : Dev) (k : Nat) (f : Core → Core) : (d.modCore k f).now = d.now := rfl
@[simp] theorem Dev.modCore_draws (d : Dev) (k : Nat) (f : Core → Core) : (d.modCore k f).draws = d.draws := rfl
@[simp] theorem Dev.modCore_regs (d : Dev) (k : Nat) (f : Core → Core) : (d.modCore k f).regs = d.regs := rfl
@[simp] theorem Dev.modCore_shadow (d : Dev) (k : Nat) (f : Core → Core) : (d.modCore k f).shadow = d.shadow := rfl
@[simp] theorem Dev.modCore_held (d : Dev) (k : Nat) (f : Core → Core) : (d.modCore k f).held = d.held := rfl
@[simp] theorem Dev.modCore_tsHeld (d : Dev) (k : Nat) (f : Core → Core) : (d.modCore k f).tsHeld = d.tsHeld := rfl
@[simp] theorem Dev.modCore_rdata (d : Dev) (k : Nat) (f : Core → Core) : (d.modCore k f).rdata = d.rdata := rfl
@[simp] theorem Dev.modCore_rflags (d : Dev) (k : Nat) (f : Core → Core) : (d.modCore k f).rflags = d.rflags := rfl
@[simp] theorem Dev.modCore_rstatus (d : Dev) (k : Nat) (f : Core → Core) : (d.modCore k f).rstatus = d.rstatus := rfl
@[simp] theorem Dev.modCore_mem (d : Dev) (k : Nat) (f : Core → Core) : (d.modCore k f).mem = d.mem := rfl
@[simp] theorem Dev.modCore_scales (d : Dev) (k : Nat) (f : Core → Core) : (d.modCore k f).scales = d.scales := rfl
@[simp] theorem Dev.modCore_dcqs (d : Dev) (k : Nat) (f : Core → Core) : (d.modCore k f).dcqs = d.dcqs := rfl
@[simp] theorem Dev.modCore_stopped (d : Dev) (k : Nat) (f : Core → Core) : (d.modCore k f).stopped = d.stopped := rfl
@[simp] theorem Dev.modCore_d2dMods (d : Dev) (k : Nat) (f : Core → Core) : (d.modCore k f).d2dMods = d.d2dMods := rfl
@[simp] theorem Dev.modCore_d2dDirs (d : Dev) (k : Nat) (f : Core → Core) : (d.modCore k f).d2dDirs = d.d2dDirs := rfl
@[simp] theorem Dev.modCore_flt (d : Dev) (k : Nat) (f : Core → Core) : (d.modCore k f).flt = d.flt := rfl
@[simp] theorem Dev.modCore_ctxs (d : Dev) (k : Nat) (f : Core → Core) : (d.modCore k f).ctxs = d.ctxs := rfl
@[simp] theorem Dev.modCore_cores (d : Dev) (k : Nat) (f : Core → Core) : (d.modCore k f).cores = Tab.store d.cores k (f (d.core k)) Core.reset := rfl
@[simp] theorem Dev.modCore_launchQ (d : Dev) (k : Nat) (f : Core → Core) : (d.modCore k f).launchQ = d.launchQ := rfl
@[simp] theorem Dev.modCore_posts (d : Dev) (k : Nat) (f : Core → Core) : (d.modCore k f).posts = d.posts := rfl
@[simp] theorem Dev.modCore_resv (d : Dev) (k : Nat) (f : Core → Core) : (d.modCore k f).resv = d.resv := rfl
@[simp] theorem Dev.modCore_chamExc (d : Dev) (k : Nat) (f : Core → Core) : (d.modCore k f).chamExc = d.chamExc := rfl
@[simp] theorem Dev.modCore_tier (d : Dev) (k : Nat) (f : Core → Core) : (d.modCore k f).tier = d.tier := rfl
@[simp] theorem Dev.modCore_herd (d : Dev) (k : Nat) (f : Core → Core) : (d.modCore k f).herd = d.herd := rfl
@[simp] theorem Dev.modCore_search (d : Dev) (k : Nat) (f : Core → Core) : (d.modCore k f).search = d.search := rfl
@[simp] theorem Dev.modCore_flash (d : Dev) (k : Nat) (f : Core → Core) : (d.modCore k f).flash = d.flash := rfl
@[simp] theorem Dev.modCore_ftl (d : Dev) (k : Nat) (f : Core → Core) : (d.modCore k f).ftl = d.ftl := rfl
@[simp] theorem Dev.modCore_host (d : Dev) (k : Nat) (f : Core → Core) : (d.modCore k f).host = d.host := rfl

@[simp] theorem Dev.modCtrl_now (d : Dev) (p : Nat) (f : Ctrl → Ctrl) : (d.modCtrl p f).now = d.now := rfl
@[simp] theorem Dev.modCtrl_draws (d : Dev) (p : Nat) (f : Ctrl → Ctrl) : (d.modCtrl p f).draws = d.draws := rfl
@[simp] theorem Dev.modCtrl_regs (d : Dev) (p : Nat) (f : Ctrl → Ctrl) : (d.modCtrl p f).regs = d.regs := rfl
@[simp] theorem Dev.modCtrl_shadow (d : Dev) (p : Nat) (f : Ctrl → Ctrl) : (d.modCtrl p f).shadow = d.shadow := rfl
@[simp] theorem Dev.modCtrl_held (d : Dev) (p : Nat) (f : Ctrl → Ctrl) : (d.modCtrl p f).held = d.held := rfl
@[simp] theorem Dev.modCtrl_tsHeld (d : Dev) (p : Nat) (f : Ctrl → Ctrl) : (d.modCtrl p f).tsHeld = d.tsHeld := rfl
@[simp] theorem Dev.modCtrl_rdata (d : Dev) (p : Nat) (f : Ctrl → Ctrl) : (d.modCtrl p f).rdata = d.rdata := rfl
@[simp] theorem Dev.modCtrl_rflags (d : Dev) (p : Nat) (f : Ctrl → Ctrl) : (d.modCtrl p f).rflags = d.rflags := rfl
@[simp] theorem Dev.modCtrl_rstatus (d : Dev) (p : Nat) (f : Ctrl → Ctrl) : (d.modCtrl p f).rstatus = d.rstatus := rfl
@[simp] theorem Dev.modCtrl_mem (d : Dev) (p : Nat) (f : Ctrl → Ctrl) : (d.modCtrl p f).mem = d.mem := rfl
@[simp] theorem Dev.modCtrl_scales (d : Dev) (p : Nat) (f : Ctrl → Ctrl) : (d.modCtrl p f).scales = d.scales := rfl
@[simp] theorem Dev.modCtrl_dcqs (d : Dev) (p : Nat) (f : Ctrl → Ctrl) : (d.modCtrl p f).dcqs = d.dcqs := rfl
@[simp] theorem Dev.modCtrl_stopped (d : Dev) (p : Nat) (f : Ctrl → Ctrl) : (d.modCtrl p f).stopped = d.stopped := rfl
@[simp] theorem Dev.modCtrl_d2dMods (d : Dev) (p : Nat) (f : Ctrl → Ctrl) : (d.modCtrl p f).d2dMods = d.d2dMods := rfl
@[simp] theorem Dev.modCtrl_d2dDirs (d : Dev) (p : Nat) (f : Ctrl → Ctrl) : (d.modCtrl p f).d2dDirs = d.d2dDirs := rfl
@[simp] theorem Dev.modCtrl_flt (d : Dev) (p : Nat) (f : Ctrl → Ctrl) : (d.modCtrl p f).flt = d.flt := rfl
@[simp] theorem Dev.modCtrl_ctxs (d : Dev) (p : Nat) (f : Ctrl → Ctrl) : (d.modCtrl p f).ctxs = d.ctxs := rfl
@[simp] theorem Dev.modCtrl_cores (d : Dev) (p : Nat) (f : Ctrl → Ctrl) : (d.modCtrl p f).cores = d.cores := rfl
@[simp] theorem Dev.modCtrl_launchQ (d : Dev) (p : Nat) (f : Ctrl → Ctrl) : (d.modCtrl p f).launchQ = d.launchQ := rfl
@[simp] theorem Dev.modCtrl_posts (d : Dev) (p : Nat) (f : Ctrl → Ctrl) : (d.modCtrl p f).posts = d.posts := rfl
@[simp] theorem Dev.modCtrl_resv (d : Dev) (p : Nat) (f : Ctrl → Ctrl) : (d.modCtrl p f).resv = d.resv := rfl
@[simp] theorem Dev.modCtrl_chamExc (d : Dev) (p : Nat) (f : Ctrl → Ctrl) : (d.modCtrl p f).chamExc = d.chamExc := rfl
@[simp] theorem Dev.modCtrl_tier (d : Dev) (p : Nat) (f : Ctrl → Ctrl) : (d.modCtrl p f).tier = d.tier := rfl
@[simp] theorem Dev.modCtrl_herd (d : Dev) (p : Nat) (f : Ctrl → Ctrl) : (d.modCtrl p f).herd = d.herd := rfl
@[simp] theorem Dev.modCtrl_search (d : Dev) (p : Nat) (f : Ctrl → Ctrl) : (d.modCtrl p f).search = d.search := rfl
@[simp] theorem Dev.modCtrl_flash (d : Dev) (p : Nat) (f : Ctrl → Ctrl) : (d.modCtrl p f).flash = d.flash := rfl
@[simp] theorem Dev.modCtrl_ftl (d : Dev) (p : Nat) (f : Ctrl → Ctrl) : (d.modCtrl p f).ftl = d.ftl := rfl
@[simp] theorem Dev.modCtrl_host (d : Dev) (p : Nat) (f : Ctrl → Ctrl) : (d.modCtrl p f).host = { d.host with ctrls := Tab.put d.host.ctrls p (f (d.ctrl p)) } := rfl

@[simp] theorem Dev.modJob_now (d : Dev) (j : Nat) (f : SJob → SJob) : (d.modJob j f).now = d.now := rfl
@[simp] theorem Dev.modJob_draws (d : Dev) (j : Nat) (f : SJob → SJob) : (d.modJob j f).draws = d.draws := rfl
@[simp] theorem Dev.modJob_regs (d : Dev) (j : Nat) (f : SJob → SJob) : (d.modJob j f).regs = d.regs := rfl
@[simp] theorem Dev.modJob_shadow (d : Dev) (j : Nat) (f : SJob → SJob) : (d.modJob j f).shadow = d.shadow := rfl
@[simp] theorem Dev.modJob_held (d : Dev) (j : Nat) (f : SJob → SJob) : (d.modJob j f).held = d.held := rfl
@[simp] theorem Dev.modJob_tsHeld (d : Dev) (j : Nat) (f : SJob → SJob) : (d.modJob j f).tsHeld = d.tsHeld := rfl
@[simp] theorem Dev.modJob_rdata (d : Dev) (j : Nat) (f : SJob → SJob) : (d.modJob j f).rdata = d.rdata := rfl
@[simp] theorem Dev.modJob_rflags (d : Dev) (j : Nat) (f : SJob → SJob) : (d.modJob j f).rflags = d.rflags := rfl
@[simp] theorem Dev.modJob_rstatus (d : Dev) (j : Nat) (f : SJob → SJob) : (d.modJob j f).rstatus = d.rstatus := rfl
@[simp] theorem Dev.modJob_mem (d : Dev) (j : Nat) (f : SJob → SJob) : (d.modJob j f).mem = d.mem := rfl
@[simp] theorem Dev.modJob_scales (d : Dev) (j : Nat) (f : SJob → SJob) : (d.modJob j f).scales = d.scales := rfl
@[simp] theorem Dev.modJob_dcqs (d : Dev) (j : Nat) (f : SJob → SJob) : (d.modJob j f).dcqs = d.dcqs := rfl
@[simp] theorem Dev.modJob_stopped (d : Dev) (j : Nat) (f : SJob → SJob) : (d.modJob j f).stopped = d.stopped := rfl
@[simp] theorem Dev.modJob_d2dMods (d : Dev) (j : Nat) (f : SJob → SJob) : (d.modJob j f).d2dMods = d.d2dMods := rfl
@[simp] theorem Dev.modJob_d2dDirs (d : Dev) (j : Nat) (f : SJob → SJob) : (d.modJob j f).d2dDirs = d.d2dDirs := rfl
@[simp] theorem Dev.modJob_flt (d : Dev) (j : Nat) (f : SJob → SJob) : (d.modJob j f).flt = d.flt := rfl
@[simp] theorem Dev.modJob_ctxs (d : Dev) (j : Nat) (f : SJob → SJob) : (d.modJob j f).ctxs = d.ctxs := rfl
@[simp] theorem Dev.modJob_cores (d : Dev) (j : Nat) (f : SJob → SJob) : (d.modJob j f).cores = d.cores := rfl
@[simp] theorem Dev.modJob_launchQ (d : Dev) (j : Nat) (f : SJob → SJob) : (d.modJob j f).launchQ = d.launchQ := rfl
@[simp] theorem Dev.modJob_posts (d : Dev) (j : Nat) (f : SJob → SJob) : (d.modJob j f).posts = d.posts := rfl
@[simp] theorem Dev.modJob_resv (d : Dev) (j : Nat) (f : SJob → SJob) : (d.modJob j f).resv = d.resv := rfl
@[simp] theorem Dev.modJob_chamExc (d : Dev) (j : Nat) (f : SJob → SJob) : (d.modJob j f).chamExc = d.chamExc := rfl
@[simp] theorem Dev.modJob_tier (d : Dev) (j : Nat) (f : SJob → SJob) : (d.modJob j f).tier = d.tier := rfl
@[simp] theorem Dev.modJob_herd (d : Dev) (j : Nat) (f : SJob → SJob) : (d.modJob j f).herd = d.herd := rfl
@[simp] theorem Dev.modJob_search (d : Dev) (j : Nat) (f : SJob → SJob) : (d.modJob j f).search = { d.search with jobs := Tab.modify d.search.jobs j f } := rfl
@[simp] theorem Dev.modJob_flash (d : Dev) (j : Nat) (f : SJob → SJob) : (d.modJob j f).flash = d.flash := rfl
@[simp] theorem Dev.modJob_ftl (d : Dev) (j : Nat) (f : SJob → SJob) : (d.modJob j f).ftl = d.ftl := rfl
@[simp] theorem Dev.modJob_host (d : Dev) (j : Nat) (f : SJob → SJob) : (d.modJob j f).host = d.host := rfl

@[simp] theorem Dev.modColl_now (d : Dev) (l : Nat) (f : Coll → Coll) : (d.modColl l f).now = d.now := rfl
@[simp] theorem Dev.modColl_draws (d : Dev) (l : Nat) (f : Coll → Coll) : (d.modColl l f).draws = d.draws := rfl
@[simp] theorem Dev.modColl_regs (d : Dev) (l : Nat) (f : Coll → Coll) : (d.modColl l f).regs = d.regs := rfl
@[simp] theorem Dev.modColl_shadow (d : Dev) (l : Nat) (f : Coll → Coll) : (d.modColl l f).shadow = d.shadow := rfl
@[simp] theorem Dev.modColl_held (d : Dev) (l : Nat) (f : Coll → Coll) : (d.modColl l f).held = d.held := rfl
@[simp] theorem Dev.modColl_tsHeld (d : Dev) (l : Nat) (f : Coll → Coll) : (d.modColl l f).tsHeld = d.tsHeld := rfl
@[simp] theorem Dev.modColl_rdata (d : Dev) (l : Nat) (f : Coll → Coll) : (d.modColl l f).rdata = d.rdata := rfl
@[simp] theorem Dev.modColl_rflags (d : Dev) (l : Nat) (f : Coll → Coll) : (d.modColl l f).rflags = d.rflags := rfl
@[simp] theorem Dev.modColl_rstatus (d : Dev) (l : Nat) (f : Coll → Coll) : (d.modColl l f).rstatus = d.rstatus := rfl
@[simp] theorem Dev.modColl_mem (d : Dev) (l : Nat) (f : Coll → Coll) : (d.modColl l f).mem = d.mem := rfl
@[simp] theorem Dev.modColl_scales (d : Dev) (l : Nat) (f : Coll → Coll) : (d.modColl l f).scales = d.scales := rfl
@[simp] theorem Dev.modColl_dcqs (d : Dev) (l : Nat) (f : Coll → Coll) : (d.modColl l f).dcqs = d.dcqs := rfl
@[simp] theorem Dev.modColl_stopped (d : Dev) (l : Nat) (f : Coll → Coll) : (d.modColl l f).stopped = d.stopped := rfl
@[simp] theorem Dev.modColl_d2dMods (d : Dev) (l : Nat) (f : Coll → Coll) : (d.modColl l f).d2dMods = d.d2dMods := rfl
@[simp] theorem Dev.modColl_d2dDirs (d : Dev) (l : Nat) (f : Coll → Coll) : (d.modColl l f).d2dDirs = d.d2dDirs := rfl
@[simp] theorem Dev.modColl_flt (d : Dev) (l : Nat) (f : Coll → Coll) : (d.modColl l f).flt = d.flt := rfl
@[simp] theorem Dev.modColl_ctxs (d : Dev) (l : Nat) (f : Coll → Coll) : (d.modColl l f).ctxs = d.ctxs := rfl
@[simp] theorem Dev.modColl_cores (d : Dev) (l : Nat) (f : Coll → Coll) : (d.modColl l f).cores = d.cores := rfl
@[simp] theorem Dev.modColl_launchQ (d : Dev) (l : Nat) (f : Coll → Coll) : (d.modColl l f).launchQ = d.launchQ := rfl
@[simp] theorem Dev.modColl_posts (d : Dev) (l : Nat) (f : Coll → Coll) : (d.modColl l f).posts = d.posts := rfl
@[simp] theorem Dev.modColl_resv (d : Dev) (l : Nat) (f : Coll → Coll) : (d.modColl l f).resv = d.resv := rfl
@[simp] theorem Dev.modColl_chamExc (d : Dev) (l : Nat) (f : Coll → Coll) : (d.modColl l f).chamExc = d.chamExc := rfl
@[simp] theorem Dev.modColl_tier (d : Dev) (l : Nat) (f : Coll → Coll) : (d.modColl l f).tier = d.tier := rfl
@[simp] theorem Dev.modColl_herd (d : Dev) (l : Nat) (f : Coll → Coll) : (d.modColl l f).herd = d.herd := rfl
@[simp] theorem Dev.modColl_search (d : Dev) (l : Nat) (f : Coll → Coll) : (d.modColl l f).search = { d.search with colls := Tab.modify d.search.colls l f } := rfl
@[simp] theorem Dev.modColl_flash (d : Dev) (l : Nat) (f : Coll → Coll) : (d.modColl l f).flash = d.flash := rfl
@[simp] theorem Dev.modColl_ftl (d : Dev) (l : Nat) (f : Coll → Coll) : (d.modColl l f).ftl = d.ftl := rfl
@[simp] theorem Dev.modColl_host (d : Dev) (l : Nat) (f : Coll → Coll) : (d.modColl l f).host = d.host := rfl

@[simp] theorem Dev.modObj_now (d : Dev) (i : Nat) (f : Obj → Obj) : (d.modObj i f).now = d.now := rfl
@[simp] theorem Dev.modObj_draws (d : Dev) (i : Nat) (f : Obj → Obj) : (d.modObj i f).draws = d.draws := rfl
@[simp] theorem Dev.modObj_regs (d : Dev) (i : Nat) (f : Obj → Obj) : (d.modObj i f).regs = d.regs := rfl
@[simp] theorem Dev.modObj_shadow (d : Dev) (i : Nat) (f : Obj → Obj) : (d.modObj i f).shadow = d.shadow := rfl
@[simp] theorem Dev.modObj_held (d : Dev) (i : Nat) (f : Obj → Obj) : (d.modObj i f).held = d.held := rfl
@[simp] theorem Dev.modObj_tsHeld (d : Dev) (i : Nat) (f : Obj → Obj) : (d.modObj i f).tsHeld = d.tsHeld := rfl
@[simp] theorem Dev.modObj_rdata (d : Dev) (i : Nat) (f : Obj → Obj) : (d.modObj i f).rdata = d.rdata := rfl
@[simp] theorem Dev.modObj_rflags (d : Dev) (i : Nat) (f : Obj → Obj) : (d.modObj i f).rflags = d.rflags := rfl
@[simp] theorem Dev.modObj_rstatus (d : Dev) (i : Nat) (f : Obj → Obj) : (d.modObj i f).rstatus = d.rstatus := rfl
@[simp] theorem Dev.modObj_mem (d : Dev) (i : Nat) (f : Obj → Obj) : (d.modObj i f).mem = d.mem := rfl
@[simp] theorem Dev.modObj_scales (d : Dev) (i : Nat) (f : Obj → Obj) : (d.modObj i f).scales = d.scales := rfl
@[simp] theorem Dev.modObj_dcqs (d : Dev) (i : Nat) (f : Obj → Obj) : (d.modObj i f).dcqs = d.dcqs := rfl
@[simp] theorem Dev.modObj_stopped (d : Dev) (i : Nat) (f : Obj → Obj) : (d.modObj i f).stopped = d.stopped := rfl
@[simp] theorem Dev.modObj_d2dMods (d : Dev) (i : Nat) (f : Obj → Obj) : (d.modObj i f).d2dMods = d.d2dMods := rfl
@[simp] theorem Dev.modObj_d2dDirs (d : Dev) (i : Nat) (f : Obj → Obj) : (d.modObj i f).d2dDirs = d.d2dDirs := rfl
@[simp] theorem Dev.modObj_flt (d : Dev) (i : Nat) (f : Obj → Obj) : (d.modObj i f).flt = d.flt := rfl
@[simp] theorem Dev.modObj_ctxs (d : Dev) (i : Nat) (f : Obj → Obj) : (d.modObj i f).ctxs = d.ctxs := rfl
@[simp] theorem Dev.modObj_cores (d : Dev) (i : Nat) (f : Obj → Obj) : (d.modObj i f).cores = d.cores := rfl
@[simp] theorem Dev.modObj_launchQ (d : Dev) (i : Nat) (f : Obj → Obj) : (d.modObj i f).launchQ = d.launchQ := rfl
@[simp] theorem Dev.modObj_posts (d : Dev) (i : Nat) (f : Obj → Obj) : (d.modObj i f).posts = d.posts := rfl
@[simp] theorem Dev.modObj_resv (d : Dev) (i : Nat) (f : Obj → Obj) : (d.modObj i f).resv = d.resv := rfl
@[simp] theorem Dev.modObj_chamExc (d : Dev) (i : Nat) (f : Obj → Obj) : (d.modObj i f).chamExc = d.chamExc := rfl
@[simp] theorem Dev.modObj_tier (d : Dev) (i : Nat) (f : Obj → Obj) : (d.modObj i f).tier = { d.tier with objs := Tab.modify d.tier.objs i f } := rfl
@[simp] theorem Dev.modObj_herd (d : Dev) (i : Nat) (f : Obj → Obj) : (d.modObj i f).herd = d.herd := rfl
@[simp] theorem Dev.modObj_search (d : Dev) (i : Nat) (f : Obj → Obj) : (d.modObj i f).search = d.search := rfl
@[simp] theorem Dev.modObj_flash (d : Dev) (i : Nat) (f : Obj → Obj) : (d.modObj i f).flash = d.flash := rfl
@[simp] theorem Dev.modObj_ftl (d : Dev) (i : Nat) (f : Obj → Obj) : (d.modObj i f).ftl = d.ftl := rfl
@[simp] theorem Dev.modObj_host (d : Dev) (i : Nat) (f : Obj → Obj) : (d.modObj i f).host = d.host := rfl

@[simp] theorem Dev.putDir_now (d : Dev) (k : Nat) (e : DirEnt) : (d.putDir k e).now = d.now := rfl
@[simp] theorem Dev.putDir_draws (d : Dev) (k : Nat) (e : DirEnt) : (d.putDir k e).draws = d.draws := rfl
@[simp] theorem Dev.putDir_regs (d : Dev) (k : Nat) (e : DirEnt) : (d.putDir k e).regs = d.regs := rfl
@[simp] theorem Dev.putDir_shadow (d : Dev) (k : Nat) (e : DirEnt) : (d.putDir k e).shadow = d.shadow := rfl
@[simp] theorem Dev.putDir_held (d : Dev) (k : Nat) (e : DirEnt) : (d.putDir k e).held = d.held := rfl
@[simp] theorem Dev.putDir_tsHeld (d : Dev) (k : Nat) (e : DirEnt) : (d.putDir k e).tsHeld = d.tsHeld := rfl
@[simp] theorem Dev.putDir_rdata (d : Dev) (k : Nat) (e : DirEnt) : (d.putDir k e).rdata = d.rdata := rfl
@[simp] theorem Dev.putDir_rflags (d : Dev) (k : Nat) (e : DirEnt) : (d.putDir k e).rflags = d.rflags := rfl
@[simp] theorem Dev.putDir_rstatus (d : Dev) (k : Nat) (e : DirEnt) : (d.putDir k e).rstatus = d.rstatus := rfl
@[simp] theorem Dev.putDir_mem (d : Dev) (k : Nat) (e : DirEnt) : (d.putDir k e).mem = d.mem := rfl
@[simp] theorem Dev.putDir_scales (d : Dev) (k : Nat) (e : DirEnt) : (d.putDir k e).scales = d.scales := rfl
@[simp] theorem Dev.putDir_dcqs (d : Dev) (k : Nat) (e : DirEnt) : (d.putDir k e).dcqs = d.dcqs := rfl
@[simp] theorem Dev.putDir_stopped (d : Dev) (k : Nat) (e : DirEnt) : (d.putDir k e).stopped = d.stopped := rfl
@[simp] theorem Dev.putDir_d2dMods (d : Dev) (k : Nat) (e : DirEnt) : (d.putDir k e).d2dMods = d.d2dMods := rfl
@[simp] theorem Dev.putDir_d2dDirs (d : Dev) (k : Nat) (e : DirEnt) : (d.putDir k e).d2dDirs = d.d2dDirs := rfl
@[simp] theorem Dev.putDir_flt (d : Dev) (k : Nat) (e : DirEnt) : (d.putDir k e).flt = d.flt := rfl
@[simp] theorem Dev.putDir_ctxs (d : Dev) (k : Nat) (e : DirEnt) : (d.putDir k e).ctxs = d.ctxs := rfl
@[simp] theorem Dev.putDir_cores (d : Dev) (k : Nat) (e : DirEnt) : (d.putDir k e).cores = d.cores := rfl
@[simp] theorem Dev.putDir_launchQ (d : Dev) (k : Nat) (e : DirEnt) : (d.putDir k e).launchQ = d.launchQ := rfl
@[simp] theorem Dev.putDir_posts (d : Dev) (k : Nat) (e : DirEnt) : (d.putDir k e).posts = d.posts := rfl
@[simp] theorem Dev.putDir_resv (d : Dev) (k : Nat) (e : DirEnt) : (d.putDir k e).resv = d.resv := rfl
@[simp] theorem Dev.putDir_chamExc (d : Dev) (k : Nat) (e : DirEnt) : (d.putDir k e).chamExc = d.chamExc := rfl
@[simp] theorem Dev.putDir_tier (d : Dev) (k : Nat) (e : DirEnt) : (d.putDir k e).tier = d.tier := rfl
@[simp] theorem Dev.putDir_herd (d : Dev) (k : Nat) (e : DirEnt) : (d.putDir k e).herd = { d.herd with dir := Tab.put d.herd.dir k e } := rfl
@[simp] theorem Dev.putDir_search (d : Dev) (k : Nat) (e : DirEnt) : (d.putDir k e).search = d.search := rfl
@[simp] theorem Dev.putDir_flash (d : Dev) (k : Nat) (e : DirEnt) : (d.putDir k e).flash = d.flash := rfl
@[simp] theorem Dev.putDir_ftl (d : Dev) (k : Nat) (e : DirEnt) : (d.putDir k e).ftl = d.ftl := rfl
@[simp] theorem Dev.putDir_host (d : Dev) (k : Nat) (e : DirEnt) : (d.putDir k e).host = d.host := rfl

@[simp] theorem Dev.modLink_now (d : Dev) (h : Nat) (f : Link → Link) : (d.modLink h f).now = d.now := rfl
@[simp] theorem Dev.modLink_draws (d : Dev) (h : Nat) (f : Link → Link) : (d.modLink h f).draws = d.draws := rfl
@[simp] theorem Dev.modLink_regs (d : Dev) (h : Nat) (f : Link → Link) : (d.modLink h f).regs = d.regs := rfl
@[simp] theorem Dev.modLink_shadow (d : Dev) (h : Nat) (f : Link → Link) : (d.modLink h f).shadow = d.shadow := rfl
@[simp] theorem Dev.modLink_held (d : Dev) (h : Nat) (f : Link → Link) : (d.modLink h f).held = d.held := rfl
@[simp] theorem Dev.modLink_tsHeld (d : Dev) (h : Nat) (f : Link → Link) : (d.modLink h f).tsHeld = d.tsHeld := rfl
@[simp] theorem Dev.modLink_rdata (d : Dev) (h : Nat) (f : Link → Link) : (d.modLink h f).rdata = d.rdata := rfl
@[simp] theorem Dev.modLink_rflags (d : Dev) (h : Nat) (f : Link → Link) : (d.modLink h f).rflags = d.rflags := rfl
@[simp] theorem Dev.modLink_rstatus (d : Dev) (h : Nat) (f : Link → Link) : (d.modLink h f).rstatus = d.rstatus := rfl
@[simp] theorem Dev.modLink_mem (d : Dev) (h : Nat) (f : Link → Link) : (d.modLink h f).mem = d.mem := rfl
@[simp] theorem Dev.modLink_scales (d : Dev) (h : Nat) (f : Link → Link) : (d.modLink h f).scales = d.scales := rfl
@[simp] theorem Dev.modLink_dcqs (d : Dev) (h : Nat) (f : Link → Link) : (d.modLink h f).dcqs = d.dcqs := rfl
@[simp] theorem Dev.modLink_stopped (d : Dev) (h : Nat) (f : Link → Link) : (d.modLink h f).stopped = d.stopped := rfl
@[simp] theorem Dev.modLink_d2dMods (d : Dev) (h : Nat) (f : Link → Link) : (d.modLink h f).d2dMods = d.d2dMods := rfl
@[simp] theorem Dev.modLink_d2dDirs (d : Dev) (h : Nat) (f : Link → Link) : (d.modLink h f).d2dDirs = d.d2dDirs := rfl
@[simp] theorem Dev.modLink_flt (d : Dev) (h : Nat) (f : Link → Link) : (d.modLink h f).flt = d.flt := rfl
@[simp] theorem Dev.modLink_ctxs (d : Dev) (h : Nat) (f : Link → Link) : (d.modLink h f).ctxs = d.ctxs := rfl
@[simp] theorem Dev.modLink_cores (d : Dev) (h : Nat) (f : Link → Link) : (d.modLink h f).cores = d.cores := rfl
@[simp] theorem Dev.modLink_launchQ (d : Dev) (h : Nat) (f : Link → Link) : (d.modLink h f).launchQ = d.launchQ := rfl
@[simp] theorem Dev.modLink_posts (d : Dev) (h : Nat) (f : Link → Link) : (d.modLink h f).posts = d.posts := rfl
@[simp] theorem Dev.modLink_resv (d : Dev) (h : Nat) (f : Link → Link) : (d.modLink h f).resv = d.resv := rfl
@[simp] theorem Dev.modLink_chamExc (d : Dev) (h : Nat) (f : Link → Link) : (d.modLink h f).chamExc = d.chamExc := rfl
@[simp] theorem Dev.modLink_tier (d : Dev) (h : Nat) (f : Link → Link) : (d.modLink h f).tier = d.tier := rfl
@[simp] theorem Dev.modLink_search (d : Dev) (h : Nat) (f : Link → Link) : (d.modLink h f).search = d.search := rfl
@[simp] theorem Dev.modLink_flash (d : Dev) (h : Nat) (f : Link → Link) : (d.modLink h f).flash = d.flash := rfl
@[simp] theorem Dev.modLink_ftl (d : Dev) (h : Nat) (f : Link → Link) : (d.modLink h f).ftl = d.ftl := rfl
@[simp] theorem Dev.modLink_host (d : Dev) (h : Nat) (f : Link → Link) : (d.modLink h f).host = d.host := rfl

@[simp] theorem Dev.setFch_now (d : Dev) (c : Nat) (x : FchSt) : (d.setFch c x).now = d.now := rfl
@[simp] theorem Dev.setFch_draws (d : Dev) (c : Nat) (x : FchSt) : (d.setFch c x).draws = d.draws := rfl
@[simp] theorem Dev.setFch_regs (d : Dev) (c : Nat) (x : FchSt) : (d.setFch c x).regs = d.regs := rfl
@[simp] theorem Dev.setFch_shadow (d : Dev) (c : Nat) (x : FchSt) : (d.setFch c x).shadow = d.shadow := rfl
@[simp] theorem Dev.setFch_held (d : Dev) (c : Nat) (x : FchSt) : (d.setFch c x).held = d.held := rfl
@[simp] theorem Dev.setFch_tsHeld (d : Dev) (c : Nat) (x : FchSt) : (d.setFch c x).tsHeld = d.tsHeld := rfl
@[simp] theorem Dev.setFch_rdata (d : Dev) (c : Nat) (x : FchSt) : (d.setFch c x).rdata = d.rdata := rfl
@[simp] theorem Dev.setFch_rflags (d : Dev) (c : Nat) (x : FchSt) : (d.setFch c x).rflags = d.rflags := rfl
@[simp] theorem Dev.setFch_rstatus (d : Dev) (c : Nat) (x : FchSt) : (d.setFch c x).rstatus = d.rstatus := rfl
@[simp] theorem Dev.setFch_mem (d : Dev) (c : Nat) (x : FchSt) : (d.setFch c x).mem = d.mem := rfl
@[simp] theorem Dev.setFch_scales (d : Dev) (c : Nat) (x : FchSt) : (d.setFch c x).scales = d.scales := rfl
@[simp] theorem Dev.setFch_dcqs (d : Dev) (c : Nat) (x : FchSt) : (d.setFch c x).dcqs = d.dcqs := rfl
@[simp] theorem Dev.setFch_stopped (d : Dev) (c : Nat) (x : FchSt) : (d.setFch c x).stopped = d.stopped := rfl
@[simp] theorem Dev.setFch_d2dMods (d : Dev) (c : Nat) (x : FchSt) : (d.setFch c x).d2dMods = d.d2dMods := rfl
@[simp] theorem Dev.setFch_d2dDirs (d : Dev) (c : Nat) (x : FchSt) : (d.setFch c x).d2dDirs = d.d2dDirs := rfl
@[simp] theorem Dev.setFch_flt (d : Dev) (c : Nat) (x : FchSt) : (d.setFch c x).flt = d.flt := rfl
@[simp] theorem Dev.setFch_ctxs (d : Dev) (c : Nat) (x : FchSt) : (d.setFch c x).ctxs = d.ctxs := rfl
@[simp] theorem Dev.setFch_cores (d : Dev) (c : Nat) (x : FchSt) : (d.setFch c x).cores = d.cores := rfl
@[simp] theorem Dev.setFch_launchQ (d : Dev) (c : Nat) (x : FchSt) : (d.setFch c x).launchQ = d.launchQ := rfl
@[simp] theorem Dev.setFch_posts (d : Dev) (c : Nat) (x : FchSt) : (d.setFch c x).posts = d.posts := rfl
@[simp] theorem Dev.setFch_resv (d : Dev) (c : Nat) (x : FchSt) : (d.setFch c x).resv = d.resv := rfl
@[simp] theorem Dev.setFch_chamExc (d : Dev) (c : Nat) (x : FchSt) : (d.setFch c x).chamExc = d.chamExc := rfl
@[simp] theorem Dev.setFch_tier (d : Dev) (c : Nat) (x : FchSt) : (d.setFch c x).tier = d.tier := rfl
@[simp] theorem Dev.setFch_herd (d : Dev) (c : Nat) (x : FchSt) : (d.setFch c x).herd = d.herd := rfl
@[simp] theorem Dev.setFch_search (d : Dev) (c : Nat) (x : FchSt) : (d.setFch c x).search = d.search := rfl
@[simp] theorem Dev.setFch_flash (d : Dev) (c : Nat) (x : FchSt) : (d.setFch c x).flash = { d.flash with fch := Tab.store d.flash.fch c x FchSt.reset } := rfl
@[simp] theorem Dev.setFch_ftl (d : Dev) (c : Nat) (x : FchSt) : (d.setFch c x).ftl = d.ftl := rfl
@[simp] theorem Dev.setFch_host (d : Dev) (c : Nat) (x : FchSt) : (d.setFch c x).host = d.host := rfl

@[simp] theorem Dev.setFtl_now (d : Dev) (f : FtlSt → FtlSt) : (d.setFtl f).now = d.now := rfl
@[simp] theorem Dev.setFtl_draws (d : Dev) (f : FtlSt → FtlSt) : (d.setFtl f).draws = d.draws := rfl
@[simp] theorem Dev.setFtl_regs (d : Dev) (f : FtlSt → FtlSt) : (d.setFtl f).regs = d.regs := rfl
@[simp] theorem Dev.setFtl_shadow (d : Dev) (f : FtlSt → FtlSt) : (d.setFtl f).shadow = d.shadow := rfl
@[simp] theorem Dev.setFtl_held (d : Dev) (f : FtlSt → FtlSt) : (d.setFtl f).held = d.held := rfl
@[simp] theorem Dev.setFtl_tsHeld (d : Dev) (f : FtlSt → FtlSt) : (d.setFtl f).tsHeld = d.tsHeld := rfl
@[simp] theorem Dev.setFtl_rdata (d : Dev) (f : FtlSt → FtlSt) : (d.setFtl f).rdata = d.rdata := rfl
@[simp] theorem Dev.setFtl_rflags (d : Dev) (f : FtlSt → FtlSt) : (d.setFtl f).rflags = d.rflags := rfl
@[simp] theorem Dev.setFtl_rstatus (d : Dev) (f : FtlSt → FtlSt) : (d.setFtl f).rstatus = d.rstatus := rfl
@[simp] theorem Dev.setFtl_mem (d : Dev) (f : FtlSt → FtlSt) : (d.setFtl f).mem = d.mem := rfl
@[simp] theorem Dev.setFtl_scales (d : Dev) (f : FtlSt → FtlSt) : (d.setFtl f).scales = d.scales := rfl
@[simp] theorem Dev.setFtl_dcqs (d : Dev) (f : FtlSt → FtlSt) : (d.setFtl f).dcqs = d.dcqs := rfl
@[simp] theorem Dev.setFtl_stopped (d : Dev) (f : FtlSt → FtlSt) : (d.setFtl f).stopped = d.stopped := rfl
@[simp] theorem Dev.setFtl_d2dMods (d : Dev) (f : FtlSt → FtlSt) : (d.setFtl f).d2dMods = d.d2dMods := rfl
@[simp] theorem Dev.setFtl_d2dDirs (d : Dev) (f : FtlSt → FtlSt) : (d.setFtl f).d2dDirs = d.d2dDirs := rfl
@[simp] theorem Dev.setFtl_flt (d : Dev) (f : FtlSt → FtlSt) : (d.setFtl f).flt = d.flt := rfl
@[simp] theorem Dev.setFtl_ctxs (d : Dev) (f : FtlSt → FtlSt) : (d.setFtl f).ctxs = d.ctxs := rfl
@[simp] theorem Dev.setFtl_cores (d : Dev) (f : FtlSt → FtlSt) : (d.setFtl f).cores = d.cores := rfl
@[simp] theorem Dev.setFtl_launchQ (d : Dev) (f : FtlSt → FtlSt) : (d.setFtl f).launchQ = d.launchQ := rfl
@[simp] theorem Dev.setFtl_posts (d : Dev) (f : FtlSt → FtlSt) : (d.setFtl f).posts = d.posts := rfl
@[simp] theorem Dev.setFtl_resv (d : Dev) (f : FtlSt → FtlSt) : (d.setFtl f).resv = d.resv := rfl
@[simp] theorem Dev.setFtl_chamExc (d : Dev) (f : FtlSt → FtlSt) : (d.setFtl f).chamExc = d.chamExc := rfl
@[simp] theorem Dev.setFtl_tier (d : Dev) (f : FtlSt → FtlSt) : (d.setFtl f).tier = d.tier := rfl
@[simp] theorem Dev.setFtl_herd (d : Dev) (f : FtlSt → FtlSt) : (d.setFtl f).herd = d.herd := rfl
@[simp] theorem Dev.setFtl_search (d : Dev) (f : FtlSt → FtlSt) : (d.setFtl f).search = d.search := rfl
@[simp] theorem Dev.setFtl_flash (d : Dev) (f : FtlSt → FtlSt) : (d.setFtl f).flash = d.flash := rfl
@[simp] theorem Dev.setFtl_ftl (d : Dev) (f : FtlSt → FtlSt) : (d.setFtl f).ftl = f d.ftl := rfl
@[simp] theorem Dev.setFtl_host (d : Dev) (f : FtlSt → FtlSt) : (d.setFtl f).host = d.host := rfl

@[simp] theorem Dev.setScale_now (d : Dev) (k e : Nat) (v : W64) : (d.setScale k e v).now = d.now := rfl
@[simp] theorem Dev.setScale_draws (d : Dev) (k e : Nat) (v : W64) : (d.setScale k e v).draws = d.draws := rfl
@[simp] theorem Dev.setScale_regs (d : Dev) (k e : Nat) (v : W64) : (d.setScale k e v).regs = d.regs := rfl
@[simp] theorem Dev.setScale_shadow (d : Dev) (k e : Nat) (v : W64) : (d.setScale k e v).shadow = d.shadow := rfl
@[simp] theorem Dev.setScale_held (d : Dev) (k e : Nat) (v : W64) : (d.setScale k e v).held = d.held := rfl
@[simp] theorem Dev.setScale_tsHeld (d : Dev) (k e : Nat) (v : W64) : (d.setScale k e v).tsHeld = d.tsHeld := rfl
@[simp] theorem Dev.setScale_rdata (d : Dev) (k e : Nat) (v : W64) : (d.setScale k e v).rdata = d.rdata := rfl
@[simp] theorem Dev.setScale_rflags (d : Dev) (k e : Nat) (v : W64) : (d.setScale k e v).rflags = d.rflags := rfl
@[simp] theorem Dev.setScale_rstatus (d : Dev) (k e : Nat) (v : W64) : (d.setScale k e v).rstatus = d.rstatus := rfl
@[simp] theorem Dev.setScale_mem (d : Dev) (k e : Nat) (v : W64) : (d.setScale k e v).mem = d.mem := rfl
@[simp] theorem Dev.setScale_scales (d : Dev) (k e : Nat) (v : W64) : (d.setScale k e v).scales = Tab.store d.scales (k * 4096 + e) v 0#64 := rfl
@[simp] theorem Dev.setScale_dcqs (d : Dev) (k e : Nat) (v : W64) : (d.setScale k e v).dcqs = d.dcqs := rfl
@[simp] theorem Dev.setScale_stopped (d : Dev) (k e : Nat) (v : W64) : (d.setScale k e v).stopped = d.stopped := rfl
@[simp] theorem Dev.setScale_d2dMods (d : Dev) (k e : Nat) (v : W64) : (d.setScale k e v).d2dMods = d.d2dMods := rfl
@[simp] theorem Dev.setScale_d2dDirs (d : Dev) (k e : Nat) (v : W64) : (d.setScale k e v).d2dDirs = d.d2dDirs := rfl
@[simp] theorem Dev.setScale_flt (d : Dev) (k e : Nat) (v : W64) : (d.setScale k e v).flt = d.flt := rfl
@[simp] theorem Dev.setScale_ctxs (d : Dev) (k e : Nat) (v : W64) : (d.setScale k e v).ctxs = d.ctxs := rfl
@[simp] theorem Dev.setScale_cores (d : Dev) (k e : Nat) (v : W64) : (d.setScale k e v).cores = d.cores := rfl
@[simp] theorem Dev.setScale_launchQ (d : Dev) (k e : Nat) (v : W64) : (d.setScale k e v).launchQ = d.launchQ := rfl
@[simp] theorem Dev.setScale_posts (d : Dev) (k e : Nat) (v : W64) : (d.setScale k e v).posts = d.posts := rfl
@[simp] theorem Dev.setScale_resv (d : Dev) (k e : Nat) (v : W64) : (d.setScale k e v).resv = d.resv := rfl
@[simp] theorem Dev.setScale_chamExc (d : Dev) (k e : Nat) (v : W64) : (d.setScale k e v).chamExc = d.chamExc := rfl
@[simp] theorem Dev.setScale_tier (d : Dev) (k e : Nat) (v : W64) : (d.setScale k e v).tier = d.tier := rfl
@[simp] theorem Dev.setScale_herd (d : Dev) (k e : Nat) (v : W64) : (d.setScale k e v).herd = d.herd := rfl
@[simp] theorem Dev.setScale_search (d : Dev) (k e : Nat) (v : W64) : (d.setScale k e v).search = d.search := rfl
@[simp] theorem Dev.setScale_flash (d : Dev) (k e : Nat) (v : W64) : (d.setScale k e v).flash = d.flash := rfl
@[simp] theorem Dev.setScale_ftl (d : Dev) (k e : Nat) (v : W64) : (d.setScale k e v).ftl = d.ftl := rfl
@[simp] theorem Dev.setScale_host (d : Dev) (k e : Nat) (v : W64) : (d.setScale k e v).host = d.host := rfl

@[simp] theorem Dev.setDcq_now (d : Dev) (k : Nat) (x : Dcq) : (d.setDcq k x).now = d.now := rfl
@[simp] theorem Dev.setDcq_draws (d : Dev) (k : Nat) (x : Dcq) : (d.setDcq k x).draws = d.draws := rfl
@[simp] theorem Dev.setDcq_regs (d : Dev) (k : Nat) (x : Dcq) : (d.setDcq k x).regs = d.regs := rfl
@[simp] theorem Dev.setDcq_shadow (d : Dev) (k : Nat) (x : Dcq) : (d.setDcq k x).shadow = d.shadow := rfl
@[simp] theorem Dev.setDcq_held (d : Dev) (k : Nat) (x : Dcq) : (d.setDcq k x).held = d.held := rfl
@[simp] theorem Dev.setDcq_tsHeld (d : Dev) (k : Nat) (x : Dcq) : (d.setDcq k x).tsHeld = d.tsHeld := rfl
@[simp] theorem Dev.setDcq_rdata (d : Dev) (k : Nat) (x : Dcq) : (d.setDcq k x).rdata = d.rdata := rfl
@[simp] theorem Dev.setDcq_rflags (d : Dev) (k : Nat) (x : Dcq) : (d.setDcq k x).rflags = d.rflags := rfl
@[simp] theorem Dev.setDcq_rstatus (d : Dev) (k : Nat) (x : Dcq) : (d.setDcq k x).rstatus = d.rstatus := rfl
@[simp] theorem Dev.setDcq_mem (d : Dev) (k : Nat) (x : Dcq) : (d.setDcq k x).mem = d.mem := rfl
@[simp] theorem Dev.setDcq_scales (d : Dev) (k : Nat) (x : Dcq) : (d.setDcq k x).scales = d.scales := rfl
@[simp] theorem Dev.setDcq_dcqs (d : Dev) (k : Nat) (x : Dcq) : (d.setDcq k x).dcqs = Tab.store d.dcqs k x Dcq.reset := rfl
@[simp] theorem Dev.setDcq_stopped (d : Dev) (k : Nat) (x : Dcq) : (d.setDcq k x).stopped = d.stopped := rfl
@[simp] theorem Dev.setDcq_d2dMods (d : Dev) (k : Nat) (x : Dcq) : (d.setDcq k x).d2dMods = d.d2dMods := rfl
@[simp] theorem Dev.setDcq_d2dDirs (d : Dev) (k : Nat) (x : Dcq) : (d.setDcq k x).d2dDirs = d.d2dDirs := rfl
@[simp] theorem Dev.setDcq_flt (d : Dev) (k : Nat) (x : Dcq) : (d.setDcq k x).flt = d.flt := rfl
@[simp] theorem Dev.setDcq_ctxs (d : Dev) (k : Nat) (x : Dcq) : (d.setDcq k x).ctxs = d.ctxs := rfl
@[simp] theorem Dev.setDcq_cores (d : Dev) (k : Nat) (x : Dcq) : (d.setDcq k x).cores = d.cores := rfl
@[simp] theorem Dev.setDcq_launchQ (d : Dev) (k : Nat) (x : Dcq) : (d.setDcq k x).launchQ = d.launchQ := rfl
@[simp] theorem Dev.setDcq_posts (d : Dev) (k : Nat) (x : Dcq) : (d.setDcq k x).posts = d.posts := rfl
@[simp] theorem Dev.setDcq_resv (d : Dev) (k : Nat) (x : Dcq) : (d.setDcq k x).resv = d.resv := rfl
@[simp] theorem Dev.setDcq_chamExc (d : Dev) (k : Nat) (x : Dcq) : (d.setDcq k x).chamExc = d.chamExc := rfl
@[simp] theorem Dev.setDcq_tier (d : Dev) (k : Nat) (x : Dcq) : (d.setDcq k x).tier = d.tier := rfl
@[simp] theorem Dev.setDcq_herd (d : Dev) (k : Nat) (x : Dcq) : (d.setDcq k x).herd = d.herd := rfl
@[simp] theorem Dev.setDcq_search (d : Dev) (k : Nat) (x : Dcq) : (d.setDcq k x).search = d.search := rfl
@[simp] theorem Dev.setDcq_flash (d : Dev) (k : Nat) (x : Dcq) : (d.setDcq k x).flash = d.flash := rfl
@[simp] theorem Dev.setDcq_ftl (d : Dev) (k : Nat) (x : Dcq) : (d.setDcq k x).ftl = d.ftl := rfl
@[simp] theorem Dev.setDcq_host (d : Dev) (k : Nat) (x : Dcq) : (d.setDcq k x).host = d.host := rfl

@[simp] theorem Dev.choose_now (d : Dev) (n : Nat) : (d.choose n).2.now = d.now := rfl
@[simp] theorem Dev.choose_draws (d : Dev) (n : Nat) : (d.choose n).2.draws = d.draws + 1 := rfl
@[simp] theorem Dev.choose_regs (d : Dev) (n : Nat) : (d.choose n).2.regs = d.regs := rfl
@[simp] theorem Dev.choose_shadow (d : Dev) (n : Nat) : (d.choose n).2.shadow = d.shadow := rfl
@[simp] theorem Dev.choose_held (d : Dev) (n : Nat) : (d.choose n).2.held = d.held := rfl
@[simp] theorem Dev.choose_tsHeld (d : Dev) (n : Nat) : (d.choose n).2.tsHeld = d.tsHeld := rfl
@[simp] theorem Dev.choose_rdata (d : Dev) (n : Nat) : (d.choose n).2.rdata = d.rdata := rfl
@[simp] theorem Dev.choose_rflags (d : Dev) (n : Nat) : (d.choose n).2.rflags = d.rflags := rfl
@[simp] theorem Dev.choose_rstatus (d : Dev) (n : Nat) : (d.choose n).2.rstatus = d.rstatus := rfl
@[simp] theorem Dev.choose_mem (d : Dev) (n : Nat) : (d.choose n).2.mem = d.mem := rfl
@[simp] theorem Dev.choose_scales (d : Dev) (n : Nat) : (d.choose n).2.scales = d.scales := rfl
@[simp] theorem Dev.choose_dcqs (d : Dev) (n : Nat) : (d.choose n).2.dcqs = d.dcqs := rfl
@[simp] theorem Dev.choose_stopped (d : Dev) (n : Nat) : (d.choose n).2.stopped = d.stopped := rfl
@[simp] theorem Dev.choose_d2dMods (d : Dev) (n : Nat) : (d.choose n).2.d2dMods = d.d2dMods := rfl
@[simp] theorem Dev.choose_d2dDirs (d : Dev) (n : Nat) : (d.choose n).2.d2dDirs = d.d2dDirs := rfl
@[simp] theorem Dev.choose_flt (d : Dev) (n : Nat) : (d.choose n).2.flt = d.flt := rfl
@[simp] theorem Dev.choose_ctxs (d : Dev) (n : Nat) : (d.choose n).2.ctxs = d.ctxs := rfl
@[simp] theorem Dev.choose_cores (d : Dev) (n : Nat) : (d.choose n).2.cores = d.cores := rfl
@[simp] theorem Dev.choose_launchQ (d : Dev) (n : Nat) : (d.choose n).2.launchQ = d.launchQ := rfl
@[simp] theorem Dev.choose_posts (d : Dev) (n : Nat) : (d.choose n).2.posts = d.posts := rfl
@[simp] theorem Dev.choose_resv (d : Dev) (n : Nat) : (d.choose n).2.resv = d.resv := rfl
@[simp] theorem Dev.choose_chamExc (d : Dev) (n : Nat) : (d.choose n).2.chamExc = d.chamExc := rfl
@[simp] theorem Dev.choose_tier (d : Dev) (n : Nat) : (d.choose n).2.tier = d.tier := rfl
@[simp] theorem Dev.choose_herd (d : Dev) (n : Nat) : (d.choose n).2.herd = d.herd := rfl
@[simp] theorem Dev.choose_search (d : Dev) (n : Nat) : (d.choose n).2.search = d.search := rfl
@[simp] theorem Dev.choose_flash (d : Dev) (n : Nat) : (d.choose n).2.flash = d.flash := rfl
@[simp] theorem Dev.choose_ftl (d : Dev) (n : Nat) : (d.choose n).2.ftl = d.ftl := rfl
@[simp] theorem Dev.choose_host (d : Dev) (n : Nat) : (d.choose n).2.host = d.host := rfl

end Sys2Proof.Machine
end

