-- ==== Sys2Proof/Laws/Step.lean ====
section
/-! SUPPORT. What a step, a taken fault report and a register command can do, each said once. -/
namespace Sys2Proof.Machine

/-- A step with a command in front is that command's effect on the state with the queue's rest. -/
@[simp] theorem step_front {s : State} {c : Instr} {r : List Instr} (h : s.pending = c :: r) :
    step s = exec c { s with pending := r } := by simp [step, h]

/-- A step on an empty queue is a nanosecond. -/
@[simp] theorem step_idle {s : State} (h : s.pending = []) : step s = .next s.tick := by simp [step, h]

/-- Where no fault report waits, taking them changes nothing. -/
theorem settled_none {s : State} (h : s.dev.flt.raised = []) : s.settled = s := by simp [State.settled, h]

/-- Taking fault reports never touches the queue. -/
@[simp] theorem settled_pending (s : State) : s.settled.pending = s.pending := by
  unfold State.settled; split
  · rfl
  · unfold State.drivePins; split <;> rfl

/-- Of the standby records, taking fault reports changes the two fault pins only. -/
theorem settled_aon (s : State) : ∃ p n, s.settled.aon = { s.aon with fltP := p, fltN := n } := by
  unfold State.settled; split
  · exact ⟨s.aon.fltP, s.aon.fltN, rfl⟩
  · unfold State.drivePins; split
    · exact ⟨false, false, rfl⟩
    · exact ⟨_, _, rfl⟩

/-- A register command: its effect where the register is there and in service, nothing where it is frozen, one clamp where there is
none. -/
theorem regDo_cases (s : State) (r : Req) (a : Nat) (f : State → State) :
    (s.dev.busAns r a true = .ok ∧ s.regDo r a f = f s) ∨
    (s.dev.busAns r a true = .frozen ∧ s.regDo r a f = s) ∨
    (s.dev.busAns r a true = .hole ∧ s.regDo r a f = s.onDev (fun d => d.holeAccess r a)) := by
  unfold State.regDo
  split <;> simp_all

/-- A register that was set reads what it was set to; every other one reads as before. -/
@[simp] theorem reg_setReg_same (d : Dev) (a : Nat) (v : W32) : (d.setReg a v).reg a = v := Tab.getD_store_same _ _ _ _
theorem reg_setReg_other (d : Dev) {a b : Nat} (v : W32) (h : b ≠ a) : (d.setReg a v).reg b = d.reg b := by
  unfold Dev.reg Dev.setReg Tab.store Tab.getD
  dsimp only
  split
  · rw [Tab.find_del_other _ h]
  · rw [Tab.find_put_other _ _ h]

/-- Two changes of the device in turn are one. -/
theorem onDev_onDev (s : State) (f g : Dev → Dev) : (s.onDev f).onDev g = s.onDev (fun d => g (f d)) := rfl

end Sys2Proof.Machine
end

