-- ==== Sys2Proof/Tests/Slice0.lean ====
section
/-! SUPPORT. Tests: what is not well formed is refused; a witness for the hypotheses of each statement; a few commands on small
states, their results computed by hand from the rules that the comments name. -/
namespace Sys2Proof.Tests
open Sys2Proof Sys2Proof.Machine
set_option maxRecDepth 100000

/-! ## What is not well formed -/

/-- A message with small fields. -/
def msg0 : Msg := ⟨1, 0, 0, 0, false, false, 0#64, []⟩
/-- An NVMe command of zeros. -/
def cmd0 : NvmeCmd := ⟨0, 0, 0, 0#32, 0#32, 0#32, 0#32, 0#32, 0#32, []⟩
/-- A corrected fault of cause 0. -/
def flt0 : FaultReq := ⟨0, 0, 0, 0, 0, 0#64, 0, false, false, none⟩
/-- An instruction word of a class and an operation, its other fields 0. -/
def word (cls op : Nat) : W64 := BitVec.ofNat 64 (cls * 2 ^ 60 + op * 2 ^ 54)

theorem test_wf_requester : Req.wf (.ctx 4095) = true ∧ Req.wf (.ctx 4096) = false ∧ Req.wf (.cham 32) = false ∧ Req.wf (.remote 4096) = false ∧
    Req.wf (.host 4) = false ∧ Req.wf (.hostFor 4 15) = false ∧ Req.wf (.hostFor 3 16) = false ∧ Req.wf (.unit 64 0) = false ∧
    Req.wf (.unit 63 1024) = false := by decide
theorem test_wf_message : msg0.wf = true ∧ ({ msg0 with opc := 128 } : Msg).wf = false ∧ ({ msg0 with dst := 4096 } : Msg).wf = false ∧
    ({ msg0 with src := 4096 } : Msg).wf = false ∧ ({ msg0 with tag := 65536 } : Msg).wf = false ∧
    ({ msg0 with data := [0#8] } : Msg).wf = false := by decide
theorem test_wf_nvme : cmd0.wf = true ∧ ({ cmd0 with sq := 65536 } : NvmeCmd).wf = false ∧ ({ cmd0 with cid := 65536 } : NvmeCmd).wf = false ∧
    ({ cmd0 with nsid := 2 ^ 32 } : NvmeCmd).wf = false := by decide
theorem test_wf_fault : flt0.wf = true ∧ ({ flt0 with cls := 3 } : FaultReq).wf = false ∧ ({ flt0 with cause := 64 } : FaultReq).wf = false ∧
    ({ flt0 with master := 65536 } : FaultReq).wf = false ∧ ({ flt0 with source := 65536 } : FaultReq).wf = false := by decide
theorem test_wf_command : (Instr.registerWrite (.cham 32) 0#24 0 0#64).wf = false ∧ (Instr.rd 0 { msg0 with opc := 128 }).wf = false ∧
    (Instr.nvmRead 0 { cmd0 with sq := 65536 }).wf = false ∧ (Instr.faultReport { flt0 with cls := 3 }).wf = false := by decide
/-- Table 05-2: an instruction's word bears its class and operation; a word of Table 05-3 is no undefined one. -/
theorem test_wf_word : (Instr.vecAdd 0#12 (word 3 0) 0#64).wf = true ∧ (Instr.vecAdd 0#12 (word 3 1) 0#64).wf = false ∧
    (Instr.vecAdd 0#12 (word 4 0) 0#64).wf = false ∧ (Instr.undefinedOpcode 0#12 (word 11 0) 0#64).wf = true ∧
    (Instr.undefinedOpcode 0#12 (word 8 12) 0#64).wf = false := by decide

/-! ## Small states -/

/-- The registers of a context: S1 = 24, S2 = 3, its program counter at the first instruction of its code, in tier 2. -/
def arch0 : Arch := ⟨[(1, 24#64), (2, 3#64)], [], [], 0, 0, [], 0x0004000000001000#64⟩
/-- A context that runs on core 0, with 8 KiB of scratch and a code of 32 bytes. -/
def ctx0 : Ctx :=
  { part := 0, st := .running, arch := arch0, restart := arch0
    launch := ⟨0x0004000000000000#64, 0x0004000000002000#64, 0x0004000000001000#64, 0x0004000000001020#64, 0x0004000000001000#64, true, 3, 0#64⟩
    wait := .none, share := 1, shareNext := 1, core := 0, ran := true, base := 0, allot := 8192, clamps := 0, clampOvf := false
    firstClamp := none, flags := 0, eventOvf := false, retries := 0, restarts := 0, restarted := false, endStatus := none
    xfers := [], asyncs := [], mm := none, live := [], invalid := [], dirty := [], image := [], ckpt := []
    ckptPages := [], winSave := [], slots := [], beats := [], fenced := false, bad := [], saveObj := 0, codeObj := none, host := none
    acc := [], wraps := 0, accAt := [], windows := [], blockedAt := 0, serial := 0, ckptOn := false
    restartWin := [], woke := false, posting := false, accShown := [] }
/-- The device with one context on core 0, which runs. -/
def devOf (x : Ctx) : Dev :=
  ({ Dev.reset with ctxs := [(0, x)], cores := [(0, { Core.reset with resident := [0], cur := some 0 })] } : Dev).setFld
    (R.kuduCtrl 0) F.kuduCtrl_run 1
/-- The machine with that device, its main rails in regulation. -/
def stateOf (x : Ctx) : State := { State.reset with dev := devOf x, aon := { AonSt.reset with mainGood := true } }
/-- The same context with one tile of a multiplication not yet written. -/
def ctxMm : Ctx := { ctx0 with mm := some ⟨[(0, [⟨0, 7#8, 0xFF#8⟩])], 0, 1, 0, [(191, 0)], 0, false⟩ }
/-- The same context with a transfer that is not over. -/
def xfer0 : Xfer :=
  { id := 0, eng := 2, kind := .st, src := ⟨0#64, .fp32, 0, 0, 0, 0, 0, 0, 0, 0, 0, 0, 0, false⟩, dst := ⟨0#64, .fp32, 0, 0, 0, 0, 0, 0, 0, 0, 0, 0, 0, false⟩
    m0 := 0, m1 := 0, m2 := 0, m3 := 0, rate := 0, ss := 0, hasSs := true, ev := 0, eve := false, total := 0, granted := 0, landed := 0
    t0 := none, g := 0, late := false, clamped := false, inv := false, rcl := false, rindSrc := false, status := 0, noabort := false
    notify := none, pc := 0#64, snap := [], held := [], seen := [], toks := 0, tok := TokSend.none }
def ctxBusy : Ctx := { ctx0 with xfers := [xfer0] }

theorem word_fields : ∀ (c : Fin 16) (o : Fin 64), bits64 (word c.val o.val) 60 4 = c.val ∧ bits64 (word c.val o.val) 54 6 = o.val ∧
    bits64 (word c.val o.val) 50 3 = 0 ∧ bit64 (word c.val o.val) 49 = false ∧ iExt (word c.val o.val) = false := by decide
/-- The context of a small state executes any word that uses registers without an outstanding instruction. -/
theorem runs_at {x : Ctx} (hx : x = ctx0 ∨ x = ctxMm ∨ x = ctxBusy) (cls op : Nat) (hc : cls < 16) (ho : op < 64) (uses : List Nat) (hu : uses.all (fun r => r == 0 || !x.pendingRegs.contains r) = true) :
    (stateOf x).dev.Runs (0#12).toNat x (word cls op) cls op uses := by
  have f := word_fields ⟨cls, hc⟩ ⟨op, ho⟩
  have h : ∀ r ∈ uses, r = 0 ∨ r ∉ x.pendingRegs := by
    intro r hr; have := List.all_eq_true.mp hu r hr
    simpa using this
  rcases hx with rfl | rfl | rfl
  all_goals exact ⟨rfl, by decide, f.1, f.2.1, by decide, by simp [f.2.2.2.2], by rw [f.2.2.1, f.2.2.2.1]; decide, h⟩

/-! ## A witness for the hypotheses of each statement -/

theorem runs0 (cls op : Nat) (hc : cls < 16) (ho : op < 64) (uses : List Nat) : (stateOf ctx0).dev.Runs (0#12).toNat ctx0 (word cls op) cls op uses :=
  runs_at (.inl rfl) cls op hc ho uses (by simp [List.all_eq_true, show ctx0.pendingRegs = [] from rfl])

/-- ScalarForms, ControlFlow, ProgramEnd, Queries and the other instructions: each executes in the small state, whatever registers it uses. -/
theorem witness_instructions_run : ∀ (cls op : Nat) (uses : List Nat), cls < 16 → op < 64 →
    (stateOf ctx0).dev.Runs (0#12).toNat ctx0 (word cls op) cls op uses := fun cls op uses hc ho => runs0 cls op hc ho uses
/-- HardwiredRegisters: a register that is not hard-wired, beside another. -/
theorem witness_hardwired : (1 : Nat) ≠ 0 ∧ (2 : Nat) ≠ 1 := by decide
/-- ScalarForms: the last clause, a predicate field whose three bits are P0's. -/
theorem witness_p0 : 8 % 8 = 0 := rfl
/-- ProgramEnd, SYN.SIGNAL, SYN.FENCE: with and without work that is not over. -/
theorem witness_boundary :
    (stateOf ctx0).dev.boundaryReady 0 ctx0 = true ∧ (stateOf ctxBusy).dev.boundaryReady 0 ctxBusy = false ∧
    (stateOf ctxBusy).dev.Runs (0#12).toNat ctxBusy (word 0 1) 0 1 [] ∧ (stateOf ctxBusy).dev.Runs (0#12).toNat ctxBusy (word 2 7) 2 7 [0, 0] ∧
    (stateOf ctxBusy).dev.Runs (0#12).toNat ctxBusy (word 2 5) 2 5 [0, 0] ∧
    (let w := word 2 0 + 0x2000000000#64
     bit64 w 37 = true ∧ (stateOf ctxBusy).dev.Runs (0#12).toNat ctxBusy w 2 0 [eSa w]) ∧
    (let w := word 2 2 + 0x8000000000#64
     bits64 w 39 4 ≠ 0 ∧ (stateOf ctxBusy).dev.Runs (0#12).toNat ctxBusy w 2 2 []) :=
  ⟨by decide, by decide, runs_at (.inr (.inr rfl)) 0 1 (by decide) (by decide) _ (by decide), runs_at (.inr (.inr rfl)) 2 7 (by decide) (by decide) _ (by decide),
   runs_at (.inr (.inr rfl)) 2 5 (by decide) (by decide) _ (by decide),
   ⟨by decide, ⟨rfl, by decide, by decide, by decide, by decide, by decide, by decide, by decide⟩⟩,
   ⟨by decide, ⟨rfl, by decide, by decide, by decide, by decide, by decide, by decide, by decide⟩⟩⟩
/-- FalseGuardSkips: a guard of P1, which is 0; and one of P0. -/
theorem witness_false_guard :
    (let w := word 3 0 + 0x0004000000000000#64
     let i := Instr.vecAdd 0#12 w 0#64
     i.wf = true ∧ i.itnum = some (0#12, w, 3, 0) ∧ (stateOf ctx0).dev.ctx? (0#12).toNat = some ctx0 ∧ (stateOf ctx0).dev.execs ctx0 = true ∧
     Dev.inCode ctx0 ctx0.arch.pc = true ∧ (iExt w = true → Dev.inCode ctx0 (ctx0.arch.pc + 8#64) = true) ∧ ctx0.p (bits64 w 50 3) = bit64 w 49) ∧
    (bits64 (word 3 0) 50 3 = 0 ∧ bit64 (word 3 0) 49 = false) := by decide
/-- GatedInstructionsWait: a context that is absent, one that waits, one at the end of its code. -/
theorem witness_gated :
    (Instr.vecAdd 1#12 (word 3 0) 0#64).itnum = some (1#12, word 3 0, 3, 0) ∧ (stateOf ctx0).dev.ctx? (1#12).toNat = none ∧
    (let x := { ctx0 with wait := .boundary }
     (stateOf x).dev.ctx? 0 = some x ∧ (stateOf x).dev.execs x = false) ∧
    (let x := ctx0.setPc 0x0004000000001020#64
     (stateOf x).dev.execs x = true ∧ Dev.inCode x x.arch.pc = false) :=
  by decide
/-- EventsBoundariesAndEnds: counts at 0, 1, 65,535 and above; events that wait and are reached, in each place a context can be; the
end of the code; classes and operations just outside Table 05-3. -/
theorem witness_events :
    (∀ n ∈ [0, 1, 65535, 65536], n < 1 ∨ 65535 < n ∨ (1 ≤ n ∧ n ≤ 65535)) ∧
    (let x := { ctx0 with wait := .event 3 2, st := .residentBlocked, arch := { arch0 with ev := [(3, 2)] } }
     (stateOf x).dev.ctx? 0 = some x ∧ x.wait = .event 3 2 ∧ 2 ≤ x.evt 3 ∧ x.fenced = false ∧ ((stateOf x).dev.core x.core).cur = some 0) ∧
    (let x := { ctx0 with wait := .event 3 2, st := .residentBlocked, core := 1, arch := { arch0 with ev := [(3, 2)] } }
     (stateOf x).dev.ctx? 0 = some x ∧ 2 ≤ x.evt 3 ∧ ((stateOf x).dev.core x.core).cur ≠ some 0) ∧
    (let x := { ctx0 with wait := .event 3 2, st := .savedBlocked, arch := { arch0 with ev := [(3, 2)] } }
     (stateOf x).dev.ctx? 0 = some x ∧ 2 ≤ x.evt 3) ∧
    (let x := { ctx0 with wait := .event 3 2, arch := { arch0 with ev := [(3, 1)] } }
     (stateOf x).dev.ctx? 0 = some x ∧ x.evt 3 < 2) ∧
    (let x := { ctx0 with wait := .boundary }
     (stateOf x).dev.ctx? 0 = some x ∧ x.st = .running ∧ x.fenced = false ∧ (stateOf x).dev.boundaryReady 0 x = true ∧
     (stateOf x).dev.flag (R.partCfg x.part) F.partCfg_scrCkpt = true ∧ Memory.wf (stateOf x).dev.mem = true ∧
     ((stateOf x).dev.setFld (R.partCfg 0) F.partCfg_scrCkpt 0).flag (R.partCfg x.part) F.partCfg_scrCkpt = false) ∧
    (let x := ctx0.setPc 0x0004000000001020#64
     (stateOf x).dev.ctx? 0 = some x ∧ (stateOf x).dev.execs x = true ∧ (stateOf x).dev.boundaryReady 0 x = true ∧ Dev.inCode x x.arch.pc = false) ∧
    (let x := { ctx0.setPc 0x0004000000001020#64 with xfers := [xfer0] }
     (stateOf x).dev.ctx? 0 = some x ∧ (stateOf x).dev.execs x = true ∧ (stateOf x).dev.boundaryReady 0 x = false) ∧
    (∀ q ∈ [(11, 0), (15, 63), (0, 7), (1, 4), (2, 8), (3, 0x14), (3, 0x1F), (3, 0x26), (4, 1), (6, 1), (5, 5), (7, 5), (9, 5), (10, 5), (8, 13)],
      Dev.Runs (stateOf ctx0).dev (0#12).toNat ctx0 (word q.1 q.2) q.1 q.2 []) :=
  ⟨by decide, by decide, by decide, by decide, by decide, by decide, by decide, by decide, fun q hq => runs0 q.1 q.2
    ((by decide : ∀ q ∈ [(11, 0), (15, 63), (0, 7), (1, 4), (2, 8), (3, 0x14), (3, 0x1F), (3, 0x26), (4, 1), (6, 1), (5, 5), (7, 5), (9, 5), (10, 5), (8, 13)], q.1 < 16) q hq)
    ((by decide : ∀ q ∈ [(11, 0), (15, 63), (0, 7), (1, 4), (2, 8), (3, 0x14), (3, 0x1F), (3, 0x26), (4, 1), (6, 1), (5, 5), (7, 5), (9, 5), (10, 5), (8, 13)], q.2 < 64) q hq) _⟩
/-- EventsBoundariesAndEnds: an instruction at the last place of the code whose extension word would lie beyond it. -/
theorem witness_code_end :
    let x := ctx0.setPc 0x0004000000001018#64
    let s : State := { stateOf x with dev := { (stateOf x).dev with mem := Memory.write [] (2 * 2 ^ 49 + 0x1018) (leBytes 8 (word 3 0 + 0x0020000000000000#64).toNat) } }
    Dev.inCode x x.arch.pc = true ∧ Dev.inCode x (x.arch.pc + 8#64) = false ∧ addrNode x.arch.pc = s.dev.nodeId ∧
    iExt (BitVec.ofNat 64 (s.dev.lword (addrTier x.arch.pc) (addrOff x.arch.pc) 8)) = true := by decide
/-- AddressClamping: the last place of tier 2 and the first beyond it, tier code 6, another node. -/
theorem witness_clamping :
    let d := devOf ctx0
    let n := d.sizeFor (.ctx 0) true 2
    let a := mkAddr 0 2 (n - 1)
    let b := mkAddr 0 2 n
    let c := mkAddr 0 6 0
    (addrNode a = d.nodeId ∧ addrTier a ≤ 4 ∧ addrOff a < n) ∧ (addrNode b = d.nodeId ∧ addrTier b ≤ 4 ∧ n ≤ addrOff b) ∧
    (addrNode c = d.nodeId ∧ 6 ≤ addrTier c) ∧ (addrTier 0#64 = 0 ∧ addrNode (mkAddr 1 0 0) ≠ d.nodeId) ∧
    (d.clampSteps (.ctx 0) true id b 8).node = d.nodeId ∧ 128 ≤ d.sizeFor (.ctx 0) true (d.clampSteps (.ctx 0) true id b 8).tier ∧
    2 ∈ (d.clampSteps (.ctx 0) true id b 8).kinds := by decide


/-- Whether an instruction executes, as a test. -/
def runsB (d : Dev) (c : Nat) (x : Ctx) (w : W64) (cls op : Nat) (uses : List Nat) : Bool :=
  d.ctx? c == some x && d.execs x && bits64 w 60 4 == cls && bits64 w 54 6 == op && Dev.inCode x x.arch.pc &&
  (!iExt w || Dev.inCode x (x.arch.pc + 8#64)) && x.p (bits64 w 50 3) != bit64 w 49 && uses.all (fun r => r == 0 || !x.pendingRegs.contains r)
theorem runs_of {d : Dev} {c : Nat} {x : Ctx} {w : W64} {cls op : Nat} {uses : List Nat} (h : runsB d c x w cls op uses = true) :
    d.Runs c x w cls op uses := by
  simp only [runsB, Bool.and_eq_true, beq_iff_eq, bne_iff_ne, List.all_eq_true, Bool.or_eq_true, Bool.not_eq_true'] at h
  obtain ⟨⟨⟨⟨⟨⟨⟨h1, h2⟩, h3⟩, h4⟩, h5⟩, h6⟩, h7⟩, h8⟩ := h
  refine ⟨h1, h2, h3, h4, h5, fun e => ?_, h7, fun r hr => ?_⟩
  · rcases h6 with h | h
    · rw [e] at h; cases h
    · exact h
  · rcases h8 r hr with h | h
    · exact .inl h
    · exact .inr (by simpa using h)
/-- A context whose S1 holds an address. -/
def ctxAt (a : W64) : Ctx := { ctx0 with arch := { arch0 with sreg := [(1, a), (2, 3#64)] } }
/-- The small device as node 0 of a herd, with one ACTIVE link, 0, towards node 1. -/
def devHerd (x : Ctx) : Dev :=
  let d := ((devOf x).setFld R.addrNode F.addrNode_assigned 1).setFld (R.hlState 0) F.hlState_state 3
  { d with herd := { d.herd with routes := [(0, ⟨[], 0⟩), (1, ⟨[0], 1⟩)] } }
/-- The machine with that device. -/
def stateHerd (x : Ctx) : State := { stateOf x with dev := devHerd x }
/-- SYN words with SA = S1, SB = S2, SD = S2; STR words with SA = S1, SB = S2, SD = S2. -/
def synWord (op : Nat) : W64 := word 2 op + BitVec.ofNat 64 (2 ^ 32 + 2 * 2 ^ 27 + 2 * 2 ^ 22)
def strWord (op : Nat) : W64 := word 8 op + BitVec.ofNat 64 (2 * 2 ^ 44 + 2 ^ 39 + 2 * 2 ^ 34)

/-- ScalarLoads: the last word of the scratch, of tiers 1 to 3, and the first of another node; the instruction waits while a
multiplication is in progress. -/
theorem witness_loads :
    (let x := ctxAt 8184#64
     let s := stateOf x
     let a := x.s (eSa (synWord 4)) + simm (synWord 4) 16
     s.dev.Runs 0 x (synWord 4) 2 4 [1, 2] ∧ s.dev.Runs 0 x (strWord 4) 8 4 [1, 2] ∧ s.dev.Runs 0 x (strWord 6) 8 6 [1, 2] ∧
     addrNode a = s.dev.nodeId ∧ addrTier a = 0 ∧ addrOff a < x.allot ∧ x.mm = none ∧
     Dev.scrInvalid x (upFrom (addrOff a) 8) = false ∧ s.dev.scrBad 0 x (upFrom (addrOff a) 8) = false) ∧
    (let x := { ctxMm with arch := (ctxAt 8184#64).arch }
     (stateOf x).dev.Runs 0 x (synWord 4) 2 4 [1, 2] ∧ x.mm ≠ none) ∧
    (∀ t ∈ [1, 2, 3],
     let x := ctxAt (mkAddr 0 t ((devOf ctx0).tierSize t - 8))
     let s := stateOf x
     let a := x.s (eSa (synWord 4)) + simm (synWord 4) 16
     runsB s.dev 0 x (synWord 4) 2 4 [1, 2] = true ∧ addrNode a = s.dev.nodeId ∧ addrTier a = t ∧ addrOff a < s.dev.tierSize t ∧
     s.dev.lholds t (addrOff a) 8 false = [] ∧ (s.dev.lread t (addrOff a) 8).2 = false) ∧
    (∃ t d, let x := ctxAt (mkAddr 1 1 8)
     let s := stateHerd x
     let a := x.s (eSa (synWord 4)) + simm (synWord 4) 16
     s.dev.Runs 0 x (synWord 4) 2 4 [1, 2] ∧ addrNode a ≠ s.dev.nodeId ∧
     s.dev.request (x.core / 32) (some x.part) 1 (mkAddr (addrNode a) (addrTier a) (addrOff a - addrOff a % 16)) [] (.load 0 2 8 (addrOff a % 16)) = .sent t d) :=
  ⟨⟨runs_of (by decide), runs_of (by decide), runs_of (by decide), by decide⟩, ⟨runs_of (by decide), by decide⟩, by decide,
   ⟨_, _, runs_of (by decide), by decide, rfl⟩⟩
/-- ScalarStores: a word at either end of the scratch, at the end of tiers 1 and 2, a word of flash, of another node. -/
theorem witness_stores :
    (∀ lo ∈ [0, 8184],
     let x := ctxAt (BitVec.ofNat 64 lo)
     let s := stateOf x
     runsB s.dev 0 x (synWord 5) 2 5 [1, 2] = true ∧ runsB s.dev 0 x (strWord 5) 8 5 [1, 2] = true ∧ runsB s.dev 0 x (strWord 7) 8 7 [1, 2] = true ∧
     s.dev.boundaryReady 0 x = true ∧ lo + 8 ≤ x.allot ∧ x.mm = none ∧ s.dev.isRes 0 x = true) ∧
    (let x := { ctxMm with arch := (ctxAt 0#64).arch }
     (stateOf x).dev.Runs 0 x (strWord 5) 8 5 [1, 2] ∧ x.mm ≠ none) ∧
    (∀ t ∈ [1, 2],
     let x := ctxAt (mkAddr 0 t ((devOf ctx0).tierSize t - 8))
     let s := stateOf x
     let a := x.s (eSa (synWord 5)) + simm (synWord 5) 16
     runsB s.dev 0 x (synWord 5) 2 5 [1, 2] = true ∧ addrNode a = s.dev.nodeId ∧ addrTier a = t ∧ addrOff a < s.dev.tierSize t ∧
     s.dev.lholds t (addrOff a) 8 true = [] ∧ s.dev.lcanWrite t (addrOff a) 8 = true) ∧
    (let x := ctxAt (mkAddr 0 3 8)
     let s := stateOf x
     let a := x.s (eSa (synWord 5)) + simm (synWord 5) 16
     addrTier a = 3 ∧ addrOff a < s.dev.tierSize 1 ∧ s.dev.lholds 1 (addrOff a) 8 true = [] ∧ s.dev.lcanWrite 1 (addrOff a) 8 = true) ∧
    (∃ t d, let x := ctxAt (mkAddr 1 1 8)
     let s := stateHerd x
     let a := x.s (eSa (synWord 5)) + simm (synWord 5) 16
     s.dev.Runs 0 x (synWord 5) 2 5 [1, 2] ∧ addrNode a ≠ s.dev.nodeId ∧
     s.dev.sendBytes x (addrNode a) (addrTier a) (addrOff a) (leBytes 8 3) (.store 0 x.arch.pc) = .sent t d) :=
  ⟨by decide, ⟨runs_of (by decide), by decide⟩, by decide, by decide, ⟨_, _, runs_of (by decide), by decide, rfl⟩⟩
/-- WatchedWords: comparison codes 0, 5, 6 and 7; a context that waits for a word of scratch which compares true, or false, on its
core or off it; for a word of tiers 1 and 2. -/
theorem witness_words :
    (∀ k ∈ [0, 5, 6, 7],
     let x := ctxAt 8184#64
     let w := synWord 6 + BitVec.ofNat 64 k
     runsB (stateOf x).dev 0 x w 2 6 [1, 2] = true ∧ runsB (stateOf x).dev 0 x (synWord 7) 2 7 [1, 2] = true ∧
     Dev.scrInvalid x (upFrom 8184 8) = false ∧ (stateOf x).dev.scrBad 0 x (upFrom 8184 8) = false) ∧
    (∀ m ∈ [0, 1, 5], ∀ k ∈ [0, 1],
     let x := { ctx0 with wait := .word 8184#64 m 0#64, st := .residentBlocked, core := k }
     let s := stateOf x
     s.dev.ctx? 0 = some x ∧ addrOff 8184#64 + 8 ≤ x.allot ∧ x.mm = none ∧ x.fenced = false ∧ (k = 0 ↔ (s.dev.core x.core).cur = some 0) ∧
     waitHolds m (BitVec.ofNat 64 (leVal ((upFrom 8184 8).map (s.dev.scrByte 0 x)))) 0#64 = decide (m = 0)) ∧
    (∀ t ∈ [1, 2], ∀ m ∈ [0, 1], ∀ k ∈ [0, 1],
     let q := mkAddr 0 t ((devOf ctx0).tierSize t - 8)
     let x := { ctx0 with wait := .word q m 0#64, st := .residentBlocked, core := k }
     let s := stateOf x
     s.dev.ctx? 0 = some x ∧ addrTier q = t ∧ addrOff q < s.dev.tierSize t ∧ (k = 0 ↔ (s.dev.core x.core).cur = some 0) ∧
     s.dev.lholds t (addrOff q) 8 false = [] ∧ (s.dev.lread t (addrOff q) 8).2 = false ∧
     waitHolds m (BitVec.ofNat 64 (s.dev.lword t (addrOff q) 8)) 0#64 = decide (m = 0)) := by decide
/-- ComputeInstructions and MatrixMultiply: operands of no element, in scratch; an instruction that finds a multiplication in
progress. -/
theorem witness_compute :
    ctx0.mm = none ∧ ctxMm.mm ≠ none ∧ (stateOf ctx0).dev.isRes 0 ctx0 = true ∧
    (let d := (stateOf ctx0).dev
     ∀ k ∈ [d.eltWork 0 ctx0 (word 3 0x20), d.qntWork 0 ctx0 (word 5 0) false, d.whtWork 0 ctx0 (word 6 0) 0#64, d.histWork 0 ctx0 (word 7 0) 0#64,
       d.sldWork 0 ctx0 (word 5 3), d.sstWork 0 ctx0 (word 5 4), (d.mmWork 0 ctx0 (word 4 0) 0#64 (mmPick (d.mmShape 0 ctx0 (word 4 0) 0#64).1 0)).1],
       ∀ o ∈ k.reads, d.scrBad 0 ctx0 [o] = false) := by decide
/-- The run-time's firmware as a requester. -/
abbrev rt : Req := .unit 16 0
/-- A context whose TD0 is an FP32 tensor of one element at scratch place 0. -/
def ctxT : Ctx := { ctx0 with arch := { arch0 with td := [(0, [0#64, 0x100000001#64, 0x100000001#64, 0#64, 0#64, 0#64, 0x10#64, 0#64])] } }
/-- MatrixMultiply: no sum at all, and one of one element; a multiplication with a tile to write on a core that runs. -/
theorem witness_multiply :
    (∀ x ∈ [ctx0, ctxT], let s := stateOf x
     let w := word 4 0
     let k := s.dev.mmWork 0 x w 0#64 (mmPick (s.dev.mmShape 0 x w 0#64).1 (s.dev.fld (R.kuduCtrl x.core) F.kuduCtrl_packMax))
     runsB s.dev 0 x w 4 0 [] = true ∧ x.mm = none ∧ s.dev.isRes 0 x = true ∧ ∀ o ∈ k.1.reads, s.dev.scrBad 0 x [o] = false) ∧
    ((stateOf ctx0).dev.mmShape 0 ctx0 (word 4 0) 0#64).1.k = 0 ∧ ((stateOf ctxT).dev.mmShape 0 ctxT (word 4 0) 0#64).1.k = 1 ∧
    ((stateOf ctxT).dev.mmShape 0 ctxT (word 4 0) 0#64).1.none = false ∧
    (let s := stateOf ctxMm
     runsB s.dev 0 ctxMm (word 4 0) 4 0 [] = true ∧ ctxMm.mm ≠ none ∧ s.dev.ctx? 0 = some ctxMm ∧ (s.dev.core 0).cur = some 0 ∧
     s.dev.isFenced (unitId 1 0) = false ∧ s.dev.flag (R.kuduCtrl 0) F.kuduCtrl_run = true ∧ s.dev.isRes 0 ctxMm = true) := by decide
/-- A context with n transfers on engine e. -/
def ctxXf (n e : Nat) : Ctx := { ctxT with xfers := (List.range n).map (fun i => { xfer0 with id := i, eng := e }), serial := n }
/-- StreamsIssue: five and six transfers on the engine, FAB.PUT plain and as a release. -/
theorem witness_streams :
    (∀ q ∈ [(0, 0), (1, 2), (2, 3)], ∀ n ∈ [5, 6], runsB (stateOf (ctxXf n q.2)).dev 0 (ctxXf n q.2) (word 8 q.1) 8 q.1 [0] = true ∧
      ((ctxXf n q.2).xfers.filter (fun t => t.eng == q.2)).length = n) ∧
    (∀ n ∈ [5, 6], runsB (stateOf (ctxXf n 2)).dev 0 (ctxXf n 2) (word 9 4) 9 4 [0, 0] = true ∧ bit64 (word 9 4) 8 = false) ∧
    (let w := word 9 4 + 256#64
     runsB (stateOf ctxT).dev 0 ctxT w 9 4 [0, 0] = true ∧ bit64 w 8 = true ∧ (stateOf ctxT).dev.boundaryReady 0 ctxT = true) := by decide
/-- STR.TD words with the register S1. -/
def tdWord (op : Nat) : W64 := word 8 op + 0x4000000000#64
/-- Descriptors: the first and last 64 bytes of a scratch; one word of a descriptor beside its neighbour. -/
theorem witness_descriptors :
    (∀ lo ∈ [0, 8128], let x := { ctxT with arch := { ctxT.arch with sreg := [(1, BitVec.ofNat 64 lo)] } }
     let s := stateOf x
     let at0 := x.s (bits64 (tdWord 8) 38 5) + simm (tdWord 8) 35
     (∀ op ∈ [8, 9, 0xA, 0xB, 0xC], runsB s.dev 0 x (tdWord op) 8 op [1] = true) ∧ addrNode at0 = s.dev.nodeId ∧ addrTier at0 = 0 ∧ addrOff at0 = lo ∧
     lo + 64 ≤ x.allot ∧ x.mm = none ∧ Dev.scrInvalid x (upFrom lo 64) = false ∧ s.dev.scrBad 0 x (upFrom lo 64) = false ∧ s.dev.isRes 0 x = true ∧
     (x.td 0).length = 8) ∧
    (∀ i, i < 8 → (ctxT.td 0).getD i 0#64 &&& tdMask i = (ctxT.td 0).getD i 0#64) := by decide
/-- AtomicOnScratch: the last word of the scratch; as a release before which a transfer is not over. -/
theorem witness_atomic :
    (let x := ctxAt 8184#64
     let s := stateOf x
     let w := word 9 0 + BitVec.ofNat 64 (2 ^ 22 + 2 * 2 ^ 17 + 2 * 2 ^ 37 + 2 * 2 ^ 32)
     runsB s.dev 0 x w 9 0 [fSa w, fSb w, fSd w, fSs w] = true ∧ x.s (fSa w) = 8184#64 ∧ bit64 w 8 = false ∧ addrNode 8184#64 = s.dev.nodeId ∧
     addrTier 8184#64 = 0 ∧ addrOff 8184#64 + 8 ≤ x.allot ∧ x.mm = none ∧ s.dev.isRes 0 x = true ∧ Dev.scrInvalid x (upFrom 8184 8) = false ∧
     s.dev.scrBad 0 x (upFrom 8184 8) = false) ∧
    (let w := word 9 0 + 256#64
     runsB (stateOf ctxBusy).dev 0 ctxBusy w 9 0 [0] = true ∧ bit64 w 8 = true ∧ (stateOf ctxBusy).dev.boundaryReady 0 ctxBusy = false) := by decide
/-- The small device with expert 0 placed (a table in tier 1), and an inbox of size bytes for context 0. -/
def devTok (x : Ctx) (size : Option Nat) : Dev :=
  let d := (devOf x).setPair R.dirExptLo (mkAddr 0 1 0x10000).toNat
  { d with
    mem := [(2 ^ 49 + 0x10000, 1#8)]
    herd := { d.herd with inboxes := match size with | some n => [(0, ⟨0, n, 0, []⟩)] | none => [] } }
def stateTok (x : Ctx) (size : Option Nat) : State := { stateOf x with dev := devTok x size }
/-- TokenInstructions: no room for an inbox, an inbox without and with room, a release that waits, SE2 full. -/
theorem witness_token_sends :
    (let s := stateTok ctxT none
     let o := s.dev.tokOpnds 0 ctxT (word 9 1)
     runsB s.dev 0 ctxT (word 9 1) 9 1 [0] = true ∧ bit64 (word 9 1) 8 = false ∧ ctxT.mm = none ∧
     s.dev.scrBad 0 ctxT (Dev.hdrScr o) = false ∧ ((s.dev.noteOpnds 0 [o.1, o.2]).needInbox 0 0).1 ≠ 0) ∧
    (∀ n ∈ [0, 4096], let s := stateTok ctxT (some n)
     let o := s.dev.tokOpnds 0 ctxT (word 9 1)
     let room := Dev.tokCols o * (16 + min (o.2.t.rowBytes o.2.t.d0) (16 * (s.dev.groupOf 0).units))
     s.dev.sendGroup (s.dev.hdrExperts 0 ctxT o) = some 0 ∧ Dev.tokCols o = 1 ∧ Tab.find s.dev.herd.inboxes 0 = some ⟨0, n, 0, []⟩ ∧
     (n < room ↔ n = 0)) ∧
    (let w := word 9 1 + 256#64
     runsB (stateOf ctxBusy).dev 0 ctxBusy w 9 1 [0] = true ∧ bit64 w 8 = true ∧ (stateOf ctxBusy).dev.boundaryReady 0 ctxBusy = false) ∧
    (runsB (stateOf (ctxXf 6 2)).dev 0 (ctxXf 6 2) (word 9 1) 9 1 [0] = true ∧ ¬ ((ctxXf 6 2).xfers.filter (fun t => t.eng == 2)).length < 6) := by decide
/-- The same, its inbox with what has come back, expert 0 bound here, with the tokens and the rounds of its group. -/
def stateGat (x : Ctx) (back : List (List Byte × List Byte × Nat × Bool)) (out : List TokOut) (toks : List TokIn) (rounds : List Round) : State :=
  let s := stateTok x (some 64)
  { s with dev := { s.dev with herd := { s.dev.herd with
      inboxes := [(0, ⟨0, 64, 20, back⟩)], tokOut := out, tokIn := toks, rounds := rounds, bound := [(0, ⟨0, 0, 0⟩)] } } }
def tok0 : TokIn := ⟨0, 0, 0, 0, 0, 5, 0, [], false, false⟩
def out0 : TokOut := ⟨0, 0, 0, 0, 0, 0, 4, 1⟩
/-- TokenInstructions: gathers of an expert that is bound elsewhere, of its tokens, of replies; a gather that waits, and one that
can end; a reply. -/
theorem witness_token_gathers :
    (let s := stateTok ctxT none
     let o := s.dev.tokOpnds 0 ctxT (word 9 2)
     let u := (((s.dev.noteOpnds 0 [o.1, o.2]).clampC 0 (b2n (Dev.bigExpert ctxT (word 9 2)))).needInbox 0 0).2
     runsB s.dev 0 ctxT (word 9 2) 9 2 [0, 0] = true ∧ bit64 (word 9 2) 0 = false ∧
     ({ u with herd := { u.herd with bound := [(0, ⟨1, 0, 0⟩)] } } : Dev).gatherBound 0 0 = (false, { u with herd := { u.herd with bound := [(0, ⟨1, 0, 0⟩)] } }) ∧
     (let w := word 9 2 + 1#64
      runsB s.dev 0 ctxT w 9 2 [0, 0] = true ∧ bit64 w 0 = true ∧ Tab.find u.herd.inboxes 0 = none ∧ (u.ctx? 0).isSome = true)) ∧
    (let s := stateTok ctxT (some 64)
     Tab.find s.dev.herd.inboxes 0 = some ⟨0, 64, 0, []⟩ ∧ s.dev.herd.tokOut.any (·.ctx == 0) = false) ∧
    -- one column: it has come back; nothing has and no token is out
    (∀ q ∈ [([(List.replicate 16 0#8, [], 4, false)], [out0]), ([], [])],
     let s := stateGat ctxT q.1 q.2 [] []
     let w := word 9 2 + 1#64
     runsB s.dev 0 ctxT w 9 2 [0, 0] = true ∧ s.dev.isRes 0 ctxT = true ∧ Tab.find s.dev.herd.inboxes 0 = some ⟨0, 64, 20, q.1⟩ ∧
     Dev.tokCols (s.dev.tokOpnds 0 ctxT w) = 1 ∧ (1 ≤ q.1.length ∨ s.dev.herd.tokOut.any (·.ctx == 0) = false)) ∧
    -- a token of round 0; no token, and the round is closed
    (∀ q ∈ [([tok0], []), ([tok0], [(⟨0, 0, 1, true, []⟩ : Round)])],
     let s := stateGat ctxT [] [] q.1 q.2
     runsB s.dev 0 ctxT (word 9 2) 9 2 [0, 0] = true ∧ ((s.dev.expertOf 0).map (·.group)) = some 0 ∧ s.dev.gatherRound 0 0 = some 0 ∧
     (s.dev.waiting 0).any (·.poison) = false ∧ 1 ≤ ((s.dev.waiting 0).filter (·.round == 0)).length) ∧
    (stateGat ctxT [] [] [] [⟨0, 0, 1, true, []⟩]).dev.roundClosed 0 0 = true ∧
    (∀ q ∈ [(true, CtxSt.residentBlocked, 0), (true, .residentBlocked, 1), (true, .running, 0), (false, .running, 0)],
     let x := { ctxT with wait := .tokens 1#64 0 none, st := q.2.1, core := q.2.2 }
     let s := stateTok x (some 64)
     let s : State := if q.1 then s else { s with dev := { s.dev with herd := { s.dev.herd with tokOut := [out0] } } }
     s.dev.ctx? 0 = some x ∧ s.dev.gatherReady 0 x 1#64 none = q.1 ∧ x.fenced = false ∧ x.mm = none ∧
     ((s.dev.core x.core).cur = some 0 ↔ q.2.2 = 0) ∧ (q.2.2 = 0 → s.dev.isRes 0 x = true)) ∧
    (let s := stateTok ctxT (some 64)
     let o := s.dev.tokOpnds 0 ctxT (word 9 3)
     runsB s.dev 0 ctxT (word 9 3) 9 3 [0] = true ∧ Dev.tokCols o = 1) := by decide
/-- A token send of one column of 20 bytes, of which the first n have come. -/
def xferTok (n : Nat) (held : Tab Byte) : Xfer :=
  let z : Tensor := ⟨0#64, .int8, 16, 1, 1, 1, 0, 0, 0, 0, 0, 0, 1, false⟩
  { xfer0 with
    eng := 2, kind := .send, src := { z with base := 64#64, d0 := 4 }, dst := z, total := 20, granted := 20, landed := n, held := held, tok := ⟨some 0, 0, 256, false⟩ }
/-- TokenInstructions: the one column of a transfer is whole; it has gone. -/
theorem witness_token_columns :
    (let t := xferTok 20 ((List.range 20).map (fun j => (j, 0#8)))
     let x := { ctxT with xfers := [t] }
     let d := (stateTok x (some 64)).dev
     d.ctx? 0 = some x ∧ t.streams = false ∧ Dev.wholeCol t 0 = some (List.replicate 16 0#8, List.replicate 4 0#8) ∧ t.total = 16 + t.src.rowBytes t.src.d0 ∧
     (d.tokGo 0 t (List.replicate 16 0#8) (List.replicate 4 0#8)).1 = 0) ∧
    (let t := xferTok 20 []
     let x := { ctxT with xfers := [t] }
     let d := (stateTok x (some 64)).dev
     t.total ≤ t.landed ∧ d.isRes 0 x = true ∧ t.tok.closed = false ∧ (d.freeTag (x.core / 32)).isSome = true ∧ t.tok.group = some 0 ∧ d.tokWake = d) := by
  decide
/-- ObjectMoveIssue: an address in no object, and one in an object of the partition; destination tiers 1 and 0. -/
def obj0 : Obj := ⟨0, .plain, 1, 0, 4096, 0, 0, 0, false, 0, 0#64, 0, false, [], none, none⟩
def devObj (x : Ctx) : Dev := { devOf x with tier := { TierSt.reset with objs := [(0, obj0)], nextId := 1 } }
theorem witness_object_move :
    ctx0.asyncs = [] ∧ (∀ t ∈ [0, 1], let w := word 8 3 + BitVec.ofNat 64 (2 ^ 22 + t)
     runsB (devOf (ctxAt 0#64)) 0 (ctxAt 0#64) w 8 3 [fSa w, fSd w, fSs w] = true ∧ (devOf (ctxAt 0#64)).findObj 0 ((ctxAt 0#64).s (fSa w)) = none ∧
     (let x := ctxAt (mkAddr 0 1 4095)
      runsB (devObj x) 0 x w 8 3 [fSa w, fSd w, fSs w] = true ∧ (devObj x).findObj 0 (x.s (fSa w)) = some 0)) := by decide
/-- A collection without vectors. -/
def coll0 : Coll := ⟨0, false, 4, [], 0, [], 0, 5, [], 0, [⟨0, []⟩], none, false, [], false, 0⟩
/-- SearchInstructions: each with and without matrix work in progress; a collection that is there and one that is not; a list of no ID. -/
theorem witness_search :
    (∀ op, op ≤ 4 → runsB (devOf ctx0) 0 ctx0 (word 10 op) 10 op [0, 0, 0, 0] = true ∧ runsB (devOf ctxMm) 0 ctxMm (word 10 op) 10 op [0, 0, 0, 0] = true) ∧
    (devOf ctx0).collFor 0 0 = none ∧ ({ devOf ctx0 with search := { SearchSt.reset with colls := [(0, coll0)] } } : Dev).collFor 0 0 = some coll0 ∧
    (let x := { ctx0 with arch := { arch0 with td := [(0, [0#64, 1#64, 0x100000001#64, 0#64, 0#64, 0#64, 0x2B#64, 0#64])] } }
     let q := (devOf x).operandOf 0 Dev.stay (tensorRead (x.td (fTdx (word 10 3))) .score)
     runsB (devOf x) 0 x (word 10 3) 10 3 [0, 0] = true ∧ x.mm = none ∧ q.t.d1 * q.t.d2 * q.t.d3 = 0) ∧
    (let x := { ctx0 with arch := { arch0 with td := [(0, [0#64, 0x100000001#64, 0x100000001#64, 0#64, 0#64, 0#64, 0x2B#64, 0#64])] } }
     let d := devOf x
     let q := d.operandOf 0 Dev.stay (tensorRead (x.td (fTdx (word 10 3))) .score)
     let o := q.t.at' (q.t.rowOff 0 0 0)
     runsB d 0 x (word 10 2) 10 2 [0, 0] = true ∧ runsB d 0 x (word 10 3) 10 3 [0, 0] = true ∧ addrTier q.t.base = 0 ∧
     q.t.d0 = 1 ∧ q.t.d1 * q.t.d2 * q.t.d3 = 1 ∧ o < 2 ^ 49 ∧ Dev.scrInvalid x (upFrom o 8) = false ∧ d.scrBad 0 x (upFrom o 8) = false ∧
     addrTier (d.operandOf 0 Dev.stay (tensorAs (x.td 0) .int8)).t.base = 0) ∧
    ctx0.mm = none ∧ ctxMm.mm ≠ none := by
  refine ⟨?_, by decide⟩
  intro op h
  have : op = 0 ∨ op = 1 ∨ op = 2 ∨ op = 3 ∨ op = 4 := by omega
  rcases this with rfl | rfl | rfl | rfl | rfl <;> decide
/-- A load of eight bytes from HBM into scratch, of which g are granted and n have landed. -/
def xferLd (g n : Nat) : Xfer :=
  let t : Tensor := ⟨mkAddr 0 1 0, .int8, 8, 1, 1, 1, 0, 0, 0, 0, 0, 0, 1, false⟩
  { xfer0 with eng := 0, kind := .ld, src := t, dst := { t with base := 0#64 }, m0 := 8, m1 := 1, m2 := 1, m3 := 1, total := 8, granted := g, landed := n }
/-- The small device with beats in flight on core 0. -/
def devBeats (x : Ctx) (l : List Beat) : Dev := (devOf x).modCore 0 (fun y => { y with inflight := l })
/-- StreamEngines: a core without a context; a beat to grant; beats whose turn it is and is not; transfers that are over with a status
register and with an event, and one that is not over. -/
theorem witness_stream_engines :
    (Dev.reset.core 0).cur = none ∧
    (let x := { ctx0 with xfers := [xferLd 0 0] }
     let d := devOf x
     (d.core 0).cur = some 0 ∧ d.ctx? 0 = some x ∧ d.isFenced (unitId 1 0) = false ∧ d.seLive 0 x 0 = some (xferLd 0 0) ∧
     (∀ f, f < 4 → f ≠ 0 → d.seLive 0 x f = none) ∧ d.seReady 0 x (xferLd 0 0) = true ∧ (∀ u ∈ x.xfers, u.id = (xferLd 0 0).id → u = xferLd 0 0) ∧
     addrNode (xferLd 0 0).far.base = d.nodeId) ∧
    (let x := { ctx0 with xfers := [xferLd 8 0] }
     let b : Beat := ⟨0, 0, 0, 0, 8, [], false, []⟩
     let d := devBeats x [b]
     (d.core 0).inflight[0]? = some b ∧ d.ctx? b.ctx = some x ∧ x.xfers.find? (·.id == b.xid) = some (xferLd 8 0) ∧ Dev.beatMay (d.core 0) 0 b = true ∧
     (xferLd 8 0).isStore = false ∧ x.mm = none ∧ d.farAway (xferLd 8 0) = false ∧ addrTier (xferLd 8 0).src.base = 1 ∧
     (∀ u ∈ x.xfers, u.streams = true) ∧
     (∀ r ∈ d.farRuns (xferLd 8 0) (Dev.reads (d.farOff (xferLd 8 0)) 8 (xferLd 8 0) b.lo b.n), d.lholds 1 r.2.1 r.2.2 false = [] ∧ (d.lread 1 r.2.1 r.2.2).2 = false) ∧
     Dev.beatMay (d.core 0) 0 { b with tags := [1] } = false) ∧
    (∀ q ∈ [(true, false), (false, true)],
     let t := { xferLd 8 8 with hasSs := q.1, eve := q.2 }
     let x := { ctx0 with xfers := [t] }
     let d := devOf x
     d.ctx? 0 = some x ∧ x.xfers.find? (·.eng == 0) = some t ∧ t.streams = true ∧ t.tok.closed = true ∧ d.isRes 0 x = true ∧ t.total ≤ t.landed ∧
     d.sendPending 0 t.id = false ∧ d.notifyOut 0 t.id = false ∧ t.notify = none ∧ t.status = 0 ∧ ∀ v n, x.wait ≠ .event v n) ∧
    ((xferLd 8 7).streams = true ∧ (xferLd 8 7).landed < (xferLd 8 7).total) ∧ Dev.reset.busAns rt (R.seCtrl 0 0) true = .ok := by
  refine ⟨by decide, by decide, by decide, ?_, by decide, by decide⟩
  intro q hq
  simp only [List.mem_cons, List.not_mem_nil, or_false] at hq
  rcases hq with rfl | rfl <;> exact ⟨by decide, by decide, by decide, by decide, by decide, by decide, by decide, by decide, by decide, by decide, fun v n h => by cases h⟩
/-- ContextEndsAndRestarts: a task without and with an abort pending; a restart, with and without a retry left; an ended context whose
record may be written, and one whose transfers are not over; a register write that asks for the end. -/
theorem witness_ends :
    (ctx0.wait ≠ .restart ∧ ctx0.st ≠ .ending ∧ (devOf ctx0).ctx? 0 = some ctx0) ∧
    (∀ n ∈ [2, 3], let x := { ctx0 with wait := .restart, retries := n }
     (devOf x).ctx? 0 = some x ∧ (devOf x).ctxCancelled 0 = false ∧ x.fenced = false ∧ (x.retries < x.launch.retryLimit ↔ n = 2)) ∧
    (let x := { ctx0 with st := .ending, endStatus := some 0x14 }
     let d := devOf x
     d.ctx? 0 = some x ∧ d.quiet 0 x = true ∧ x.host = none ∧ x.codeObj = none ∧ Tab.find d.herd.inboxes 0 = none ∧ x.launch.notify = 0#64 ∧
     x.posting = false ∧ d.posts = [] ∧ d.herd.outs = [] ∧ d.herd.dir = [] ∧ d.tier.forwards = [] ∧ addrNode x.launch.compl = d.nodeId ∧
     addrTier x.launch.compl = 2 ∧ x.launch.compl.toNat % 32 = 0 ∧
     (let word0 := BitVec.ofNat 64 (0x14 * 2 ^ 16 + 2 ^ 63)
      let d1 := (d.lwrite 2 (addrOff x.launch.compl + 8) (List.replicate 24 0#8)).lwrite 2 (addrOff x.launch.compl) (leBytes 8 word0.toNat)
      let d2 := d1.modCore x.core (fun y => { y with resident := y.resident.filter (· ≠ 0), cur := if y.cur = some 0 then none else y.cur })
      Tab.find (Dev.freeObj { d2 with ctxs := Tab.del d2.ctxs 0 } x.saveObj).herd.inboxes 0 = none)) ∧
    (let x := { ctxBusy with st := .ending, endStatus := some 0x14 }; (devOf x).quiet 0 x = false) ∧
    (devOf ctx0).busAns rt R.partCtxCtrl true = .ok := by decide
/-- A device whose core 0 has an array in a given condition. -/
def devArr (x : Ctx) (a : Arr) : Dev := (devOf x).setArr 0 0 a
/-- ArraysAndCores: an array idle, working, ramping; a core that is stopping. -/
theorem witness_arrays :
    ((devOf ctx0).arr 0 0).gap = true ∧ (devOf ctx0).isFenced (unitId 1 0) = false ∧ ((devOf ctx0).arr 0 0).ramp = 0 ∧ ((devOf ctx0).arr 0 0).density = 0 ∧
    (let a := (devArr ctx0 ⟨64, false, 0, 0, 0, true, none⟩).arr 0 0
     a.gap = false ∧ (devArr ctx0 ⟨64, false, 0, 0, 0, true, none⟩).busyArr 0 0 = false) ∧
    (let a := (devArr ctx0 ⟨64, true, 0, 0, 0, true, none⟩).arr 0 0; a.gap = true ∧ a.ramp ≠ 1 ∧ a.density ≠ 0 ∧ a.dummyEn = true) ∧
    ((devArr ctx0 ⟨1, true, 1, 0, 0, true, none⟩).arr 0 0).ramp = 1 ∧ ((devArr ctx0 ⟨63, false, 2, 0, 0, true, none⟩).arr 0 0).ramp = 2 ∧
    (let d := (devArr ctxMm ⟨63, true, 0, 0, 0, true, none⟩).setFld (R.kuduStatus 0) F.kuduStatus_stopped 0
     (d.arr 0 0).gap = true ∧ (d.arr 0 0).density ≠ 64 ∧ d.busyArr 0 0 = true ∧ d.isFenced (unitId 1 0) = false) ∧
    (((devOf ctx0).modCore 0 (fun y => { y with stopping := true })).core 0).stopping = true ∧ ((devOf ctx0).core 0).stopping = false ∧
    (devOf ctx0).busAns rt (R.kuduCtrl 0) true = .ok ∧
    (∀ e ∈ [0, 4095], ∀ hi : Bool, (devOf ctx0).busAns rt (R.kuduCtrl 0 + 0x8000 + 8 * (BitVec.ofNat 12 e).toNat + (if hi then 4 else 0)) true = .ok) ∧
    (devOf ctx0).flag (R.kuduStatus 0) F.kuduStatus_stopped = true ∧ (devOf ctx0).curCtx 0 = some (0, ctx0) ∧ Dev.reset.curCtx 0 = none ∧
    ((devOf ctx0).setFld (R.kuduStatus 0) F.kuduStatus_stopped 0).flag (R.kuduStatus 0) F.kuduStatus_stopped = false := by decide
/-- A launch descriptor of zeros: partition 0, no code. -/
def lreq0 : LaunchReq := ⟨List.replicate 16 0#64, 0, none, 0⟩
/-- A device whose tier 1 holds a code header at 0x10000 (magic, the version of CAP_VERSION, a code of 8 bytes), with partition 0 enabled,
1,000 MiB of tier 2 its quota. -/
def devLaunch : Dev :=
  let d := (((devOf ctx0).setFld (R.partCfg 0) F.partCfg_enable 1).setFld (R.partKuduOwn 0) F.partKuduOwn_effective 0).setReg
    (R.tierQuota 0 (Dev.tierSlot 2)) 1000#32
  { d with mem := Memory.write [] (2 ^ 49 + 0x10000) (leBytes 4 0x314E5449 ++ leBytes 4 (256 * bitsOf (d.reg R.capVersion).toNat 8 8) ++ leBytes 8 64 ++ leBytes 8 8) }
def lreq1 : LaunchReq := ⟨mkAddr 0 1 0x10000 :: List.replicate 15 0#64, 0, none, 0⟩
/-- Launch queues with 63 and 64 descriptors, and one at the head. -/
theorem witness_launches :
    (let a := mkAddr 0 1 0
     let z := (devOf ctx0).clampSteps rt false Dev.stay a 128
     (devOf ctx0).busAns rt R.partLaunchLo true = .ok ∧ (devOf ctx0).isHere z = true ∧ (devOf ctx0).lready z.tier z.off 128 false = true) ∧
    (∀ n ∈ [63, 64], let d : Dev := { devOf ctx0 with launchQ := [(0, List.replicate n lreq0)] }
     (n = 63 ↔ (Tab.getD d.launchQ 0 []).length < 64)) ∧
    (devOf ctx0).launchCheck 0 ((devOf ctx0).launchArgs lreq0) = 0x13 ∧
    ((devOf ctx0).launchArgs lreq0).headerOk = false ∧
    (let g := devLaunch.launchArgs lreq1
     devLaunch.launchCheck 0 g = 0 ∧ devLaunch.tier.objs.length < 262144 ∧ devLaunch.isHere g.code = true ∧
     devLaunch.lready g.code.tier g.code.off 64 false = true ∧
     ({ devLaunch with herd := { devLaunch.herd with dir := [(memKey 1 0x10000, ⟨2, false, [1], [], 0, false, [], none, [], false, 0, false⟩)] } } : Dev).lready
       g.code.tier g.code.off 64 false = false ∧
     (match devLaunch.alloc 0 2 ((104 * 1024 + g.allot + 65535) / 65536 * 65536) 0 with | (.got _, e) => decide (e.ctxs.length < 4096) | _ => false) = true) ∧ Tab.getD (devOf ctx0).launchQ 0 [] = [] ∧
    (∀ b ∈ [true, false],
     let d : Dev := { devLaunch with herd := { devLaunch.herd with fetched := if b then [⟨none, 0, mkAddr 5 1 0x10000, []⟩] else [] } }
     let g := d.launchArgs ⟨mkAddr 5 1 0x10000 :: List.replicate 15 0#64, 0, none, 0⟩
     d.isHere g.code = false ∧ d.hasFetched none 0 (Dev.placeAddr g.code) 64 = b) := by decide
/-- OwnersAndPartitions: the register accesses; an owner that waits, with a core that holds no context. -/
theorem witness_owners :
    (∀ a ∈ [R.partKuduOwn 0, R.partKuduOwn 63, R.partChamOwn 0, R.partChamOwn 31, R.partCfg 0, R.partCfg 15, R.partOryx 0, R.partOryx 15, R.chamCtrl 0,
      R.chamCtrl 31], (devOf ctx0).busAns rt a true = .ok) ∧
    ((devOf ctx0).setFld (R.partKuduOwn 1) F.partKuduOwn_pending 1).flag (R.partKuduOwn 1) F.partKuduOwn_pending = true ∧
    ((devOf ctx0).core 1).resident = [] ∧ (devOf ctx0).flag (R.partKuduOwn 0) F.partKuduOwn_pending = false ∧ ((devOf ctx0).core 0).resident ≠ [] := by decide
/-- A device whose partition 0 owns cores 0 and 1, with more contexts than the one that runs. -/
def devSched (x : Ctx) (l : List (Nat × Ctx)) : Dev :=
  let d := ((devOf x).setFld (R.partKuduOwn 0) F.partKuduOwn_effective 0).setFld (R.partKuduOwn 1) F.partKuduOwn_effective 0
  { d with ctxs := (0, x) :: l }
/-- Scheduling: a slice end that places one context; a switch; a steal; a swap of a core whose contexts all wait; a context that may be
taken off, restored, restarted. -/
theorem witness_scheduling :
    ((devSched ctx0 []).placeCores 1 = [] ∧ (devSched ctx0 []).placeCores 0 = [0, 1] ∧ Tab.risesFrom 0 (devSched ctx0 []).ctxs = true) ∧
    (let e := (devSched ctx0 []).sliceCosts 0
     ∃ y, (e.byDeficit ((e.ctxsOf 0).filter (fun y => Dev.runnable y.2))).take (e.coresOf 0).length = [(0, y)] ∧ e.ctx? 0 = some y ∧
      e.bestCore 0 y (e.placeCores 0) = some 0) ∧
    (let z := { ctx0 with st := .residentRunnable, base := 8192 }
     let d := (devSched ctx0 [(1, z)]).modCore 0 (fun y => { y with resident := [0, 1] })
     d.ctx? 1 = some z ∧ 1 ∈ (d.core 0).resident ∧ (d.core 0).cur ≠ some 1 ∧ z.st = .residentRunnable ∧ d.isFenced (unitId 1 0) = false ∧ (d.core 0).cur = some 0) ∧
    (let z := { ctx0 with st := .savedRunnable, ran := false }
     let d := devSched ctx0 [(1, z)]
     d.byDeficit (d.stealable 0) = [] ∧ d.byDeficit (d.stealable 1) = [(1, z)] ∧ ((d.placeOn 1 1 []).core 1).cur = some 1 ∧
     d.ctx? 1 = some z ∧ 1 ∈ d.placeCores z.part ∧ d.hasRoom 1 z.allot = true ∧ z.slots = [] ∧ (d.core 1).cur = none ∧ (d.core 0).cur ≠ none ∧
     0 ∈ d.placeCores z.part ∧ d.hasRoom 0 z.allot = true) ∧
    (let x := { ctx0 with st := .residentBlocked, wait := .event 0 1 }
     let z := { ctx0 with st := .savedRunnable, core := 40 }
     let d := devSched x [(1, z)]
     (d.core 0).resident ≠ [] ∧ 0 ∈ d.placeCores (d.kuduOwner 0) ∧ (∀ o ∈ (d.core 0).resident, ∃ y, d.ctx? o = some y ∧ y.st = .residentBlocked) ∧
     d.byDeficit ((d.ctxsOf (d.kuduOwner 0)).filter (fun q => q.2.st = .savedRunnable &&
       !(d.placeCores (d.kuduOwner 0)).any (fun j => (d.stealable j).any (fun t => t.1 == q.1)))) = [(1, z)]) ∧
    ((devSched ctx0 []).isRes 0 ctx0 = true ∧ ctx0.st ≠ .ending ∧ ctx0.fenced = false ∧ ctx0.mm = none ∧ ((devSched ctx0 []).core 0).inflight = [] ∧
     (devSched ctx0 []).herd.outs = [] ∧ (devSched ctx0 []).coresOf 0 ≠ [] ∧ (devSched ctx0 []).coresOf 1 = []) ∧
    -- fenced: beside a context of another partition; ended, with no core left, with one and with a search that was asked for
    (∀ p ∈ [0, 1], ∀ st ∈ [CtxSt.ending, .running], let x := { ctx0 with part := p, st := st, fenced := true }
     let d := devSched x [(1, { ctx0 with part := 1 - p }), (2, { ctx0 with part := p })]
     Tab.risesFrom 0 d.ctxs = true ∧ d.ctx? 0 = some x ∧ (d.coresOf x.part = [] ↔ p = 1) ∧ d.search.jobs = [] ∧ d.herd.outs = [] ∧
     ({ d with search := { d.search with jobs := [(0, Dev.newJob 0 0 1 0 0 true false false (.ctx 0 0) 0#64 0)] } } : Dev).search.jobs.any (fun j => j.2.ctx == some 0) = true) := by
  refine ⟨by decide, ⟨_, ?_, rfl, ?_⟩, by decide, by decide, ⟨by decide, by decide, ?_, by decide⟩, by decide, by decide⟩
  · decide
  · decide
  · intro o ho
    have : o = 0 := by have := List.mem_singleton.mp (show o ∈ [0] from ho); exact this
    subst this; exact ⟨_, rfl, rfl⟩
/-- A device whose Chamois core 0 is the run-time's, whose object 0 belongs to the run-time, with a command block for an operation at
0x8000 of tier 1, its word 2 an address. -/
def devOcmd (o : Obj) (op : Nat) (at' : W64) : Dev :=
  let d := (devObj ctx0).setFld (R.partChamOwn 0) F.partChamOwn_effective 16
  { d with tier := { d.tier with objs := [(0, o)] }, mem := Memory.write [] (2 ^ 49 + 0x8000) (leBytes 8 op ++ leBytes 8 0 ++ leBytes 8 at'.toNat) }
def objR : Obj := { obj0 with part := 16 }
/-- An owned line of another node in the directory, not BUSY. -/
def ent0 : DirEnt := ⟨2, false, [1], [], 0, false, [], none, [], false, 0, false⟩
/-- ObjectCommands: a block of each operation, of 0 and of 8; an object that is there and one that is not; pins at 0, 1, 65,534 and 65,535. -/
theorem witness_object_commands :
    (∀ op ∈ [0, 1, 2, 3, 4, 5, 6, 7, 8],
      let d := devOcmd objR op (mkAddr 0 1 4095)
      let z := d.clampSteps (.cham 0) false Dev.noT3 (mkAddr 0 1 0x8000) 64
      d.busAns (.cham 0) R.tierOcmdLo true = .ok ∧ d.isHere z = true ∧ z.tier = 1 ∧ z.off = 0x8000 ∧ d.lready 1 0x8000 64 true = true ∧
      bits64 ((Dev.wordsOf 8 (d.lread 1 0x8000 64).1).getD 0 0#64) 0 8 = op ∧
      (Dev.wordsOf 8 (d.lread 1 0x8000 64).1).getD 2 0#64 = mkAddr 0 1 4095) ∧
    (devOcmd objR 2 0#64).chamOwner 0 = 16 ∧ (devOcmd objR 2 0#64).findObj 16 (mkAddr 0 1 4095) = some 0 ∧
    (devOcmd objR 2 0#64).findObj 16 (mkAddr 0 1 4096) = none ∧
    (∀ n ∈ [0, 1, 65534, 65535], Tab.find (devOcmd { objR with pins := n } 2 0#64).tier.objs 0 = some { objR with pins := n }) ∧
    (let d : Dev := { devOcmd objR 2 0#64 with herd := { (devOcmd objR 2 0#64).herd with dir := [(memKey 1 0x8000, ent0)] } }
     d.lready 1 0x8000 64 true = false) := by decide
/-- ObjectService: an object without a move, with one abandoned, with one to publish; a forward that is rebased and one that is not, late
and not; a pool under and above its low mark; a wait of a creation and of a move. -/
theorem witness_object_service :
    (let m : MoveJob := ⟨2, 0x10000, false, [], .none, 0, []⟩
     ∀ v ∈ [none, some m, some { m with abandon := [(.none, 0)] }],
      let o := { obj0 with move := v }
      let d : Dev := { devObj ctx0 with tier := { (devObj ctx0).tier with objs := [(0, o)] } }
      Tab.find d.tier.objs 0 = some o ∧ d.dirHolds o.tier o.base o.size true = [] ∧ d.locHeld o = [] ∧ d.moveFits o m = true) ∧
    (let f : Forward := ⟨0, 0, 1, 0, 4096, 0, 4096, true, [], false, [], false⟩
     (devObj ctx0).rebased f = true ∧ (devObj ctx0).rebased { f with ctxs := [0] } = false ∧ f.late = false ∧ ({ f with late := true } : Forward).late = true) ∧
    (let d := (devObj ctx0).setFld (R.tierCtrl 0) F.tierCtrl_mode 1
     d.pooled 1 = true ∧ d.lowOf 1 ≤ d.freeOf 1 ∧ (devObj ctx0).pooled 2 = false ∧
     (let e := { (d.setFld (R.tierCtrl 0) F.tierCtrl_low 1023) with tier := { d.tier with objs := [(0, { obj0 with size := 2 ^ 32 })] } }
      e.pooled 1 = true ∧ e.freeOf 1 < e.lowOf 1)) ∧
    (∀ v ∈ [none, some 0], let w : AllocWait := ⟨1, 0, 65536, 0, [], v, false, .none, 0, []⟩
     Tab.find ({ devObj ctx0 with tier := { (devObj ctx0).tier with waits := [(0, w)] } } : Dev).tier.waits 0 = some w) ∧
    -- lines that a cache holds; a wait with room and one without
    (let d : Dev := { devObj ctx0 with herd := { (devObj ctx0).herd with dir := [(memKey 1 0, ent0)] } }
     d.dirHolds 1 0 4096 true ++ d.locHeld obj0 ≠ []) ∧
    ((devObj ctx0).takeGap 1 0 65536).isSome = true ∧ (devObj ctx0).takeGap 1 0 (2 ^ 49) = none := by decide
/-- A Rind object in LPDDR of one block of zeros, its index behind it. -/
def devRindIdx : Dev :=
  let o : Obj := { obj0 with tier := 2, base := 2 ^ 36, size := 65536, rind := true, idx := some 1 }
  { devObj ctx0 with tier := { (devObj ctx0).tier with objs := [(0, o), (1, { obj0 with kind := .index, tier := 2, base := 2 ^ 36 + 65536, size := 65536 })] } }
/-- R258, R259: the index entry of a block of zeros has MODE 0b01; one that makes it RAW leaves its zeros, and one with LEN above 4,096
makes the block malformed (R263). -/
theorem test_rind_index :
    (devRindIdx.lread 2 (2 ^ 36 + 65536) 2).1 = [1#8, 0#8] ∧
    (devRindIdx.lwrite 2 (2 ^ 36 + 65536) [0#8, 0x40#8]).rindBad 2 (2 ^ 36) = false ∧
    (devRindIdx.lwrite 2 (2 ^ 36 + 65536) [0#8, 0x7F#8]).rindBad 2 (2 ^ 36) = true := by decide +kernel
/-- RegisterFields: a register's fields apart; a counter below and at its last value. -/
theorem witness_fields :
    (let fs : List FieldSpec := (blkRegs .fch).flatMap (·.fields) |>.take 1
     fs.Pairwise (fun f g => f.f.lo + f.f.w ≤ g.f.lo ∨ g.f.lo + g.f.w ≤ f.f.lo) ∧ fs ≠ []) ∧
    (Dev.reset.reg (R.fchRefuseCnt 0)).toNat < 0xFFFFFFFF ∧ ((Dev.reset.setReg (R.fchRefuseCnt 0) 0xFFFFFFFF#32).reg (R.fchRefuseCnt 0)).toNat = 0xFFFFFFFF ∧
    R.fchRefuseCnt 0 ≠ R.fchEvt 0 ∧ F.fchEvt_refuseOvf.w = 1 ∧ F.fchEvt_refuseOvf.lo < 32 := by decide
/-- RegisterBus: a hole; a register that is there, one of a fenced unit, a plain register and a pair's two words; an 8-byte access. -/
theorem witness_register_bus :
    (∃ a : BitVec 24, Dev.reset.busAns rt a.toNat true = .hole ∧ Dev.reset.busAns rt a.toNat false = .hole) ∧
    (∃ a : BitVec 24, a.toNat % 4 = 0 ∧ Dev.reset.busAns rt a.toNat true = .ok ∧
      (match regAt a.toNat with | some x => decide (x.spec.pair = .none ∧ x.row.blk ≠ .tahr ∧ x.row.blk ≠ .pwr ∧ x.row.blk ≠ .dir) | none => false) = true ∧
      (Dev.reset.addFence (unitId 1 0)).busAns rt a.toNat true = .frozen) ∧
    (∃ a : BitVec 24, a.toNat % 8 = 0 ∧ Dev.reset.busAns rt a.toNat true = .ok ∧ Dev.reset.busAns rt a.toNat false ≠ .hole ∧
      (match regAt a.toNat, regAt (a.toNat + 4) with
        | some x, some y => decide (x.spec.pair = .low ∧ y.spec.pair = .high ∧ x.row.blk ≠ .ts ∧ x.row.blk ≠ .tahr ∧ x.row.blk ≠ .pwr ∧ x.row.blk ≠ .dir)
        | _, _ => false) = true ∧ Dev.reset.busAns rt (a.toNat + 4) true = .ok ∧
      (let d := (devOf ctx0).setFld (R.partChamOwn 0) F.partChamOwn_effective 16
       d.busAns (.cham 0) a.toNat true = .ok ∧ d.busAns (.cham 0) a.toNat false ≠ .hole)) ∧
    (match regAt R.capVersion with | some x => decide (x.row.blk = .cap) | none => false) = true ∧
    (∀ i ∈ [0, 31], Dev.reset.busAns rt (R.tempoMin i) false = .ok) ∧ (∀ j ∈ [0, 18], Dev.reset.busAns rt (R.addrClampCnt j) false = .ok) :=
  ⟨⟨0xFFFFFF#24, by decide⟩, ⟨BitVec.ofNat 24 (R.kuduCtrl 0), by decide⟩, ⟨BitVec.ofNat 24 R.tierOcmdLo, by decide⟩, by decide⟩
/-- TempoAndCrossings: a monitor off and on, a rate below and at the threshold; a queue empty, with room, full; a stopped clock. -/
theorem witness_tempo :
    Dev.reset.flag (R.tempoCtrl 0) F.tempoCtrl_en = true ∧ (Dev.reset.setFld (R.tempoCtrl 0) F.tempoCtrl_en 0).flag (R.tempoCtrl 0) F.tempoCtrl_en = false ∧
    (∀ m ∈ [0, 31], Dev.reset.busAns rt (R.tempoCtrl m) true = .ok) ∧
    ((Dev.reset.setFld (R.tempoLow 0) F.tempoLow_lowThresh 4095).fld (R.tempoLow 0) F.tempoLow_lowThresh = 4095) ∧
    (∀ q : Fin 17, 0 < dcqDepth q ∧ 0 < dcqCount q ∧ Dev.reset.dcqFrozen q 0 true = false ∧ (Dev.reset.dcq (dcqKey q 0 true)).down = false ∧ (Dev.reset.dcq (dcqKey q 0 true)).items = [] ∧
      (let d : Dev := { Dev.reset with dcqs := [(dcqKey q 0 true, ⟨List.replicate (dcqDepth q) [7#8], 0, 0, 0, [], false⟩)] }
       dcqDepth q ≤ (d.dcq (dcqKey q 0 true)).items.length ∧ (d.dcq (dcqKey q 0 true)).items = [7#8] :: List.replicate (dcqDepth q - 1) [7#8])) ∧
    ({ Dev.reset with stopped := [0] } : Dev).dcqFrozen 0 0 true = true ∧ (0 : Fin 17) ≠ 6 := by decide
/-- DieToDieLinks: a module that carries traffic, one out of service; a flit next in order with room; a link of whose modules none
retrains; each reason for a retraining; one that retrains, after no failure and after one. -/
theorem witness_d2d :
    (let d := Dev.reset
     d.d2dUp 0 0 = true ∧ (d.d2dDir 0).next = 0 ∧ d.dcqFrozen 6 0 false = false ∧
     ({ d with stopped := [6 * 256] } : Dev).dcqFrozen 6 0 false = true ∧ (d.dcq (dcqKey 6 0 false)).items.length < 64 ∧
     (∀ i, i < Dev.d2dBuilt 0 → (d.d2dMod 0 i).retraining = false) ∧ (d.d2dMod 0 0).retraining = false) ∧
    (∀ b ∈ [false, true], ((Dev.reset.setD2dMod 0 0 ⟨false, 0, [], b⟩).d2dMod 0 0).due = b) ∧
    (∀ n ∈ [0, 1], let d := Dev.reset.setD2dMod 0 0 ⟨true, n, [], false⟩
     d.d2dUp 0 0 = false ∧ (d.d2dMod 0 0).retraining = true ∧ (d.d2dMod 0 0).fails = n) := by decide
/-- A device whose Chamois core 0 runs, with eight bytes in HBM. -/
def devCham : Dev :=
  { ((devOf ctx0).setFld (R.chamCtrl 0) F.chamCtrl_halt 0) with mem := Memory.write [] (2 ^ 49 + 0x1000) (leBytes 8 5) }
/-- ChamoisAccesses: a core that is halted and one that runs; an aligned address of HBM, an odd one, one of tier 3; a reservation held and
none; a line that is ready and not. -/
theorem witness_chamois :
    (devOf ctx0).chamRuns 0 = false ∧ devCham.chamRuns 0 = true ∧ (mkAddr 0 1 0x1001).toNat % 4 ≠ 0 ∧ (mkAddr 0 1 0x1000).toNat % 8 = 0 ∧
    addrTier (mkAddr 0 3 0) = 3 ∧ (0 : Nat) + 8 ≤ devCham.tierSize 3 ∧ addrNode (mkAddr 0 1 0x1000) = devCham.nodeId ∧ addrTier (mkAddr 0 1 0x1000) = 1 ∧
    addrOff (mkAddr 0 1 0x1000) + 8 ≤ devCham.tierSize 1 ∧ devCham.lholds 1 0x1000 8 false = [] ∧ devCham.lholds 1 0x1000 8 true = [] ∧
    (devCham.lread 1 0x1000 8).2 = false ∧ devCham.lcanWrite 1 0x1000 8 = true ∧
    (let key := memKey (devCham.resolve 1 0x1000).1 ((devCham.resolve 1 0x1000).2 - (devCham.resolve 1 0x1000).2 % 128)
     Tab.find devCham.resv 0 = none ∧ Tab.find ({ devCham with resv := [(0, 0#64, key)] } : Dev).resv 0 = some (0#64, key)) ∧
    devCham.chamHeld 0 = false ∧ devCham.chamOuts 0 = [] ∧ (devCham.chamFence 0 [5]).chamHeld 0 = true ∧ MemOp.releases .scRl = true ∧
    ({ devCham with herd := { devCham.herd with outs := [(5, ⟨1, 0#64, .chamSt 0⟩)] } } : Dev).chamOuts 0 = [5] ∧
    devCham.hereLines 1 [(0x1000, 8)] = [memKey 1 0x1000] ∧ devCham.noRoom (memKey 1 0x1000) = false := by decide
/-- The device of node 0 with a message as the oldest of its channel on link 0. -/
def devRx (m : Msg) : Dev :=
  let d := devHerd ctx0
  { d with herd := { d.herd with links := [(0, { Link.reset with rx := [m] })] } }
/-- The same with some directory entries. -/
def devDir (m : Msg) (l : Tab DirEnt) : Dev := { devRx m with herd := { (devRx m).herd with dir := l } }
/-- A message of node 1 about a place of HBM. -/
def msgOf (opc : Nat) (data : List Byte) : Msg := ⟨opc, 0, 1, 7, false, false, mkAddr 0 1 0x1000, data⟩
/-- MessagesInTurn: a message that has not come. -/
theorem witness_messages : (devHerd ctx0).rxFirst 0 (msgOf 1 []) 1 = false := by decide
/-- HomeRequests: the line requests, EVICT and WB first on their channel; a line without an entry, with one BUSY, owned by the asker and by
another node, shared by the asker alone, with others, and coarsely; a set of 15 and of 16 entries. -/
theorem witness_home_requests :
    (∀ o ∈ [2, 3, 4, 7, 9], (devRx (msgOf o [])).rxFirst 0 (msgOf o []) o = true ∧
      (let p := ((devRx (msgOf o [])).rxTake 0 (msgOf o [])).arrive (msgOf o []) Dev.stay 128
       p.2.addr = mkAddr 0 1 0x1000 ∧ p.1.lineKey p.2.addr = memKey 1 0x1000 ∧ Dev.cacheable (memKey 1 0x1000) = true ∧ p.1.dirEnt (memKey 1 0x1000) = none)) ∧
    (∀ e ∈ [{ ent0 with busy := true }, ent0, { ent0 with nodes := [2] }, { ent0 with st := 1 }, { ent0 with st := 1, nodes := [1, 2] },
        { ent0 with st := 1, coarse := true, nodes := [], groups := [0] }],
      let p := ((devDir (msgOf 2 []) [(memKey 1 0x1000, e)]).rxTake 0 (msgOf 2 [])).arrive (msgOf 2 []) Dev.stay 128
      p.1.dirEnt (memKey 1 0x1000) = some e) ∧
    ((devRx (msgOf 2 [])).sharers { ent0 with st := 1 }).filter (· ≠ 1) = [] ∧ ((devRx (msgOf 2 [])).sharers { ent0 with st := 1, nodes := [1, 2] }).filter (· ≠ 1) ≠ [] ∧
    (∀ n ∈ [15, 16], ((devDir (msgOf 2 []) ((List.range n).map (fun i => (memKey 1 (i * 0x800000), ent0)))).setOf (memKey 1 0)).length = n) ∧
    (let d := devDir (msgOf 2 []) [(memKey 1 0, { ent0 with busy := true, evicting := true, serving := some ⟨msgOf 2 [], 0⟩ })]
     d.roomHolder (memKey 1 0x1000) = some (memKey 1 0) ∧ (devRx (msgOf 2 [])).roomHolder (memKey 1 0x1000) = none) ∧
    (∀ e ∈ [ent0, { ent0 with nodes := [], loc := 1 }],
      let d := devDir (msgOf 2 []) ((List.range 16).map (fun i => (memKey 1 (i * 0x800000), e)))
      d.victim (memKey 1 (16 * 0x800000)) = some (memKey 1 0, e) ∧ d.sharers e = e.nodes) ∧
    Dev.cacheable (memKey 0 0) = false := by decide
/-- UncachedRequests: the four first on their channel, to lines that no cache holds and where writes have room. -/
theorem witness_uncached :
    ∀ q ∈ [(1, 0, true), (5, 16, true), (6, 32, true), (8, 32, false)],
      let m := msgOf q.1 (List.replicate q.2.1 0xFF#8)
      let p := ((devRx m).rxTake 0 m).arrive m (if q.2.2 then Dev.stay else Dev.noT34) 16
      (devRx m).rxFirst 0 m q.1 = true ∧ addrTier p.2.addr = 1 ∧ (Dev.reqRange p.2).1 < p.1.tierSize 1 ∧ p.1.lholds 1 (Dev.reqRange p.2).1 (Dev.reqRange p.2).2 true = [] ∧
      p.1.lcanWrite 1 0x1000 16 = true ∧ (∀ b ∈ pieces 0x1000 16, (p.1.resolve 1 b.1).1 ≠ 3) ∧ m.poison = false := by decide
/-- UncachedRequests: a read and a write of 256 bytes just beyond the end of tier 1. -/
def msgEnd (opc : Nat) (data : List Byte) : Msg := { msgOf opc data with addr := mkAddr 0 1 (0xC000000000 + (if opc = 1 then 15 else 0)) }
theorem witness_uncached_beyond :
    ∀ q ∈ [(1, 0), (5, 256)],
      let m := msgEnd q.1 (List.replicate q.2 0xFF#8)
      let p := ((devRx m).rxTake 0 m).arrive m Dev.stay 256
      let rs := Dev.tailRuns (p.1.tierSize 1) 4 (Dev.reqRange p.2).1 (Dev.reqRange p.2).2
      (devRx m).rxFirst 0 m q.1 = true ∧ addrTier p.2.addr = 1 ∧ p.1.tierSize 1 ≤ (Dev.reqRange p.2).1 ∧ rs = [(0xBFFFFFFF80, 128), (0xBFFFFFFF80, 128)] ∧
      rs.all (fun r => (p.1.lholds 1 r.1 r.2 true).isEmpty && p.1.lcanWrite 1 r.1 r.2 && (pieces r.1 r.2).all (fun b => decide ((p.1.resolve 1 b.1).1 ≠ 3))) = true ∧
      (p.1.resolve 1 (Dev.reqRange p.2).1).1 ≠ 3 ∧ m.poison = false ∧ p.2.clamped = true := by decide
/-- Lending: the three requests; a segment lent to the asker, to another node, and none; a segment of the window that is recalled. -/
theorem witness_lending :
    (∀ o ∈ [0x0A, 0x0B, 0x0C], (devRx (msgOf o [])).rxFirst 0 (msgOf o []) o = true) ∧
    ((devRx (msgOf 0x0B [])).rxTake 0 (msgOf 0x0B [])).objAt 1 0x1000 = none ∧
    (∀ n ∈ [1, 2], let o := { obj0 with kind := .lent, base := 0, size := 2 ^ 30 }
      let d : Dev := { devRx (msgOf 0x0B []) with
        tier := { TierSt.reset with objs := [(0, o)], nextId := 1 }, herd := { (devRx (msgOf 0x0B [])).herd with lentTo := [(0, n)] } }
      (d.rxTake 0 (msgOf 0x0B [])).objAt 1 0x1000 = some (0, o) ∧ (Tab.find (d.rxTake 0 (msgOf 0x0B [])).herd.lentTo 0 = some 1 ↔ n = 1)) ∧
    (let g : Seg := ⟨1, 1, 0, false, false, []⟩
     let m := msgOf 0x0C []
     let d : Dev := { devRx m with tier := { TierSt.reset with segs := [(0, g)] } }
     ((d.rxTake 0 m).reply m 0x23 0 [] false).tier.segs.find? (fun q => q.2.node == m.src &&
        q.2.tier == addrTier m.addr && q.2.offset == alignDown (addrOff m.addr) (2 ^ 30) && !q.2.leaving) = some (0, g)) := by decide
/-- The device with a reply first on link 0 to an outstanding request with its TAG. -/
def devReply (m : Msg) (k : OutKind) (x : Ctx) : Dev :=
  let d := devHerd x
  { d with herd := { d.herd with links := [(0, { Link.reset with rx := [m] })], outs := [(7, ⟨1, mkAddr 1 1 0x1000, k⟩)] } }
/-- Replies: each opcode; a TAG of no request; a load, a store, a cached line, a segment to be lent. -/
theorem witness_replies :
    (∀ o ∈ [0x20, 0x21, 0x22, 0x23, 0x24, 0x28], (devRx (msgOf o [])).rxFirst 0 (msgOf o []) o = true ∧
      Tab.find ((devRx (msgOf o [])).rxTake 0 (msgOf o [])).herd.outs 7 = none) ∧
    (∀ k ∈ [OutKind.load 0 2 8 0, .store 0 0#64, .chamLine 0 true, .lend 0], ∀ o ∈ [0x20, 0x22, 0x23, 0x28],
      let d := devReply (msgOf o []) k { ctx0 with wait := .remote 7 0x0004000000001008#64 }
      d.rxFirst 0 (msgOf o []) o = true ∧ Tab.find (d.rxTake 0 (msgOf o [])).herd.outs 7 = some ⟨1, mkAddr 1 1 0x1000, k⟩ ∧
      (d.rxTake 0 (msgOf o [])).tier.segs = [] ∧ d.ctx? 0 = some { ctx0 with wait := .remote 7 0x0004000000001008#64 }) ∧
    ctx0.slots = [] ∧ ctx0.st ≠ .replyWait ∧ ctx0.clamps = 0 ∧ bits64 (0#64) 0 8 = 0 ∧ bits64 (1#64) 0 8 ≠ 0 := by decide
/-- Snoops: INV; a forward to a line not held, shared and owned; answers that no snoop awaits, that are not the last and the last. -/
theorem witness_snoops :
    (∀ o ∈ [0x25, 0x26, 0x30, 0x31, 0x32], (devRx (msgOf o [])).rxFirst 0 (msgOf o []) o = true) ∧
    (∀ n ∈ [1, 2], let l : CLine := ⟨n, [], false⟩
     Tab.find ({ devRx (msgOf 0x31 []) with herd := { (devRx (msgOf 0x31 [])).herd with cache := [(5, l)] } } : Dev).herd.cache 5 = some l) ∧
    ((devRx (msgOf 0x25 [])).rxTake 0 (msgOf 0x25 [])).takeSnp (msgOf 0x25 []) = none ∧
    (∀ q ∈ [(0x25, 0x30), (0x26, 0x31), (0x26, 0x32)], ∀ e ∈ [{ ent0 with busy := true, await := [1] }, { ent0 with busy := true, await := [1, 2] }, { ent0 with busy := true, await := [1], drop := true }, ent0],
      let m := msgOf q.1 []
      let t : Snp := ⟨7, 1, memKey 1 0x1000, q.2, false⟩
      let d : Dev := { devDir m [(memKey 1 0x1000, e)] with herd := { (devDir m [(memKey 1 0x1000, e)]).herd with snps := [t] } }
      ∃ u, (d.rxTake 0 m).takeSnp m = some (t, u) ∧ u.dirEnt t.line = some e) := by
  refine ⟨by decide, by decide, by decide, ?_⟩
  intro q hq e he
  simp only [List.mem_cons, List.not_mem_nil, or_false] at hq he
  rcases hq with rfl | rfl | rfl <;> rcases he with rfl | rfl | rfl | rfl <;> exact ⟨_, rfl, rfl⟩
/-- The device with expert 0 placed on this node and group 0's table, its inbox bound, round 7 of the group open, and a message. -/
def devHome (m : Msg) (n : Nat) : Dev :=
  let d := ((devRx m).setPair R.dirExptLo (mkAddr 0 1 0x10000).toNat).setPair R.dirGrpLo (mkAddr 0 1 0x20000).toNat
  { d with
    mem := [(2 ^ 49 + 0x10000, 1#8), (2 ^ 49 + 0x10002, 2#8), (2 ^ 49 + 0x20000, 1#8)]
    herd := { d.herd with bound := [(0, ⟨0, 0, 0⟩)], rounds := [⟨0, 7, 0, false, [(0, n)]⟩] } }
/-- Tokens: each message first on its channel; an expert that is not placed; one placed here with room and without; a round open, closed and
old; a token sent that awaits its receipt, accepted, replied to; the timers. -/
theorem witness_tokens :
    (∀ o ∈ [0x27, 0x40, 0x41, 0x42], (devRx (msgOf o [])).rxFirst 0 (msgOf o []) o = true) ∧
    ((devRx (msgOf 0x40 [])).rxTake 0 (msgOf 0x40 [])).expertOf 0 = none ∧
    (∀ n ∈ [0, 64], let m : Msg := { msgOf 0x40 (List.replicate 16 0#8) with addr := 0#64 }
      let d := (devHome m n).rxTake 0 m
      let f := TokFld.of m.addr
      f.expert = 0 ∧ f.replica = 0 ∧ (match d.expertOf 0 with
        | some e => decide (f.replica ≤ e.nrep ∧ e.nodes.getD 0 0 = d.nodeId ∧ (d.groupOf e.group).dead = false ∧ e.group = 0 ∧ (n = 0 ↔ n < e.cap)) | none => false) = true ∧
      Tab.find d.herd.bound 0 = some ⟨0, 0, 0⟩ ∧ d.roundOld 0 7 = false ∧
      d.herd.rounds.find? (fun r => r.group == 0 && r.round == 7) = some ⟨0, 7, 0, false, [(0, n)]⟩) ∧
    (let m : Msg := { msgOf 0x41 [] with addr := 0#64 }
     ((devHome m 0).rxTake 0 m).roundOld ((TokFld.of m.addr).token % 256) 7 = false ∧
     (let d := devHome m 0
      let e : Dev := { d with herd := { d.herd with rounds := [⟨0, 7, 1, true, []⟩] } }
      (e.rxTake 0 m).roundOld 0 7 = true ∧ e.roundClosed 0 7 = true ∧ d.roundClosed 0 7 = false)) ∧
    (∀ st ∈ [0, 1, 2], let t : TokOut := ⟨0, 0, 0, 0, 1, 7, 4, st⟩
      let m : Msg := { msgOf 0x27 [] with addr := 0#64 }
      let d : Dev := { devRx m with herd := { (devRx m).herd with tokOut := [t] } }
      (d.rxTake 0 m).tokSent (TokFld.of m.addr) = some t ∧ (TokFld.of m.addr).nc = false ∧ d.tokSent ⟨0, 0, 0, false, 0⟩ = some t ∧
      ((devRx m).rxTake 0 m).tokSent (TokFld.of m.addr) = none) ∧
    (devRx (msgOf 0x27 [])).busAns rt R.dirGrpReset true = .ok := by decide
/-- A device whose link 0 is in a state, with the other condition of the link given. -/
def devLink (st : Nat) (l : Link) : Dev :=
  let d := Dev.reset.setFld (R.hlState 0) F.hlState_state st
  { d with herd := { d.herd with links := [(0, l)] } }
/-- HerdLinks: every state of a link; flits with a CRC that is right and wrong, of each type, in turn and not; what there is to send; the
conditions of the retraining events. -/
theorem witness_herd_links :
    (∀ st ∈ [0, 1, 2, 3, 4, 5], (devLink st Link.reset).linkSt 0 = st) ∧
    (devLink 0 Link.reset).flag (R.hlCtrl 0) F.hlCtrl_disable = false ∧
    ((devLink 0 Link.reset).setFld (R.hlCtrl 0) F.hlCtrl_disable 1).flag (R.hlCtrl 0) F.hlCtrl_disable = true ∧
    (devLink 3 Link.reset).devFatal = false ∧ ((devLink 3 { Link.reset with signal := true }).link 0).signal = true ∧
    (List.replicate 242 0#8).head? = some 0#8 ∧ (List.replicate 242 (0#8)).length = 242 ∧
    (let l := (devLink 3 Link.reset).link 0
     l.owed = [] ∧ l.nakDue = false ∧ l.resend = 0 ∧ l.tx = [] ∧ l.txPart = [] ∧ l.rxPart = [] ∧ (l.rxSeq + 1) % 4096 = 0 ∧ l.replay = [] ∧ l.fails = 0 ∧
     l.replays.length ≤ 32 ∧ l.uncorrs.length ≤ 16) ∧
    (let l := (devLink 3 { Link.reset with nakDue := true, resend := 1, replay := [⟨0, []⟩], fails := 1, replays := List.replicate 33 0, uncorrs := List.replicate 17 0 }).link 0
     l.nakDue = true ∧ l.resend ≠ 0 ∧ l.replay[l.replay.length - l.resend]? = some ⟨0, []⟩ ∧ l.fails ≠ 0 ∧ 32 < (inMs 0 l.replays).length ∧ 16 < (inMs 0 l.uncorrs).length) ∧
    242 ≤ ({ Link.reset with txPart := List.replicate 242 0#8 } : Link).txPart.length ∧ (devLink 3 Link.reset).busAns rt (R.hlCtrl 0) true = .ok := by decide
theorem witness_crc : leVal ((List.replicate 256 0xFF#8).drop 248) ≠ crc64 ((List.replicate 256 0xFF#8).take 248) := by decide +kernel
/-- HerdTimeouts: a tag of no request; requests of each kind; snoops sent once and twice; a node with and without a route; a captured reply
for no context, for no slot, and for slots that wait and do not. -/
theorem witness_herd_timeouts :
    Tab.find (devHerd ctx0).herd.outs 7 = none ∧
    (∀ k ∈ [OutKind.load 0 2 8 0, .store 0 0#64, .chamLine 0 true, .chamSt 0],
      let d := devReply (msgOf 0x20 []) k ctx0
      Tab.find d.herd.outs 7 = some ⟨1, mkAddr 1 1 0x1000, k⟩ ∧ 7 ∉ d.herd.guarded ∧
      (let v := (d.outDel 7).dropNode 1
       v.ctx? 0 = some ctx0 ∧ v.isRes 0 ctx0 = true)) ∧
    (∀ r : Bool, let t : Snp := ⟨7, 1, memKey 1 0x1000, 0x30, r⟩
      let d : Dev := { devHerd ctx0 with herd := { (devHerd ctx0).herd with snps := [t], dir := [] } }
      d.lineKey (mkAddr 0 1 0x1000) = memKey 1 0x1000 ∧ (d.herd.snps.find? (fun u => u.node == 1 && u.line == memKey 1 0x1000 && !u.resent) = some t ↔ r = false)) ∧
    (devHerd ctx0).routeLinks 1 ≠ [] ∧ (devHerd ctx0).routeLinks 2 = [] ∧
    (devHerd ctx0).ctx? 1 = none ∧ (devHerd ctx0).ctx? 0 = some ctx0 ∧ ctx0.slots[0]? = none := by decide
/-- Captured replies: a pending slot whose request is still out. -/
theorem witness_captured_reply :
    let x : Ctx := { ctx0 with slots := [⟨7, true, 0, 0, 0, none, false⟩] }
    let d := devReply (msgOf 0x20 []) (.load 0 2 8 0) x
    d.ctx? 0 = some x ∧ x.slots[0]? = some ⟨7, true, 0, 0, 0, none, false⟩ ∧ Dev.Slot.pending ⟨7, true, 0, 0, 0, none, false⟩ = true ∧
    Tab.find d.herd.outs 7 = some ⟨1, mkAddr 1 1 0x1000, .load 0 2 8 0⟩ := by decide
/-- Enumeration: a link in each state; path messages with the hop at 0, in the middle, at the end and beyond; the conditions of the root. -/
theorem witness_enumeration :
    (devLink 2 Link.reset).linkSt 0 = 2 ∧ (devLink 3 Link.reset).linkSt 0 ≠ 2 ∧
    (∀ o ∈ [0x50, 0x51, 0x52, 0x53, 0x54, 0x55], (devRx (msgOf o (List.replicate 32 0#8))).rxFirst 0 (msgOf o (List.replicate 32 0#8)) o = true) ∧
    (∀ q ∈ [(0, 1), (1, 1), (1, 2), (14, 14), (14, 15), (2, 1)],
      let m := msgOf 0x51 ([BitVec.ofNat 8 q.1, BitVec.ofNat 8 q.2] ++ List.replicate 30 0#8)
      (m.data.getD 0 0#8).toNat = q.1 ∧ (m.data.getD 1 0#8).toNat = q.2) ∧
    (let m := msgOf 0x50 (List.replicate 32 0#8)
     let d : Dev := (devRx m).setFld R.addrNode F.addrNode_assigned 0
     d.rxFirst 0 m 0x50 = true ∧ (d.rxTake 0 m).assigned = false ∧ m.data.length = 32 ∧ (m.data.getD 8 0#8).toNat % 16 = 0) ∧
    (devHerd ctx0).busAns rt R.dirCfg true = .ok ∧ (devHerd ctx0).flag R.dirCfg F.dirCfg_root = false ∧
    ((devHerd ctx0).setFld R.dirCfg F.dirCfg_root 1).flag R.dirCfg F.dirCfg_root = true ∧ Tab.find (devHerd ctx0).herd.probes 5 = none ∧
    (∀ k ∈ [2, 3], let d : Dev := { devHerd ctx0 with herd := { (devHerd ctx0).herd with probes := [(5, k)], members := [⟨5#64, none, some 3, [0], []⟩] } }
      Tab.find d.herd.probes 5 = some k ∧ d.herd.members.find? (fun m => m.serial == 5#64) = some ⟨5#64, none, some 3, [0], []⟩) ∧
    (let d := ((devHerd ctx0).setFld R.dirEnum F.dirEnum_isroot 1).setFld R.dirEnum F.dirEnum_state 2
     d.flag R.dirEnum F.dirEnum_isroot = true ∧ d.fld R.dirEnum F.dirEnum_state = 2 ∧ 3 ≠ d.nodeId ∧ (devHerd ctx0).flag R.dirEnum F.dirEnum_isroot = false) := by decide
/-- The worked example of R156 (06_matrix_arrays.md): label heads on short embeddings. -/
def labelHeads : MmShape :=
  let z : Tensor := (xfer0.src)
  { a := { z with fmt := .e4m3, d0 := 32, d1 := 1024, d2 := 1, d3 := 1 }, w := { z with fmt := .e4m3, d0 := 32, d1 := 128, d2 := 1, d3 := 1 }
    z := { z with fmt := .e4m3, d0 := 128, d1 := 1024, d2 := 1, d3 := 1 }, c := z, ta := false, tb := false, acc := false, bias := false
    osidx := 0, osc := false, act := 0, rblk := 0, k := 32, m := 128, n := 1024, b2 := 1, b3 := 1 }
theorem test_mm_estimates : (List.range 4).map (mmSteps labelHeads) = [1219, 675, 387, 355] ∧ mmPick labelHeads 0 = 3 := by decide
/-- R150: 1,000 vectors through one array take 1,127 steps (02_timing_and_crossings.md). -/
theorem test_mm_lane : mmLane { labelHeads with k := 64, m := 64, n := 1000 } 0 1 [1000] = (1127, 0) := by decide
theorem witness_root : (Dev.reset.setFld R.dirCfg F.dirCfg_root 1).lowRoot = some Config.serial := rfl
/-- A device whose Chamois core 0 is the run-time's, with a collection and a command block for an operation at 0x8000 of tier 1. -/
def devColl (c : Coll) (op : Nat) : Dev :=
  let d := (devOf ctx0).setFld (R.partChamOwn 0) F.partChamOwn_effective 16
  { d with search := { SearchSt.reset with colls := [(0, c)] }, mem := Memory.write [] (0x2000000008000) (leBytes 8 op) }
def collR : Coll := { coll0 with part := 16, dim := 16 }
def rec0 : VRec := ⟨1, 1, none, 0, 0, 0, []⟩
/-- A creation of a collection of dimension 16 in tier 1, its sixteen scales at 0x9000. -/
def collWords : List W64 := [0x8100001#64, mkAddr 0 1 0x9000]
/-- Collections: a block of each operation, of 0 and of 4; a collection that is there and one that is not; a creation with and without room;
changes that wait, by kind; the conditions of publishing and compaction; jobs and views. -/
theorem witness_collections :
    (∀ op ∈ [0, 1, 2, 3, 4],
      let d := devColl collR op
      let z := d.clampSteps (.cham 0) false Dev.noT3 (mkAddr 0 1 0x8000) 64
      d.busAns (.cham 0) R.srchCmdLo true = .ok ∧ d.isHere z = true ∧ z.tier = 1 ∧ z.off = 0x8000 ∧ d.lready 1 0x8000 64 true = true ∧
      bits64 ((Dev.wordsOf 8 (d.lread 1 0x8000 64).1).getD 0 0#64) 0 8 = op) ∧
    (devColl collR 2).chamOwner 0 = 16 ∧ (devColl collR 2).collNamed 16 0 = some collR ∧ (devColl collR 2).collNamed 16 1 = none ∧ collR.pend = [] ∧
    (let d : Dev := { devColl collR 1 with mem := Memory.write [] (0x2000000009000) ((List.replicate 16 (leBytes 4 0x3F800000)).flatten) }
     let n0 := bits64 (collWords.getD 0 0#64) 23 13
     let pl := d.clampSteps (.cham 0) false Dev.noT4 (mkAddr 0 1 0x9000) 4
     n0 = 16 ∧ bits64 (collWords.getD 0 0#64) 18 2 < 2 ∧ bits64 (collWords.getD 0 0#64) 20 3 = 1 ∧ pl.kinds = [] ∧ pl.off + 4 * n0 ≤ d.tierSize pl.tier ∧
     (let g := d.grab none 300 (mkAddr 0 1 0x9000) 64
      g.1 = true ∧ ((f32s 16 g.2.2.1).map legalScale).all (fun q => !q.2) = true ∧ Tab.firstFree g.2.2.2.search.colls 1024 0 = 1)) ∧
    ((devColl collR 1).setReg (R.tierQuota 0 0) 1000#32).collJobs 0 = [] ∧ ({ collR with destroyed := true } : Coll).destroyed = true ∧
    (∀ q ∈ [Change.delete [1], .delete [2], .append [rec0], .append []],
      let c := { collR with pend := [⟨q, .none, 0, 0#64⟩], segs := [(0, ⟨0, true, [rec0]⟩)], nextSeg := 1, views := [⟨0, [0]⟩] }
      Tab.find (devColl c 2).search.colls 0 = some c ∧ c.gen < 0xFFFFFFFFFFFF ∧ c.views.getLast? = some ⟨0, [0]⟩ ∧ Dev.isLive c 1 = true ∧ Dev.isLive c 2 = false ∧
      Dev.wheyOf c = 1) ∧
    Dev.lastOfId [rec0] = [rec0] ∧
    (∀ g ∈ [0xFFFFFFFFFFFD, 0xFFFFFFFFFFFE, 0xFFFFFFFFFFFF], ({ collR with gen := g } : Coll).gen = g) ∧
    (let d := ((devColl collR 2).setFld R.srchCompactCtrl F.srchCompactCtrl_en 1).setReg R.srchWheyThresh 0#32
     d.flag R.srchCompactCtrl F.srchCompactCtrl_en = true ∧ (d.reg R.srchWheyThresh).toNat ≤ Dev.wheyOf collR ∧ collR.views.length < 8 ∧
     (d.setFld R.srchCompactCtrl F.srchCompactCtrl_en 0).flag R.srchCompactCtrl F.srchCompactCtrl_en = false) ∧
    ({ collR with compact := some ⟨0, [], 1⟩, retry := true } : Coll).compact = some ⟨0, [], 1⟩ ∧
    (let c : Coll := { collR with compact := some ⟨0, [], 1⟩, gen := 2 ^ 48 - 1 }; c.compact ≠ none ∧ c.destroyed = false ∧ 2 ^ 48 - 1 ≤ c.gen) := by decide
/-- Collections: a change that waits is the one that a publish takes, when it is the only one. -/
theorem witness_change (n : Nat) : [(⟨.delete [1], .none, 0, 0#64⟩ : PendChange)][(Config.freeWord n).toNat % 1]? = some ⟨.delete [1], .none, 0, 0#64⟩ := by
  simp [Nat.mod_one]
/-- Collections: an append without room, and one with. -/
theorem witness_append :
    ((devColl collR 2).storeRecs { collR with home := 1, part := 0 } [rec0]).map (fun q => q.1.isNone) = some true ∧
    (match devLaunch.roomFor 0 2 40 with | (.got _, e) => e.herd.dir.isEmpty | _ => false) = true ∧
    0xFFFFFFFF < Dev.wheyOf { collR with segs := [(0, ⟨0, true, [rec0]⟩)], nextSeg := 1, views := [⟨0, [0]⟩] } + 0xFFFFFFFF := by decide
/-- Collections: the release of a segment that no view holds. -/
theorem witness_release :
    let o := { obj0 with part := 16, kind := .segment }
    let c := { collR with segs := [(0, ⟨1, true, [rec0]⟩)], nextSeg := 1 }
    let d : Dev := { devColl c 2 with tier := { TierSt.reset with objs := [(0, o)], nextId := 1 } }
    Tab.find (d.pruneViews 0).search.colls 0 = some c ∧ Tab.find (d.pruneViews 0).search.colls 1 = none ∧ Tab.find d.tier.objs (1 - 1) = some o ∧
    c.segs.filter (fun s => !(c.views.any (fun v => v.segs.contains s.1) || (c.compact.map (·.new)) == some s.1)) = [(0, ⟨1, true, [rec0]⟩)] := by decide
/-- A job of one query. -/
def job0 : SJob :=
  { coll := 0, found := true, part := 16, k := 1, dist := 0, path := 1, large := false, rerank := false, src := none, raw := [List.replicate 16 0#32], filt := []
    idl := [], dst := none, room := 0, who := .nvme 0 1 1, pc := 0#64, started := false, gen := 0, view := 0, chans := [], handed := [], queries := []
    paths := 0, noCore := false, noQuota := false, big := ⟨[], [], [], 0, 0⟩, bufs := [], cancelled := false, flags := 0, sent := false }
def query0 : Query := ⟨[], 0, 0, none, [], [], 0, 0, 0, 0, none⟩
/-- A device with a job over a collection of tier 3, its engines enabled, and some passes. -/
def devJob (x : SJob) (l : Tab Pass) : Dev :=
  { (devColl { collR with home := 3 } 2).setFld (R.oryxCtrl 0) F.oryxCtrl_en 1 with
    search := { colls := [(0, { collR with home := 3 })], jobs := [(0, x)], nextJob := 1, passes := l } }
/-- SearchJobs: no job; a job to start, behind an earlier one of its context, cancelled, without a collection; jobs started, of whose queries
all and not all are done; passes that may begin, run, and end; candidates below and at the sizes that select. -/
theorem witness_search_jobs :
    Tab.find (devColl collR 2).search.jobs 0 = none ∧ Tab.find (devJob job0 []).search.jobs 0 = some job0 ∧ job0.src = none ∧ job0.raw ≠ [] ∧
    (∀ k ∈ (devJob job0 []).search.jobs, ¬ k.1 < 0) ∧
    (let y := { job0 with who := .ctx 0 1 }
     let d : Dev := { devJob y [] with search := { (devJob y []).search with jobs := [(0, y), (1, y)] } }
     ∃ k ∈ d.search.jobs, k.1 < 1 ∧ k.2.started = false ∧ k.2.cancelled = false ∧ k.2.ctx.isSome = true ∧ k.2.ctx = y.ctx) ∧
    Tab.find (devJob job0 []).search.colls 0 = some { collR with home := 3 } ∧ (Dev.makeQueries { collR with home := 3 } job0 job0.dist).2 = 0 ∧
    ((devJob job0 []).collJobs 0).filter (·.2.started) = [] ∧ (devJob job0 []).oryxOn 0 = true ∧ ((devJob job0 []).setFld (R.oryxCtrl 0) F.oryxCtrl_en 0).oryxOn 0 = false ∧
    (∀ v ∈ [none, some [0#8]], let x := { job0 with started := true, queries := [{ query0 with done := v }] }
      Tab.find (devJob x []).search.jobs 0 = some x ∧ ((∀ q ∈ x.queries, q.done.isSome = true) ↔ v = some [0#8])) ∧
    (let x := { job0 with started := true, who := .ctx 0 1, queries := [{ query0 with done := some [0#8] }] }
     Dev.fitted x (Dev.jobResults x 0) = []) ∧
    (∀ n ∈ [3, 4], let x := { job0 with large := true, big := { job0.big with cand := List.replicate n ⟨0, 0, 0⟩ } }
      x.big.cand.length = n ∧ 4 * x.k = 4) ∧
    (let x := { job0 with started := true, chans := [(0, 0)], queries := [query0] }
     let d := (devJob x []).setReg (R.partOryx 0) 0xFFFFFFFF#32
     Tab.find d.search.jobs 0 = some x ∧ Tab.find x.chans 0 = some 0 ∧ Tab.find d.search.passes 0 = none ∧ d.oryxOn 0 = true ∧ 0 ∉ x.handed ∧ x.ctx = none) ∧
    (∀ n ∈ [255, 256], let p : Pass := ⟨0, 0, [⟨[], List.replicate n ⟨0, 0, 0⟩, [], 0, 0⟩], 0⟩
      ((p.sels[0]?).map (fun s => decide (256 ≤ s.cand.length)) = some true ↔ n = 256) ∧ Tab.find (devJob job0 [(0, p)]).search.passes 0 = some p) ∧
    (∀ l ∈ [[], [(⟨0, 0, 0⟩ : Cand)]], let p : Pass := ⟨0, 0, [⟨l, [], [], 0, 0⟩], 0⟩
      Tab.find (devJob job0 [(0, p)]).search.passes 0 = some p ∧ Tab.find (devJob job0 [(0, p)]).search.jobs p.job = some job0) ∧
    (devJob job0 []).busAns rt (R.oryxCtrl 127) true = .ok := by decide
/-- SearchJobs: every engine is in service and has a slot to give. -/
theorem witness_engines : (∀ ch < 128, (devJob job0 []).oryxOn ch = true) ∧ 0 < ((devJob job0 []).slotsFor 16) := by decide +kernel
/-- A descriptor of queue 0: operation, target 0, plane 0, code word 0, one code word. -/
def desc0 (op : Nat) : FDesc := ⟨0, [BitVec.ofNat 64 (op + 2 ^ 36), BitVec.ofNat 64 (2 ^ 27 + 2 ^ 48), mkAddr 0 1 0x1000, 0#64, 0#64, 0#64, 0#64, 0#64], false⟩
/-- A device whose channel 0 is ready, with queue 0 of depth 2 enabled, a descriptor waiting in it and its die 0 in a condition. -/
def devFch (l : List FDesc) (y : DieSt) : Dev :=
  let d := ((((Dev.reset.setFld (R.fchCtrl 0) F.fchCtrl_en 1).setFld (R.fchStatus 0) F.fchStatus_ready 1).setFld (R.fchQCfg 0 0) F.fchQCfg_en 1).setFld
    (R.fchQCfg 0 0) F.fchQCfg_depth 1).setFch 0 { FchSt.reset with waiting := [(0, l)], dies := [(0, y)] }
  { d with flash := { d.flash with blocks := [(0, ⟨false, 0, false⟩)] } }
def op0 (k : Nat) : DieOp := ⟨desc0 k, k, false⟩
/-- FlashChannels: the queue registers; a descriptor of each operation in its turn, fine and refused, and not in its turn; a die idle, with an
operation, with an erase running, suspended and to be suspended, at the least run and the hold. -/
theorem witness_flash_channels :
    (∀ a ∈ [R.fchQSqt 0 0, R.fchQCqh 0 0, R.fchQCtrl 0 0, R.fchQSqt 127 7], Dev.reset.busAns rt a true = .ok) ∧
    Dev.reset.fld (R.fchQSqh 0 0) F.fchQSqh_head = 0 ∧ Tab.getD (Dev.reset.fch 0).waiting 0 [] = [] ∧
    (∀ op ∈ [0, 1, 2, 3, 4, 5], let d := devFch [desc0 op] DieSt.reset
      (Tab.getD (d.fch 0).waiting 0 [])[0]? = some (desc0 op) ∧ (desc0 op).op = op ∧ (desc0 op).planes = [0] ∧
      d.fchEligible 0 0 0 = true ∧ d.fchTurn 0 (d.fchEligQueues 0) = some 0 ∧ (d.fchTake 0 0 0).fchCheck 0 (desc0 op) = none) ∧
    ((devFch [desc0 2] { DieSt.reset with failed := true }).fchTake 0 0 0).fchCheck 0 (desc0 2) = some 0x56 ∧
    (devFch [desc0 2] { DieSt.reset with op := some (op0 1) }).fchEligible 0 0 0 = false ∧
    (let y := { DieSt.reset with erase := some (op0 3) }
     let d := (devFch [desc0 1] y).setFld (R.fchCtrl 0) F.fchCtrl_suspEn 1
     d.fchEligible 0 0 0 = false ∧ (d.fchReady 0 0 0).isSome = true ∧ d.mayReqSusp 0 (d.die 0 0) = false ∧ d.readWaits 0 0 = true ∧
     (let z := { y with suspCfg := setF 0#32 F.fchSusp_maxSusp 1 }
      let e := (devFch [desc0 1] z).setFld (R.fchCtrl 0) F.fchCtrl_suspEn 1
      e.mayReqSusp 0 (e.die 0 0) = true ∧ e.readWaits 0 0 = true ∧ (e.die 0 0).op = none)) ∧
    (let x := { desc0 4 with words := (desc0 4).words.set 6 0x2001#64 }
     x.setWp = true ∧ x.wp = 1 ∧ (desc0 4).setWp = false ∧ (x.markBad = false)) ∧
    (∀ o ∈ [op0 1, op0 2], ((devFch [] { DieSt.reset with op := some o }).die 0 0).op = some o ∧ ((devFch [] { DieSt.reset with op := some o }).die 0 0).erase = none) ∧
    (∀ v : Bool, ∀ w : Bool, let y := { DieSt.reset with erase := some (op0 3), susp := v, suspReq := w }
      ((devFch [] y).die 0 0) = y ∧ getF y.suspCfg F.fchSusp_hold * 10000 ≤ (devFch [] y).now - y.at' ∧ (devFch [] y).readWaits 0 0 = false) ∧
    addrTier (mkAddr 0 1 0) = 1 ∧ addrTier (mkAddr 0 3 0) ≠ 1 ∧ addrTier (mkAddr 0 3 0) ≠ 2 ∧
    (devFch [] { DieSt.reset with op := some (op0 1) }).fchRuns 0 0 = true ∧ (devFch [] DieSt.reset).fchRuns 0 0 = false ∧
    (let d := (devFch [desc0 1] DieSt.reset).setPair (R.fchQCqbLo 0 0) (mkAddr 0 1 0x9000).toNat
     let e : Dev := { d with herd := { d.herd with dir := [(memKey 1 0x9000, ⟨2, false, [1], [], 0, false, [], none, [], false, 0, false⟩)] } }
     d.fchOpen [d.fchCqRing 0 0] = true ∧ e.fchOpen [e.fchCqRing 0 0] = false) ∧
    (let x := { desc0 4 with words := (desc0 4).words.set 6 0x3FF0#64 }
     x.setMode = false ∧ x.wp ≠ wpFull ∧ cwCount false < x.wp ∧ x.setWp = true) := by decide
/-- A translation layer that is open, with some slots and waiting writes. -/
def devFtl (l : Tab WSlot) (w : List AdmWait) : Dev :=
  { Dev.reset with ftl := { FtlSt.reset with admOpen := true, ready := true, slots := l, waits := w } }
def slot0 : WSlot := ⟨LVer.zero, 0, false⟩
def wait0 (a : Asker) : AdmWait := ⟨5, [], [(0, 4096)], some [], false, false, a⟩
/-- FlashTranslation: no waiting write, one that may be admitted and one that may not, by whom it asks; a device retired; one dirty slot of a
fine unit; slots of each age; a reclaim due, with a victim, and over, above and below LOW; the idle timer; energies at 6 J. -/
theorem witness_translation :
    Dev.reset.ftl.waits = [] ∧
    (∀ a ∈ [Asker.none, .nvme 0 1 1], let d := devFtl [] [wait0 a]
      d.ftl.waits = [wait0 a] ∧ d.ftl.admOpen = true ∧ d.ftl.slots.length < wbSlots ∧ d.gcLow ≤ d.sbF ∧ d.ftl.retired = false ∧ d.sbNeed ≤ d.sbG) ∧
    ({ FtlSt.reset with retired := true, waits := [wait0 (.nvme 0 1 1)] } : FtlSt).retired = true ∧ FtlSt.reset.admOpen = false ∧
    (let d := (devFtl [(5, slot0)] []).setUnit 0 ⟨true, 3, []⟩
     (d.unit 0).fine = true ∧ (d.unit 0).written = [] ∧ Tab.find d.ftl.slots 5 = some slot0 ∧
     (∀ b', b' ≠ 5 → 16 * 0 ≤ b' → b' < 16 * 0 + 16 → Tab.find d.ftl.slots b' = none) ∧
     Tab.find d.ftl.slots 6 = none ∧ d.now < slot0.at' + 1000000000 ∧ (({ d with now := 1000000000 } : Dev).now ≥ slot0.at' + 1000000000) ∧
     256 * d.ftl.slots.length ≤ wbSlots * d.fld R.wbcCtrl F.wbcCtrl_hiwat ∧
     wbSlots * (d.setFld R.wbcCtrl F.wbcCtrl_hiwat 0).fld R.wbcCtrl F.wbcCtrl_hiwat < 256 * d.ftl.slots.length) ∧
    (let d := (devFtl [] []).setUnit 0 ⟨true, 3, [5]⟩
     5 ∈ (d.unit (5 / 16)).written ∧ LVer.zero.poisoned = false ∧ d.flag R.ftlHoldup F.ftlHoldup_wt = false ∧
     (d.setFld R.ftlHoldup F.ftlHoldup_wt 1).flag R.ftlHoldup F.ftlHoldup_wt = true) ∧
    Dev.reset.busAns rt R.wbcCtrl true = .ok ∧
    (let x : Sb := ⟨.closed, false, 0, 0, true⟩
     let d := (devFtl [] []).setFtl (fun f => { f with sbs := f.sbs ++ [(200, x)] })
     d.ftl.victim = none ∧ d.ftl.ready = true ∧ d.gcVictim = some 200 ∧ (∃ p ∈ d.ftl.sbs, p.2.failed = true ∧ p.2.use = .closed)) ∧
    (∀ low ∈ [64, 65535], let e := (devFtl [] []).setFtl (fun f => { f with victim := some (200, true, 0), sbs := f.sbs ++ [(200, ⟨.reclaiming, false, 0, 0, false⟩)] })
      let d := e.setFtl (fun f => { f with lim0 := setF f.lim0 F.ftlGcLim0_low low })
      d.ftl.victim = some (200, true, 0) ∧ d.groupFailed 200 = false ∧ (d.sb 200).failed = false ∧ (low = 64 → d.gcLow ≤ d.sbF)) ∧
    (let d := devFtl [] []
     d.now < d.ftl.lastWrite + d.fld R.ftlGcLim1 F.ftlGcLim1_idleMs * 1000000 ∧
     ({ d with now := 2 ^ 40 } : Dev).ftl.lastWrite + d.fld R.ftlGcLim1 F.ftlGcLim1_idleMs * 1000000 ≤ 2 ^ 40) ∧
    (5999 : Nat) < 6000 ∧ ¬ (6000 : Nat) < 6000 := by
  refine ⟨by decide, by decide, by decide, by decide, ⟨by decide, by decide, by decide, ?_, by decide, by decide, by decide, by decide, by decide⟩, by decide, by decide,
    ⟨by decide, by decide, by decide, ⟨(200, ⟨.closed, false, 0, 0, true⟩), by decide, by decide⟩⟩, by decide, by decide, by decide⟩
  intro b h _ _
  show Tab.find [(5, slot0)] b = none
  simp [Tab.find, Ne.symm h]
/-- An I/O command on queue 1 for namespace 1: one logical block, at 0. -/
def io0 : NvmeCmd := { cmd0 with sq := 1, nsid := 1 }
/-- A device whose port 0 is up, its controller ready, with completion queue 1 and submission queue 1, namespace 1 of 16 blocks attached, and
the port's right to partition 0 and to administer. -/
def devHost (k : Ctrl → Ctrl) : Dev :=
  let d := (((Dev.reset.setFld (R.hostLink 0) F.hostLink_up 1).setFld (R.hostRights 0) F.hostRights_parts 1).setFld (R.hostRights 0) F.hostRights_admin 1)
  { d with
    host := { HostSt.reset with
      ctrls := [(0, k { Ctrl.reset with en := true, rdy := true, sqs := [(1, ⟨64, 1, 0⟩)], cqs := [(1, ⟨64, 0, 0⟩)] })]
      nss := [(1, ⟨16, 0, [(0, 16)], [0]⟩)] }
    ftl := { FtlSt.reset with admOpen := true, ready := true } }
def stateHost (k : Ctrl → Ctrl) : State := { State.reset with dev := devHost k, aon := { AonSt.reset with mainGood := true, standby := true, running := some 1 } }
/-- IoCommands: a command that is taken and one that is not; namespaces that are there, attached, locked; the last block and one beyond; a
write admitted and one to a retired device; a good and a poisoned version; programs, range sets, the memory namespaces and collections. -/
theorem witness_io :
    (let d := devHost id
     d.ctrlLive 0 = true ∧ io0.sq ≠ 0 ∧ (Tab.find (d.ctrl 0).sqs io0.sq).isSome = true ∧ (d.ctrl 0).ps < 3 ∧ (d.ctrl 0).outst = [] ∧ Dev.reset.ctrlLive 0 = false ∧
     d.ns? 1 = some ⟨16, 0, [(0, 16)], [0]⟩ ∧ d.ns? 2 = none ∧ (devHost id).portMay 0 0 = true ∧ d.portMay 0 1 = false ∧
     Dev.nlb io0 = 1 ∧ Dev.slba { io0 with d10 := 15#32 } = 15 ∧ Dev.slba { io0 with d10 := 16#32 } = 16 ∧
     Dev.lbas ⟨16, 0, [(0, 16)], [0]⟩ 0 1 = [0] ∧ Dev.lbas ⟨16, 0, [(0, 16)], [0]⟩ 15 1 = [15] ∧
     d.ftl.waits = [] ∧ d.sbNeed ≤ d.sbG ∧ d.canAdmit 0 = true ∧ d.newest 0 = LVer.zero ∧ LVer.zero.poisoned = false) := by decide
/-- IoCommands: locked blocks, a retired device with a poisoned version, ranges to deallocate. -/
theorem witness_io_blocks :
    (stateHost id).locked 1 0 1 true = false ∧
    (let t : State := (stateHost id).onAon (fun a => { a with opal := { a.opal with enabled := true, globals := [(1, true, true, false)] } })
     t.locked 1 0 1 true = true ∧ t.locked 1 0 1 false = true) ∧
    (let d : Dev := { devHost id with ftl := { FtlSt.reset with retired := true, slots := [(0, ⟨{ LVer.zero with poisoned := true }, 0, false⟩)] } }
     d.ftl.retired = true ∧ (d.newest 0).poisoned = true ∧ d.sbNeed ≤ d.sbG) ∧
    (∀ n ∈ [16, 17], let q := { io0 with d11 := 4#32, data := List.replicate 4 0#8 ++ leBytes 4 n ++ List.replicate 8 0#8 }
      q.d11.getLsbD 2 = true ∧ q.d10.toNat % 256 = 0 ∧ leVal ((q.data.drop 8).take 8) = 0 ∧ leVal ((q.data.drop 4).take 4) = n) ∧
    io0.d11.getLsbD 2 = false := by decide
/-- IoCommands: programs and range sets. -/
theorem witness_io_programs :
    (∀ i ∈ [0, 63, 64], (({ io0 with d10 := BitVec.ofNat 32 i, d11 := 0x1000000#32, d12 := 0xFFFFFF#32, data := [0#8] } : NvmeCmd).d10.toNat % 65536 = i)) ∧
    (∀ v : Bool, let d := devHost id
      let e : Dev := { d with host := { d.host with progs := [(0, ⟨8, v⟩)] } }
      Tab.find e.host.progs 0 = some ⟨8, v⟩ ∧ Tab.find e.host.progs 1 = none) ∧
    (∀ c ∈ [0, 1], let q := { io0 with data := List.replicate 80 0#8 ++ leBytes 8 c ++ List.replicate 40 0#8 }
      bits64 ((Dev.wordsOf 16 q.data).getD 10 0#64) 0 4 = c) ∧
    (∀ n ∈ [0, 15, 16], Tab.firstFree ((List.range n).map (fun i => (i, ([] : List Byte)))) 16 0 = n) ∧
    (∀ n ∈ [0, 1, 2], (({ io0 with d10 := BitVec.ofNat 32 n } : NvmeCmd).d10.toNat % 16 = n)) := by decide
/-- IoCommands: the memory namespaces and collections. -/
theorem witness_io_memory :
    (let d : Dev := { devHost id with tier := { TierSt.reset with objs := [(0, { obj0 with tier := 1, base := 0, size := 4096 })], nextId := 1 } }
     d.slmRuns 0 0 8 = [(1, 0, 0, 8, true)] ∧ d.slmReady (d.slmRuns 0 0 8) true = true ∧ d.slmReady (d.slmRuns 0 0 8) false = true ∧
     (d.slmGet 0 [(1, 0, 0, 8, true)]).2.1 = false ∧ (d.slmRo [(1, 0, 0, 8, true)]).1 = false) ∧
    (let q := { io0 with nsid := 129, d12 := 1#32, data := leBytes 4 1 ++ List.replicate 12 0#8 }
     q.nsid = 129 + 0 ∧ leVal (q.data.take 4) = 1 ∧ leVal ((q.data.drop 8).take 8) + ceilDiv q.d12.toNat 4096 = 1) ∧
    (let d : Dev := { devHost id with search := { SearchSt.reset with colls := [(0, { coll0 with part := 0, dim := 16 })] } }
     (d.collFor 0 0).isSome = true ∧ d.collFor 1 0 = none ∧
     (let q := { io0 with d10 := 2#32, d14 := 1#32, data := leBytes 8 7 }
      q.data.length = 8 * q.d14.toNat ∧ 8 * q.d14.toNat ≤ 4 * q.d10.toNat) ∧
     (let q := { io0 with d10 := 12#32, d14 := 1#32, data := List.replicate 48 0#8 }
      q.data.length = q.d14.toNat * (32 + 16) ∧ q.d14.toNat * (32 + 16) ≤ 4 * q.d10.toNat ∧ (recordOf { coll0 with part := 0, dim := 16 } false q.data).2 = false)) := by decide
/-- IoCommands: a comparison that holds and one that does not. -/
theorem witness_compare (b : Byte) (l : List Byte) : (b :: l).take (b :: l).length = b :: l ∧ ([] : List Byte).take (b :: l).length ≠ b :: l := by simp
/-- An outstanding command of queue 1, of another identifier. -/
def out1 (fl : Nat) : Outst := ⟨{ io0 with cid := 2 }, .other, false, true, none, none, fl, 0⟩
/-- AdminCommands: a live port; commands to cancel, cancelled already and not there; events that wait, at 0, 15 and 16; queue identifiers 0, 1, 256
and 257, sizes 1, 2, 4,095 and 4,096, queues that are there and in use. -/
theorem witness_admin :
    ((devHost id).ctrlLive 0 = true ∧ cmd0.sq = 0 ∧ (∀ o ∈ ((devHost id).ctrl 0).outst, o.cmd.sq ≠ 0)) ∧
    (let c := (devHost (fun c => { c with outst := [out1 0] })).ctrl 0
     c.outst.find? (fun o => o.cmd.sq == 1 && o.cmd.cid == 2 && o.flags == 0) = some (out1 0) ∧ (∀ o ∈ c.outst, o.cmd.sq = 1 → o.cmd.cid = 3 → o.flags ≠ 0)) ∧
    (let c := (devHost (fun c => { c with outst := [out1 1] })).ctrl 0
     ∀ o ∈ c.outst, o.cmd.sq = 1 → o.cmd.cid = 2 → o.flags ≠ 0) ∧
    (∀ n ∈ [0, 15, 16], ((devHost (fun c => { c with aers := List.range n })).ctrl 0).aers.length = n ∧ ((devHost id).ctrl 0).events = []) ∧
    ((devHost (fun c => { c with events := [1#32] })).ctrl 0).events = [1#32] ∧
    (∀ lo ∈ [0, 1, 2, 256, 257], ∀ hi ∈ [0, 1, 4095, 4096], let q := { cmd0 with d10 := BitVec.ofNat 32 (lo + 65536 * hi), d11 := 0x10001#32 }
      q.d10.toNat % 65536 = lo ∧ q.d10.toNat / 65536 = hi ∧ q.d11.toNat / 65536 = 1 ∧ q.d11.getLsbD 0 = true) ∧
    (let c := (devHost id).ctrl 0
     (Tab.find c.cqs 1).isSome = true ∧ Tab.find c.cqs 2 = none ∧ (Tab.find c.sqs 1).isSome = true ∧ Tab.find c.sqs 2 = none ∧ (∃ x ∈ c.sqs, x.2.cq = 1)) ∧
    (let c := (devHost (fun c => { c with sqs := [] })).ctrl 0
     ∀ x ∈ c.sqs, x.2.cq ≠ 1) := by decide
/-- AdminCommands: log pages, features and power states, known and not; namespaces to make, to attach, to detach and to erase; the last one free and none;
formats. -/
theorem witness_admin_tables :
    (∀ n ∈ [0, 1, 2, 3, 6, 0xC0], ((({ cmd0 with d10 := BitVec.ofNat 32 n, d12 := 512#32 } : NvmeCmd).d10.toNat % 256 = n)) ∧
      ({ cmd0 with d12 := 512#32 } : NvmeCmd).d12.toNat + 2 ^ 32 * ({ cmd0 with d12 := 512#32 } : NvmeCmd).d13.toNat = 512) ∧
    (Dev.featKnown 3 = false ∧ Dev.featKnown 1 = true ∧ Dev.featKnown 2 = true ∧ (1 : Nat) ∉ [2, 7, 9, 0x0C, 0x0E]) ∧
    (∀ ps ∈ [0, 3, 4, 5], ((({ cmd0 with d10 := 2#32, d11 := BitVec.ofNat 32 ps } : NvmeCmd).d11.toNat % 32 = ps)) ∧ (devHost id).mayPs4 = true ∧
      ((devHost id).setFld R.addrNode F.addrNode_assigned 1).mayPs4 = false) ∧
    (∀ n ∈ [0, 15, 16], ∀ lbaf ∈ [0, 1, 2], let q := { cmd0 with data := leBytes 8 n ++ leBytes 8 n ++ List.replicate 10 0#8 ++ [BitVec.ofNat 8 lbaf, 0#8, 0#8, 0#8] }
      leVal ((q.data.drop 0).take 8) = n ∧ leVal ((q.data.drop 8).take 8) = n ∧ leVal ((q.data.drop 26).take 1) % 16 = lbaf ∧ leVal ((q.data.drop 29).take 1) = 0 ∧ q.d10.toNat % 16 = 0) ∧
    (∀ n ∈ [0, 127, 128], Tab.firstFree ((List.range n).map (fun i => (i + 1, (⟨16, 0, [], []⟩ : Ns)))) 128 1 = n + 1) ∧
    ((devHost id).nsExtents 16).isSome = true ∧ (devHost id).nsExtents (2 ^ 50) = none ∧
    (∀ i ∈ [0, 1], let q := { cmd0 with nsid := 1, d10 := BitVec.ofNat 32 i, data := leBytes 2 1 ++ leBytes 2 i }
      (List.range (min 2047 (leVal ((q.data.drop 0).take 2)))).map (fun i => leVal ((q.data.drop (2 + 2 * i)).take 2)) = [i] ∧
      ((devHost id).portUsed i = true ↔ i = 0) ∧ (i ∈ ([0] : List Nat) ↔ i = 0)) ∧
    (∀ i ∈ [0, 1, 2, 3, 4], ((({ cmd0 with d10 := BitVec.ofNat 32 (512 * i) } : NvmeCmd).d10.toNat / 512 % 8 = i)) ∧ (BitVec.ofNat 32 i).toNat % 8 = i) ∧
    ((devHost id).trimAll [(0, 16)]).ns? 1 = some ⟨16, 0, [(0, 16)], [0]⟩ := by decide
/-- A format with erasure leaves the namespace in the table. -/
theorem witness_format : ((stateHost id).cryptErase ((stateHost id).nsSlots 1) false).dev.ns? 1 = some ⟨16, 0, [(0, 16)], [0]⟩ := by decide
/-- An image whose header is good: magic, version 1, 256 bytes long. -/
def img0 : Img := ⟨[(0, 0x4A#8), (1, 0x56#8), (2, 0x46#8), (3, 0x57#8), (4, 1#8), (17, 1#8)], 256⟩
/-- A standby rail with an update that holds an image, by a path. -/
def aonUpd (p : UpdPath) : AonSt := { AonSt.reset with running := some 1, update := some ⟨p, img0.bytes, 256⟩ }
theorem storeImage_fine (s : State) (u : Update) (hu : s.aon.update = some u) (hi : imgCheck s.aon ⟨u.bytes, u.next⟩ = none) : s.storeImage.1 = none := by
  unfold State.storeImage
  rw [hu]
  dsimp only
  rw [hi]
/-- R509: an image with a good header passes when its signature does; with no update, or an empty one, nothing passes. -/
theorem witness_image (h : Config.sigValid img0.signed = true) :
    imgCheck AonSt.reset img0 = none ∧ (∀ p, ∃ t, ({ State.reset with aon := aonUpd p } : State).storeImage = (none, t)) ∧
    (∀ t : State, ∃ k u, ({ t with aon := { t.aon with update := none } } : State).storeImage = (some k, u)) ∧ ({ AonSt.reset with img1 := some img0 } : AonSt).slotValid 1 = true ∧
    AonSt.reset.slotValid 1 = false := by
  have c : imgCheck AonSt.reset img0 = none := by
    unfold imgCheck
    rw [if_neg (by decide), if_neg (by rw [h]; decide), if_neg (by decide)]
  have e : ∀ p, imgCheck (aonUpd p) img0 = none := fun _ => c
  refine ⟨c, fun p => ?_, fun t => ⟨0x6A, _, rfl⟩, ?_, rfl⟩
  · exact ⟨_, Prod.ext (storeImage_fine _ _ rfl (e p)) rfl⟩
  · show (imgCheck { AonSt.reset with img1 := some img0 } img0).isNone = true
    exact congrArg Option.isNone c
/-- AdminCommands, Management and FirmwareAndFawn: pieces of an update that follow on, that leave a gap, and that begin; another path's update. -/
theorem witness_updates :
    (∀ p ∈ [UpdPath.nvme, .pldm, .fawn],
      (AonSt.reset.piece p 0 [1#8]).isSome = true ∧ AonSt.reset.piece p 1 [1#8] = none ∧ ((aonUpd p).piece p 256 [1#8]).isSome = true ∧ (aonUpd p).piece p 255 [1#8] = none ∧
      ((aonUpd p).update.map (·.path) = some p)) ∧
    (AonSt.reset.other = 2 ∧ AonSt.reset.update = none) ∧
    (∀ fs ∈ [0, 1, 2, 3], ∀ ca ∈ [0, 1, 2, 4], let q := { cmd0 with d10 := BitVec.ofNat 32 (fs + 8 * ca) }
      q.d10.toNat % 8 = fs ∧ q.d10.toNat / 8 % 8 = ca) ∧
    (∀ n ∈ [1, 5, 7, 8], ({ cmd0 with d11 := BitVec.ofNat 32 n } : NvmeCmd).d11.toNat % 256 = n) ∧
    (∀ sp ∈ [0, 1, 2], ({ cmd0 with d10 := BitVec.ofNat 32 (sp * 2 ^ 24) } : NvmeCmd).d10.toNat / 2 ^ 24 = sp) ∧
    ((2 : Nat) ∈ State.admOpcodes ∧ (255 : Nat) ∉ State.admOpcodes) := by decide
/-- A partition's block: no cores or one, enabled, a slice of 10. -/
def pset (k : Nat) : List Byte := leBytes 8 k ++ leBytes 4 0 ++ leBytes 2 1 ++ leBytes 2 10 ++ List.replicate 48 0#8
/-- What PARTITION_SET makes of a partition before cores move. -/
def psetDev (part : Nat) (l : List Byte) : Dev :=
  let d := devHost id
  let h := fun (o c : Nat) => leVal ((l.drop o).take c)
  let cfg := setF (setF (setF (setF (d.reg (R.partCfg part)) F.partCfg_enable (h 12 1 % 2)) F.partCfg_priv (h 12 1 / 2 % 2)) F.partCfg_scrCkpt (h 12 1 / 4 % 2)) F.partCfg_slice (h 14 2)
  let e := (((d.partCfgWrite part cfg).partOryxWrite part (setF 0#32 F.partOryx_slots (h 16 2))).setFld (R.partHerd part) F.partHerd_share (h 18 1))
  (List.range 4).foldl (fun d t => d.setReg (R.tierQuota part t) (BitVec.ofNat 32 (h (20 + 4 * t) 4))) e
/-- VendorCommands: a right and the lack of it; blocks that give no core and one core; a change that clamps nothing. -/
theorem witness_vendor :
    ((devHost id).portAdmin 0 = true ∧ (devHost id).portAdmin 1 = false ∧ (devHost id).portMay 0 0 = true ∧ (devHost id).portMay 0 15 = false) ∧
    ((pset 0).length = 64 ∧ leVal (((pset 0).drop 0).take 8) = 0 ∧ leVal (((pset (2 ^ 63)).drop 0).take 8) = 2 ^ 63 ∧ leVal (((pset 0).drop 8).take 4) = 0) ∧
    ({ cmd0 with d10 := 16#32 } : NvmeCmd).d10.toNat * 4 = 64 := by decide
theorem witness_partition_set :
    (∀ k ∈ [0, 2 ^ 63], let v := psetDev 1 (pset k)
      (∀ i < 64, v.fld (R.partKuduOwn i) F.partKuduOwn_owner ≠ 1) ∧ (∀ i < 32, v.fld (R.partChamOwn i) F.partChamOwn_owner ≠ 1) ∧ v.reg R.partClampCnt = (devHost id).reg R.partClampCnt) ∧
    (let v := psetDev 1 (pset (2 ^ 63))
     let w := v.kuduOwnWrite 63 (setF 0#32 F.partKuduOwn_owner 1)
     (∀ i < 64, i ≠ 63 → w.fld (R.partKuduOwn i) F.partKuduOwn_owner ≠ 1) ∧ (∀ i < 32, w.fld (R.partChamOwn i) F.partChamOwn_owner ≠ 1) ∧
     w.reg R.partClampCnt = (devHost id).reg R.partClampCnt) := by decide +kernel
/-- VendorCommands: contexts in each state, of the port's partition and of another; operations; containers of a block, whole and cut. -/
theorem witness_vendor_contexts :
    (∀ st ∈ [CtxSt.running, .residentRunnable, .residentBlocked, .ending], ∀ p ∈ [0, 1], let x := { ctx0 with st := st, part := p }
      let d : Dev := { devHost id with ctxs := [(0, x)] }
      d.ctx? 0 = some x ∧ d.ctx? 1 = none ∧ (d.portMay 0 x.part = true ↔ p = 0)) ∧
    (let d : Dev := { devHost id with ctxs := [(0, ctx0)] }
     (d.endRequest 0).reg R.partClampCnt = d.reg R.partClampCnt ∧ (d.clearClamp 0).reg R.partClampCnt = d.reg R.partClampCnt) ∧
    (∀ op ∈ [0, 1, 2, 3, 4, 5, 6, 7, 8], let q := { cmd0 with d10 := 16#32, data := leBytes 8 op }
      bits64 ((Dev.wordsOf 8 (((q.data.take (4 * q.d10.toNat)) ++ List.replicate 64 0#8).take 64)).getD 0 0#64) 0 8 = op) ∧
    (∀ n ∈ [0, 1, 4], ({ cmd0 with d13 := BitVec.ofNat 32 n } : NvmeCmd).d13.toNat % 16 = n) := by decide
/-- An object of one byte in tier 1, at 0. -/
def objB : Obj := { obj0 with size := 1, base := 0 }
/-- A device with that object. -/
def devRind : Dev := { devHost id with tier := { TierSt.reset with objs := [(0, objB)], nextId := 1 } }
/-- A container of one block that is all zeros. -/
def rind1 : List Byte :=
  [0x52#8, 0x4E#8, 0x44#8, 0x31#8, 1#8, 0#8, 0#8, 0#8] ++ leBytes 8 1 ++ leBytes 8 1 ++ leBytes 8 64 ++ leBytes 8 72 ++ List.replicate 24 0#8 ++ leBytes 8 (rindEntry 1 0 0 []).toNat
/-- VendorCommands: the object that a container is read into and out of. -/
theorem witness_rind :
    devRind.rindBusy { cmd0 with d15 := BitVec.ofNat 32 (2 ^ 18), d14 := 0#32 } true = none ∧ devRind.findObj 0 (mkAddr 0 1 0) = some 0 ∧ devRind.findObj 0 (mkAddr 0 1 1) = none ∧
    Tab.find devRind.tier.objs 0 = some objB ∧ devRind.lready 1 0 1 true = true ∧ devRind.lready 1 0 1 false = true ∧ devRind.ftl.retired = false ∧
    (let h := fun (x c : Nat) => leVal ((rind1.drop x).take c)
     let e := BitVec.ofNat 64 (h 64 8)
     h 0 4 = 0x31444E52 ∧ h 4 1 = 1 ∧ h 5 1 % 16 = objB.fmt ∧ h 8 8 = 1 ∧ h 16 4 = 1 ∧ h 24 8 = 64 ∧ h 32 8 = 72 ∧ rindLen e = 0 ∧ rind1.length = 72 ∧
     (rindDecode objB.fmt e []).isSome = true) ∧
    leVal ((rind1.drop 5).take 1) % 16 ≠ 1 := by decide
/-- VendorCommands: a root and no root. -/
theorem witness_fabric : (devHost id).isRootCfg = false ∧ ((devHost id).setFld R.dirCfg F.dirCfg_root 1).isRootCfg = true ∧ ({ cmd0 with d10 := 64#32 } : NvmeCmd).d10.toNat * 4 = 256 := by decide
/-- ControllersAndPorts: a controller that is there, with its link down, and in D3; idle for its time and short of it; power states; links of each
width that may train. -/
theorem witness_controllers :
    ((devHost id).portUp 0 = true ∧ Dev.reset.portUp 0 = false ∧ ((devHost id).ctrl 0).d3 = false ∧ ((devHost (fun c => { c with d3 := true })).ctrl 0).d3 = true) ∧
    (∀ ps ∈ [3, 4], ∀ now ∈ [999999, 1000000],
      let e := 8 * ps + 256
      let d : Dev := { devHost (fun c => { c with feats := [(0x0C, 1#32)], apstTab := List.replicate 3 (BitVec.ofNat 64 e) }) with now := now }
      let c := d.ctrl 0
      d.ctrlLive 0 = true ∧ d.apstIdle = true ∧ (Tab.getD c.feats 0x0C 0#32).getLsbD 0 = true ∧ bitsOf ((c.apstTab.getD c.ps 0#64).toNat) 3 5 = ps ∧ c.ps < ps ∧
      bitsOf ((c.apstTab.getD c.ps 0#64).toNat) 8 24 = 1 ∧ (c.idleAt + 1000000 ≤ d.now ↔ now = 1000000) ∧ d.mayPs4 = true) ∧
    (∀ ps ∈ [2, 3], let d := devHost (fun c => { c with ps := ps })
      (d.ctrl 0).ps = ps ∧ d.portUsed 0 = true ∧ d.portUsed 1 = false ∧ (d.devPs = 3 ↔ ps = 3) ∧ (d.ctrl 0).lastOp = 0) ∧
    (devHost (fun c => { c with ps := 4 })).devPs = 4 ∧
    (∀ w ∈ [1, 2, 4, 8, 16], w ≤ portLanes (devHost id).portMode) ∧
    (let t : State := { State.reset with
        aon := { AonSt.reset with mainGood := true, step := 9 }
        dev := { Dev.reset with host := { HostSt.reset with ports := [(0, ⟨false, 0, true⟩), (1, ⟨false, 0, true⟩)] } } }
     t.mayTrain 0 = true ∧ State.reset.mayTrain 0 = false) ∧
    (∀ m ∈ [0, 1, 2], (Dev.reset.setFld R.hostPortcfg F.hostPortcfg_mode m).portMode = m ∧ portCount m = 2 ^ m) ∧
    (∀ o ∈ [0, 4, 8, 0x10, 0x14, 0x18, 0x44], alignDown o 4 = o) ∧ (3#32).toNat % 4 = 3 ∧ (4#32).toNat % 4 = 0 := by decide
/-- The standby rail of a device that runs its image. -/
def aonRun : AonSt := { AonSt.reset with running := some 1 }
def fawn0 : Fawn := { reason := 0, addr := 0#64, len := 0, off := 0, op := 0, status := 0, flags := 0, out := [] }
/-- Management: a port that is served in full, in Fawn mode, decommissioned, and not; identifiers known and not; the last byte of the VPD and one beyond;
tunnelled commands; sensors of each range; SPDM states; a nonce in and out of time; each transition of the life cycle. -/
theorem witness_management :
    (aonRun.standby = true ∧ aonRun.running.isSome = true ∧ aonRun.fawn = none ∧ aonRun.lcFuse = false ∧ AonSt.reset.running = none) ∧
    (let a : AonSt := { AonSt.reset with fawn := some fawn0 }
     a.standby = true ∧ a.fawn.isSome = true ∧ a.lcFuse = false ∧ a.update = none) ∧
    ({ AonSt.reset with lcFuse := true } : AonSt).lcFuse = true ∧
    (∀ id ∈ [0, 1, 3, 4], ((BitVec.ofNat 8 id).toNat ≠ 0 ∧ (BitVec.ofNat 8 id).toNat ≤ 3) ↔ (id = 1 ∨ id = 3)) ∧
    (∀ off ∈ [65535, 65536], off + [0#8].length ≤ 65536 ↔ off = 65535) ∧
    (((stateHost id).aon.mainGood = true ∧ (stateHost id).dev.portUsed 0 = true ∧ (stateHost id).dev.portUsed 1 = false) ∧ aonRun.mainGood = false) ∧
    (tunnelled 0x0A (stateHost id) 0 { cmd0 with cid := 0x10000 }).isSome = true ∧ (tunnelled 0 (stateHost id) 0 cmd0).isSome = false ∧
    (∀ i ∈ [0x100, 0x13F, 0x200, 0x20F, 0x280, 0x28F, 0x300, 0x31F, 0x400], (BitVec.ofNat 16 i).toNat = i) ∧
    ((aonUpd .pldm).update = some ⟨.pldm, img0.bytes, 256⟩ ∧ (aonUpd .fawn).update = some ⟨.fawn, img0.bytes, 256⟩) ∧
    (∀ n ∈ [0, 1, 2, 3], ({ aonRun with spdm := n, idKey := true } : AonSt).spdm = n) ∧ aonRun.idKey = false ∧ (0x80#32).getLsbD 7 = true ∧ (0x02#32).getLsbD 1 = true ∧
    (∀ t ∈ [59999999999, 60000000000], let a : AonSt := { aonRun with nonce := some ([1#8], 0), ns := t }
      (a.ns < 0 + 60000000000) ↔ t = 59999999999) ∧
    (∀ p ∈ [(0, 1), (1, 2), (1, 4), (2, 3), (2, 4), (3, 1), (3, 4)], lcAllowed p.1 p.2 = true) ∧ lcAllowed 0 2 = false ∧ lcAllowed 4 1 = false := by decide
/-- Management: a transition whose signature is good. -/
theorem witness_transition (sig : List Byte)
    (h : Config.sigValid (2#8 :: BitVec.ofNat 8 0 :: BitVec.ofNat 8 1 :: leBytes 8 Config.serial.toNat ++ [1#8] ++ [] ++ [] ++ sig) = true) :
    let a : AonSt := { aonRun with nonce := some ([1#8], 0) }
    (∃ n, a.nonce = some n ∧ n.1 = [1#8] ∧ a.ns < n.2 + 60000000000) ∧ lcAllowed a.lc 1 = true ∧
    Config.sigValid (2#8 :: BitVec.ofNat 8 a.lc :: BitVec.ofNat 8 1 :: leBytes 8 Config.serial.toNat ++ [1#8] ++ [] ++ a.ownerKey.getD [] ++ sig) = true :=
  ⟨⟨_, rfl, rfl, by decide⟩, by decide, h⟩
def ent1 : LogEnt := ⟨0#64, 0#64, 0#64, 0#64⟩
/-- FirmwareAndFawn: a poll with an entry; samples under, at and over the limits; settings with no copy and with either one newer; a security
version that may advance, and not yet; a boot with each outcome of its checks; Fawn mode with and without an update of another path. -/
theorem witness_firmware :
    (let d : Dev := { Dev.reset with flt := { Dev.reset.flt with ring := [(0, ent1)], unTahr := [(0, 1)] } }
     Tab.getD d.flt.unTahr 0 0 = 1 ∧ Tab.getD d.flt.unTahr 1 0 = 0 ∧ Tab.getD d.flt.unTahr 2 0 = 0 ∧ d.fld (R.fltRingTahr 0) F.fltRingTahr_tahr % 256 = 0 ∧
     Tab.find d.flt.ring 0 = some ent1) ∧
    (AonSt.reset.warned = [] ∧ (∀ i, i < 48 → Dev.reset.temp i < signedOf 12 (Dev.reset.fld R.tahrTempLim F.tahrTempLim_warn) ∧
      Dev.reset.temp i < signedOf 12 (Dev.reset.fld R.tahrTempLim F.tahrTempLim_crit)) ∧
     signedOf 12 (Dev.reset.fld R.tahrTempLim F.tahrTempLim_warn) ≤ signedOf 12 0x2A8 ∧ Dev.reset.flag R.tahrEvt F.tahrEvt_warn = false ∧
     Dev.reset.flag R.tahrEvt F.tahrEvt_crit = false) ∧
    (let d := Dev.reset.setFld (R.tahrTemp 1) F.tahrTemp_temp 0x2A8
     let a : AonSt := { AonSt.reset with warned := [1] }
     0 ∉ a.warned ∧ (∀ i ∈ a.warned, signedOf 12 (d.fld R.tahrTempLim F.tahrTempLim_warn) ≤ d.temp i) ∧
     (∀ i < 48, 0 < i → i ∉ a.warned → d.temp i < signedOf 12 (d.fld R.tahrTempLim F.tahrTempLim_warn))) ∧
    Dev.reset.busAns rt R.tahrSetCtrl true = .ok ∧ AonSt.reset.copyA = none ∧ AonSt.reset.copyB = none ∧
    (∀ n ∈ [0, 1, 2], let a : AonSt := { aonRun with copyA := some ⟨1, n, []⟩, copyB := some ⟨1, 1, []⟩ }
      a.copyA = some ⟨1, n, []⟩ ∧ a.copyB = some ⟨1, 1, []⟩) ∧
    (let a : AonSt := { aonRun with img1 := some { img0 with bytes := [(9, 5#8)] }, readyAt := some 0, ns := 600000000000 }
     ((a.running.bind a.img).map Img.svn).getD 0 = 5 ∧ a.svn = 0) ∧
    (AonSt.reset.step = 1 ∧ AonSt.reset.running = none ∧ AonSt.reset.fawn = none ∧ AonSt.reset.standby = true ∧ AonSt.reset.lcFuse = false ∧ AonSt.reset.pendAct = none ∧
      AonSt.reset.recov = false ∧ AonSt.reset.bootCnt < 3 ∧ AonSt.reset.slotValid 2 = false ∧ AonSt.reset.img 1 = none ∧ AonSt.reset.inputGood = true ∧ aonRun.step = 1) ∧
    imgCheck AonSt.reset ⟨[], 256⟩ = some 0x6A ∧
    (let a : AonSt := { AonSt.reset with copyA := some ⟨3, 1, []⟩ }
     a.chooseSettings { img0 with bytes := [(10, 3#8), (12, 1#8)] } = some ⟨3, 1, []⟩ ∧ (Img.setFmt { img0 with bytes := [(10, 3#8), (12, 1#8)] }) = 3) ∧
    (let a : AonSt := { aonUpd .pldm with fawn := some fawn0 }
     a.fawn = some fawn0 ∧ (∃ u, a.update = some u ∧ u.path ≠ .fawn)) := by
  refine ⟨by decide, by decide, by decide, by decide, by decide, by decide, by decide, by decide, by decide, by decide, by decide, rfl, ⟨_, rfl, by decide⟩⟩
/-- FirmwareAndFawn: an image that passes, in either slot. -/
theorem witness_boot (h : Config.sigValid img0.signed = true) :
    (∃ m, ({ AonSt.reset with img1 := some img0 } : AonSt).img 1 = some m ∧ imgCheck AonSt.reset m = none) ∧
    ({ AonSt.reset with img2 := some img0 } : AonSt).slotValid AonSt.reset.other = true := by
  refine ⟨⟨img0, rfl, (witness_image h).1⟩, ?_⟩
  show (imgCheck { AonSt.reset with img2 := some img0 } img0).isNone = true
  exact congrArg Option.isNone (witness_image h).1
/-- A report of cause 3 by Kudu core 5. -/
def flt3 (cls : Nat) : FaultReq := ⟨cls, 3, unitId 1 5, unitId 1 5, 0, 0#64, 0, false, false, none⟩
/-- FaultLogic: reports of each class, their slots free and held; a core that runs, is idle and is fenced; words to scrub; a granule and a bank to retire:
twice, no room, and at each limit. -/
theorem witness_faults :
    (∀ cls ∈ [0, 1, 2], (flt3 cls).trim = flt3 cls ∧ exemptCause (flt3 cls).cause = false ∧ (flt3 cls).cause ∉ [0, 1, 0x0D, 0x15] ∧ unitKind (flt3 cls).master = 1 ∧
      Dev.reset.flag (R.fltCapInfo (unitDie (flt3 cls).source) cls) F.fltCapInfo_valid = false ∧
      (Dev.reset.setFld (R.fltCapInfo (unitDie (flt3 cls).source) cls) F.fltCapInfo_valid 1).flag (R.fltCapInfo (unitDie (flt3 cls).source) cls) F.fltCapInfo_valid = true) ∧
    (((devOf ctx0).core 0).cur.isSome = true ∧ ((devOf ctx0).core 1).cur = none ∧ (devOf ctx0).isFenced (unitId 1 0) = false ∧
      ({ devOf ctx0 with flt := { (devOf ctx0).flt with fenced := [unitId 1 0] } } : Dev).isFenced (unitId 1 0) = true) ∧
    (∀ k ∈ [3, 4, 5, 8, 0x0D], Dev.reset.flag (R.fltInj (unitDie (unitId k 0))) F.fltInj_arm = false ∧ unitKind (unitId k 0) = k ∧ unitInst (unitId k 0) < 8) ∧
    (let d := Dev.reset.setFld (mcBase 3 0 + 0x18) F.hbmcScrub_hours 1
     d.fld (mcBase 3 0 + 0x18) F.hbmcScrub_hours ≠ 0 ∧ (Dev.reset.setFld (mcBase 3 0 + 0x18) F.hbmcScrub_hours 0).fld (mcBase 3 0 + 0x18) F.hbmcScrub_hours = 0 ∧
     Dev.lastWord (addrTier (mkAddr 0 1 0)) (addrOff (mkAddr 0 1 0)) = false) ∧
    (Dev.reset.busAns rt (R.fltCapInfo 0 2) true = .ok ∧ Dev.reset.busAns rt (R.fltInj 2) true = .ok ∧ Dev.reset.busAns rt (R.hbmcStatus 0 + 0x20) true = .ok ∧
      Dev.reset.busAns rt (R.lpcStatus 15 + 0x20) true = .ok) ∧
    (AonSt.reset.standby = true ∧ (∀ t ∈ [4999999, 5000000], AonSt.reset.standbyAt + 5000000 ≤ t ↔ t = 5000000)) ∧
    (ctrlOf 1 0 = (3, 0) ∧ ctrlOf 1 (4 * 4096) = (3, 0) ∧ ctrlOf 2 0 = (4, 0) ∧ spareFree Dev.reset 3 0 1 1 = true ∧ spareFree Dev.reset 4 0 0 (bankGranules 4) = true ∧
      spareFree devRind 3 0 0 1 = false ∧ Dev.reset.flt.retired.filter (fun x => x.ctrl == unitId 3 0) = [] ∧ Dev.reset.flt.retiring = []) ∧
    (let x : Retired := ⟨unitId 3 0, false, 0, 1⟩
     let d : Dev := { Dev.reset with flt := { Dev.reset.flt with retired := [x], retiring := [x] } }
     (∃ y ∈ d.flt.retired.filter (fun x => x.ctrl == unitId 3 0), y.old ≤ 0 ∧ 0 < y.old + (if y.bank then bankGranules 3 else 1)) ∧
     d.flt.retiring.find? (fun x => x.ctrl == unitId 3 0) = some x) ∧
    (∀ n ∈ [7, 8], ((List.range n).map (fun i => (⟨unitId 3 0, true, 6144 * i, 0⟩ : Retired))).length = n) ∧
    (let d := Dev.reset.setFlds (R.fltInj 0) [(F.fltInj_unit, unitId 3 0), (F.fltInj_kind, 2), (F.fltInj_arm, 1)]
     let bad : Dev := Dev.poisonRange Dev.reset (memKey 2 64) 8
     d.armed 1 0 = some (unitId 3 0, 2) ∧ d.resolve 1 0 = (1, 0) ∧ d.rindNew 1 0 = false ∧ d.poisoned (memKey 1 0) 64 = false ∧ d.retiredAddr 1 0 = false ∧
     Dev.reset.armed 1 0 = none ∧ bad.armed 2 64 = none ∧ bad.poisoned (memKey 2 64) 8 = true ∧ unitKind (unitId 0x0E 1) ≠ 1) := by decide
/-- PowerAndResets: a device that runs and one in reset; causes; input good and lost; samples at each end; heat; each step of start-up. -/
theorem witness_power :
    (let a := AonSt.reset
     a.mainGood = false ∧ a.step = 1 ∧ a.fawn = none ∧ ({ a with mainGood := true } : AonSt).mainGood = true ∧ a.inputGood = true ∧ ({ a with inputGood := false } : AonSt).inputGood = false ∧
     a.standby = true ∧ a.charged = false ∧ a.resetLow = false ∧ a.retired = []) ∧
    Dev.reset.ftl.admOpen = false ∧ Dev.reset.busAns rt R.pwrCtrl true = .ok ∧ Dev.reset.busAns rt R.pwrCap true = .ok ∧
    (∀ mv ∈ [0, 550, 551, 900, 4095], clampTo 550 900 mv = 550 ↔ mv ≤ 550) ∧
    (Dev.reset.flag R.tahrEvt F.tahrEvt_crit = false ∧ (Dev.reset.setFld R.tahrEvt F.tahrEvt_crit 1).flag R.tahrEvt F.tahrEvt_crit = true ∧
      (∀ c ∈ [250, 251, 450], max 250 (min c (Dev.reset.fld R.pwrStatus F.pwrStatus_inForce) - 25) < min c (Dev.reset.fld R.pwrStatus F.pwrStatus_inForce) ∨ c = 250 ∨
        Dev.reset.fld R.pwrStatus F.pwrStatus_inForce ≤ 250)) ∧
    ((∃ i, i < 40 ∧ 920 ≤ (Dev.reset.setFld (R.tahrTemp 39) F.tahrTemp_temp 920).temp i) ∧ ¬ (∃ i, i < 40 ∧ 920 ≤ Dev.reset.temp i) ∧
      520 ≤ (Dev.reset.setFld (R.tahrTemp 62) F.tahrTemp_temp 520).temp 62 ∧ ¬ 520 ≤ Dev.reset.temp 62) ∧
    (∀ k ∈ [0, 1, 2, 3, 4, 5, 6, 7, 8, 9], ({ aonRun with step := k, charged := true } : AonSt).step = k) ∧
    (Dev.reset.flt.raised = [] ∧ Dev.reset.devFatal = false ∧ Tab.find aonRun.setVals R.pwrCap = none ∧ Tab.getD aonRun.setVals setEnumStart 0#32 = 0#32) ∧
    (∀ us ∈ [9, 10, 99, 100], (BitVec.ofNat 16 us).toNat = us) := by decide
/-- MemoryBytes: a list in canonical form, and two lists that hold the same bytes. -/
theorem witness_memory : Memory.wf [(1, 2#8), (5, 1#8)] = true ∧ Memory.wf ([] : List Host.Cell) = true ∧ Memory.wf (Memory.write [] 3 [1#8, 0#8, 2#8]) = true := by decide
/-- StepTakesTheFront: an empty queue, with the main rails in regulation and without, and a queue of two. -/
theorem witness_step : State.reset.pending = [] ∧ State.reset.aon.mainGood = false ∧ (stateHost id).aon.mainGood = true ∧ (stateHost id).pending = [] ∧
    ({ State.reset with pending := [.coldReset, .ps3Wake] } : State).pending = [.coldReset, .ps3Wake] := by decide
/-- EveryStepKeepsTheRecords and ResetState: the records of reset meet their invariant, and so do the largest that there may be. -/
theorem witness_records : State.reset.aon.Inv ∧ (∀ c ∈ ({ State.reset with pending := [.coldReset] } : State).pending, c.wf = true) ∧
    ({ AonSt.reset with svn := 64, lc := 4, active := 2, pendAct := some 2, bootCnt := 3, thermCap := 250 } : AonSt).Inv := by
  refine ⟨⟨by decide, by decide, by decide, fun n h => by simp [State.reset, AonSt.reset] at h, by decide, by decide, by decide, by decide, by decide⟩, by decide, ?_⟩
  exact ⟨by decide, by decide, by decide, fun n h => Or.inr (Option.some.inj h).symm, by decide, by decide, by decide, by decide, by decide⟩

/-! ## The worked examples of the spec: expected values are the spec's own numbers -/

/-- The FP32 value nearest 0.1 in each narrower format (07_numerics, after Table 07-2). -/
theorem test_conversions : encF .bf16 (dec32 0x3DCCCCCD#32) = 0x3DCD ∧ encF .fp16 (dec32 0x3DCCCCCD#32) = 0x2E66 ∧ encF .e4m3 (dec32 0x3DCCCCCD#32) = 0x1D ∧
    encF .e5m2 (dec32 0x3DCCCCCD#32) = 0x2E := by decide
/-- R181: the same value rounded stochastically to E4M3, on both sides of 0xCCCC_D000. -/
theorem test_stochastic : encSR .e4m3 0x80000000 (dec32 0x3DCCCCCD#32) = 0x1D ∧ encSR .e4m3 0xD0000000 (dec32 0x3DCCCCCD#32) = 0x1C ∧
    encSR .e4m3 0xCCCCCFFF (dec32 0x3DCCCCCD#32) = 0x1D ∧ encSR .e4m3 0xCCCCD000 (dec32 0x3DCCCCCD#32) = 0x1C := by decide
/-- R188, R189: an INT8 channel with s = 0.0625 and z = −3: the inputs 2.96875, 9.0 and −0.03125 give 45, 127 and −3, which read back as 3.0, 8.125 and 0.0. -/
theorem test_quantise :
    (let u : Dev.ScaleUse := ⟨0x3D800000#32, -3, false, false⟩
     [0x403E0000#32, 0x41100000#32, 0xBD000000#32].map (fun x => (Dev.quantise .int8 u (dec32 x)).toInt) = [some 45, some 127, some (-3)] ∧
     [45, 127, -3].map (fun q => enc32 (Dev.dequantise .int8 u (FV.ofInt q))) = [0x40400000#32, 0x41020000#32, 0#32]) := by decide
/-- R173, R189: the same channel as MXFP8 E4M3 and as MXFP4, with amax = 300. -/
theorem test_mx_blocks :
    mxBlockScale .mxE4m3 [dec32 0x43960000#32, dec32 0x3DCCCCCD#32] = 0x7F ∧ mxCode .mxE4m3 (dec32 0x43960000#32) 0x7F = 0x79 ∧ mxCode .mxE4m3 (dec32 0x3DCCCCCD#32) 0x7F = 0x1D ∧
    mxBlockScale .mxE2m1 [dec32 0x43960000#32, dec32 0x3DCCCCCD#32] = 0x85 ∧ mxCode .mxE2m1 (dec32 0x43960000#32) 0x85 = 6 ∧ mxCode .mxE2m1 (dec32 0x3DCCCCCD#32) 0x85 = 0 := by decide
/-- R194: 32.0 on channel 5 of sixteen, all signs +1, spreads to ±8 and comes back. -/
theorem test_rotation :
    Dev.wht 4 false [] ((List.replicate 16 0#32).set 5 0x42000000#32) =
      [8, -8, 8, -8, -8, 8, -8, 8, 8, -8, 8, -8, -8, 8, -8, 8].map (fun (i : Int) => fofInt i) ∧
    Dev.wht 4 true [] (Dev.wht 4 false [] ((List.replicate 16 0#32).set 5 0x42000000#32)) = (List.replicate 16 0#32).set 5 0x42000000#32 := by decide +kernel
/-- R314, R318 to R321: sixteen scales of 2^−7 give H = 43 and weights of 2^29; vectors A and B, the query and both kinds of key. -/
theorem test_search_keys :
    (let ss := List.replicate 16 0x3C000000#32
     let us := normWeights ss 43
     let a : List Byte := [64#8, 32#8, 0#8, 0xF0#8]
     let b : List Byte := [40#8, 40#8, 40#8, 0#8]
     let q := [0x3F000000#32, 0x3E800000#32, 0x3E800000#32, 0xBE000000#32] ++ List.replicate 12 0#32
     let w := queryWeights 43 false q ss
     normShift ss = 43 ∧ us = List.replicate 16 (2 ^ 29) ∧ normTerm us a = 2886218022912 ∧ normTerm us b = 2576980377600 ∧
     w.1.take 4 = [16384, 8192, 8192, -4096] ∧ w.2.1 = 22 ∧ score w.1 a = 1376256 ∧ score w.1 b = 1310720 ∧
     rankKey 0 43 22 1376256 0 = (2 ^ 47 + 1376256, false) ∧ rankKey 2 43 22 1376256 2886218022912 = (140737489731583, false) ∧
     rankKey 2 43 22 1310720 2576980377600 = (140737489747967, false)) := by decide +kernel
/-- R318, R321: the cosine vectors C and D: their norms and keys. -/
theorem test_cosine_keys : normField true (2 ^ 42) = 524288 ∧ normField true (9 * 2 ^ 40) = 349525 ∧
    rankKey 1 43 22 1572864 524288 = (2 ^ 47 + 6144, false) ∧ rankKey 1 43 22 1376256 349525 = (2 ^ 47 + 3583, false) := by decide +kernel
/-- R68, R74: the address of the HBM granule on node 0x02A, its controller, and the clamps of an offset past the tier with a tier code of 7. -/
theorem test_addresses :
    mkAddr 0x02A 1 0x6000001000 = 0x02A2006000001000#64 ∧ ctrlOf 1 0x6000001000 = (3, 5) ∧
    (let d := Dev.reset.setFld R.addrNode F.addrNode_nodeId 0x02A
     let z := d.clampSteps (.ctx 0) true Dev.stay (mkAddr 0x02A 7 0xC000000000) 1
     z.tier = 1 ∧ z.off = 0xBFFFFFFF80 ∧ z.kinds.length = 2) := by decide
/-- R261, R262: an INT8 block that begins 05 00 00 00 07 00 09; the exponents 7, 8, 3 and 6 in the second plane. -/
theorem test_rind :
    zrunEnc 1 2 10 (zeroUnits 1 7 [5#8, 0#8, 0#8, 0#8, 7#8, 0#8, 9#8]) [5#8, 0#8, 0#8, 0#8, 7#8, 0#8, 9#8] = [0x00#8, 0x05#8, 0x82#8, 0x02#8, 0x07#8, 0x00#8, 0x09#8] ∧
    packBits 2 (plane2Bits 4 [7, 6, 8, 5] [7, 8, 3, 6]) = [0xF6#8, 0x13#8] ∧
    (plane2Bits 4 [7, 6, 8, 5] ([7, 6, 8, 5, 0])).length = 1 + 2 + 3 + 4 + 8 := by decide

/-! ## Commands of one step -/

/-- The state that a command leaves. -/
def leaves (o : Out) : Option State := match o with | .next t => some t | _ => none
/-- R522: a cap of 263 W is rounded down and clamped by one; 25 W is raised to 250 W; 475 W falls to 450 W. -/
theorem test_power_cap : (∀ p ∈ [(263, 250, 1), (300, 300, 0), (25, 250, 1), (475, 450, 1), (0, 250, 1)],
    ((leaves (exec (.pwrCapWrite rt (BitVec.ofNat 32 p.1)) State.reset)).map (fun t => (t.dev.fld R.pwrCap F.pwrCap_w, (t.dev.reg R.pwrClampCnt).toNat))) =
      some (p.2.1, p.2.2)) := by decide
/-- R466: a corrected fault while its slot is held is captured as contained, with ESC, and counts as contained alone. -/
theorem test_escalation :
    (let d := Dev.reset.setFld (R.fltCapInfo (unitDie (unitId 1 5)) 0) F.fltCapInfo_valid 1
     let b := unitDie (unitId 1 5)
     (leaves (exec (.faultReport (flt3 0)) { State.reset with dev := d })).map (fun t => (t.dev.fld (R.fltCapInfo b 1) F.fltCapInfo_valid, t.dev.reg (R.fltEscCnt b))) = some (1, 1#32)) := by decide
end Sys2Proof.Tests
end

section
/-! PROOFS. Bit fields of a register: which bits `setF` sets, what a field reads after it, and what remains of the fields that lie
apart (R12, R13). -/
namespace Sys2Proof.Machine

/-- Two bit fields share no bit. -/
def Fld.Apart (f g : Fld) : Prop := f.lo + f.w ≤ g.lo ∨ g.lo + g.w ≤ f.lo

theorem Fld.Apart.symm {f g : Fld} (h : f.Apart g) : g.Apart f := Or.symm h

theorem testBit_bitsOf (v lo w i : Nat) : (bitsOf v lo w).testBit i = (decide (i < w) && v.testBit (lo + i)) := by
  rw [bitsOf, Nat.testBit_mod_two_pow, Nat.testBit_div_two_pow, Nat.add_comm i lo]

/-- A number whose bits [lo + w - 1 : lo] are replaced, as the part below the field, the field and the part above. -/
theorem withBits_eq_parts (v lo w x : Nat) :
    withBits v lo w x = 2 ^ lo * (2 ^ w * (v / 2 ^ lo / 2 ^ w) + x % 2 ^ w) + v % 2 ^ lo := by
  have low : 2 ^ lo * (v / 2 ^ lo) + v % 2 ^ lo = v := Nat.div_add_mod v (2 ^ lo)
  have mid : 2 ^ w * (v / 2 ^ lo / 2 ^ w) + bitsOf v lo w = v / 2 ^ lo := Nat.div_add_mod (v / 2 ^ lo) (2 ^ w)
  rw [← mid, Nat.mul_add] at low
  rw [withBits, Nat.mul_add, Nat.mul_comm (bitsOf v lo w), Nat.mul_comm (x % 2 ^ w)]
  omega

theorem testBit_withBits (v lo w x i : Nat) :
    (withBits v lo w x).testBit i = if lo ≤ i ∧ i < lo + w then x.testBit (i - lo) else v.testBit i := by
  rw [withBits_eq_parts, Nat.testBit_two_pow_mul_add _ (Nat.mod_lt v (Nat.two_pow_pos lo)),
    Nat.testBit_two_pow_mul_add _ (Nat.mod_lt x (Nat.two_pow_pos w))]
  rcases Nat.lt_or_ge i lo with below | from_lo
  · rw [if_pos below, if_neg (by omega), Nat.testBit_mod_two_pow, decide_eq_true below, Bool.true_and]
  · rw [if_neg (by omega)]
    rcases Nat.lt_or_ge (i - lo) w with inside | above
    · rw [if_pos inside, if_pos (by omega), Nat.testBit_mod_two_pow, decide_eq_true inside, Bool.true_and]
    · rw [if_neg (by omega), if_neg (by omega), Nat.testBit_div_two_pow, Nat.testBit_div_two_pow]
      congr 1
      omega

/-- A bit of a register of which one field was set: within the field a bit of the new value, elsewhere as before. -/
theorem getLsbD_setF (v : W32) (f : Fld) (x : Nat) {i : Nat} (hi : i < 32) :
    (setF v f x).getLsbD i = if f.lo ≤ i ∧ i < f.lo + f.w then x.testBit (i - f.lo) else v.getLsbD i := by
  rw [setF, BitVec.getLsbD_ofNat, testBit_withBits, decide_eq_true hi, Bool.true_and, BitVec.testBit_toNat]

theorem testBit_getF (v : W32) (f : Fld) (i : Nat) : (getF v f).testBit i = (decide (i < f.w) && v.getLsbD (f.lo + i)) := by
  rw [getF, testBit_bitsOf, BitVec.testBit_toNat]

theorem getF_lt (v : W32) (f : Fld) : getF v f < 2 ^ f.w := Nat.mod_lt _ (Nat.two_pow_pos f.w)

/-- A field that was set reads the low bits of what it was set to. -/
theorem getF_setF_same (v : W32) {f : Fld} (x : Nat) (hf : f.lo + f.w ≤ 32) : getF (setF v f x) f = x % 2 ^ f.w := by
  refine Nat.eq_of_testBit_eq fun i => ?_
  rw [testBit_getF, Nat.testBit_mod_two_pow]
  by_cases hi : i < f.w
  · rw [getLsbD_setF v f x (by omega), if_pos (by omega), Nat.add_sub_cancel_left]
  · rw [decide_eq_false hi, Bool.false_and, Bool.false_and]

/-- A field that lies apart from the one that was set reads as before. -/
theorem getF_setF_apart (v : W32) {f g : Fld} (x : Nat) (h : f.Apart g) (hg : g.lo + g.w ≤ 32) : getF (setF v f x) g = getF v g := by
  refine Nat.eq_of_testBit_eq fun i => ?_
  rw [testBit_getF, testBit_getF]
  by_cases hi : i < g.w
  · have out : ¬ (f.lo ≤ g.lo + i ∧ g.lo + i < f.lo + f.w) := by unfold Fld.Apart at h; omega
    rw [getLsbD_setF v f x (by omega), if_neg out]
  · rw [decide_eq_false hi, Bool.false_and, Bool.false_and]

/-- Sets a field where there is a value for it. -/
def setSome (v : W32) (f : Fld) : Option Nat → W32
  | none => v
  | some x => setF v f x

theorem getF_setSome_same (v : W32) {f : Fld} (o : Option Nat) (hf : f.lo + f.w ≤ 32) :
    getF (setSome v f o) f = (o.map (· % 2 ^ f.w)).getD (getF v f) := by
  cases o with
  | none => rfl
  | some x => exact getF_setF_same v x hf

theorem getF_setSome_apart (v : W32) {f g : Fld} (o : Option Nat) (h : f.Apart g) (hg : g.lo + g.w ≤ 32) :
    getF (setSome v f o) g = getF v g := by
  cases o with
  | none => rfl
  | some x => exact getF_setF_apart v x h hg

theorem getLsbD_setSome_outside (v : W32) {f : Fld} (o : Option Nat) {i : Nat} (hi : i < 32) (h : i < f.lo ∨ f.lo + f.w ≤ i) :
    (setSome v f o).getLsbD i = v.getLsbD i := by
  cases o with
  | none => rfl
  | some x => exact (getLsbD_setF v f x hi).trans (if_neg (by omega))

/-- Sets, in the order of a list, each field for which `u` gives a value: the common form of `writeFields`, `readValue` and
`clearRc`. -/
def setEach (u : FieldSpec → Option Nat) (fs : List FieldSpec) (v : W32) : W32 := fs.foldl (fun acc f => setSome acc f.f (u f)) v

theorem setEach_cons (u : FieldSpec → Option Nat) (f : FieldSpec) (fs : List FieldSpec) (v : W32) :
    setEach u (f :: fs) v = setEach u fs (setSome v f.f (u f)) := rfl

/-- A bit in none of the fields is as before. -/
theorem getLsbD_setEach_outside (u : FieldSpec → Option Nat) (fs : List FieldSpec) (v : W32) {i : Nat} (hi : i < 32)
    (out : ∀ f ∈ fs, i < f.f.lo ∨ f.f.lo + f.f.w ≤ i) : (setEach u fs v).getLsbD i = v.getLsbD i := by
  induction fs generalizing v with
  | nil => rfl
  | cons f fs ih =>
    obtain ⟨outF, outFs⟩ := List.forall_mem_cons.mp out
    rw [setEach_cons, ih _ outFs, getLsbD_setSome_outside v (u f) hi outF]

/-- A field that lies apart from all of a list reads as before. -/
theorem getF_setEach_apart (u : FieldSpec → Option Nat) (fs : List FieldSpec) (v : W32) {g : Fld} (hg : g.lo + g.w ≤ 32)
    (apart : ∀ f ∈ fs, f.f.Apart g) : getF (setEach u fs v) g = getF v g := by
  induction fs generalizing v with
  | nil => rfl
  | cons f fs ih =>
    obtain ⟨apartF, apartFs⟩ := List.forall_mem_cons.mp apart
    rw [setEach_cons, ih _ apartFs, getF_setSome_apart v (u f) apartF hg]

/-- Where the fields of a list lie apart, each reads the value that `u` gives for it, or as before where it gives none. -/
theorem getF_setEach (u : FieldSpec → Option Nat) {fs : List FieldSpec} (v : W32) (apart : fs.Pairwise (fun f g => f.f.Apart g.f))
    (within : ∀ f ∈ fs, f.f.lo + f.f.w ≤ 32) {g : FieldSpec} (hg : g ∈ fs) :
    getF (setEach u fs v) g.f = ((u g).map (· % 2 ^ g.f.w)).getD (getF v g.f) := by
  induction fs generalizing v with
  | nil => cases hg
  | cons f fs ih =>
    obtain ⟨apartF, apartFs⟩ := List.pairwise_cons.mp apart
    obtain ⟨withinF, withinFs⟩ := List.forall_mem_cons.mp within
    rw [setEach_cons]
    rcases List.mem_cons.mp hg with rfl | later
    · rw [getF_setEach_apart u fs _ withinF fun f hf => (apartF f hf).symm, getF_setSome_same v (u g) withinF]
    · rw [ih _ apartFs withinFs later, getF_setSome_apart v (u f) (apartF g later) (withinFs g later)]

end Sys2Proof.Machine
end

section
/-! PROOFS. The access codes of Table 00-3 (R12, R13) and the event counters (R65). -/
namespace Sys2Proof.Machine

/-- What a write of v to a register that holds old sets a field to, by its access code. -/
def writtenField (old v : W32) (f : FieldSpec) : Option Nat :=
  match f.acc with
  | .rw => some (getF v f.f)
  | .w1c => some (getF old f.f &&& (2 ^ f.f.w - 1 - getF v f.f))
  | .w1s => some (getF old f.f ||| getF v f.f)
  | _ => none

/-- A field is set to 0 where it has one access code. -/
def zeroedField (a : Access) (f : FieldSpec) : Option Nat := if f.acc = a then some 0 else none

theorem writeFields_eq_setEach (fs : List FieldSpec) (old v : W32) : writeFields fs old v = setEach (writtenField old v) fs old := by
  refine congrArg (fun put => fs.foldl put old) (funext fun acc => funext fun f => ?_)
  unfold writtenField
  cases f.acc <;> rfl

theorem foldl_zero_eq_setEach (a : Access) (fs : List FieldSpec) (v : W32) :
    fs.foldl (fun acc f => if f.acc = a then setF acc f.f 0 else acc) v = setEach (zeroedField a) fs v := by
  refine congrArg (fun put => fs.foldl put v) (funext fun acc => funext fun f => ?_)
  unfold zeroedField
  split <;> rfl

theorem readValue_eq_setEach (fs : List FieldSpec) (v : W32) : readValue fs v = setEach (zeroedField .wo) fs v :=
  foldl_zero_eq_setEach .wo fs v

theorem clearRc_eq_setEach (fs : List FieldSpec) (v : W32) : clearRc fs v = setEach (zeroedField .rc) fs v :=
  foldl_zero_eq_setEach .rc fs v

/-- A register's fields lie apart and within its 32 bits (R13). -/
def FieldsApart (fs : List FieldSpec) : Prop :=
  fs.Pairwise (fun f g => f.f.Apart g.f) ∧ ∀ f ∈ fs, f.f.lo + f.f.w ≤ 32

section
variable {fs : List FieldSpec} (ok : FieldsApart fs) {f : FieldSpec} (hf : f ∈ fs)
include ok hf

/-- A write stores RW, clears what is written 1 of W1C, sets what is written 1 of W1S and leaves every other field. -/
theorem getF_writeFields (old v : W32) : getF (writeFields fs old v) f.f =
    (match f.acc with
      | .rw => getF v f.f
      | .w1c => getF old f.f &&& (2 ^ f.f.w - 1 - getF v f.f)
      | .w1s => getF old f.f ||| getF v f.f
      | _ => getF old f.f) := by
  have fitsV := getF_lt v f.f
  have fitsOld := getF_lt old f.f
  rw [writeFields_eq_setEach, getF_setEach _ _ ok.1 ok.2 hf]
  unfold writtenField
  cases f.acc with
  | rw => exact Nat.mod_eq_of_lt fitsV
  | w1c => exact Nat.mod_eq_of_lt (Nat.and_lt_two_pow _ (by omega))
  | w1s => exact Nat.mod_eq_of_lt (Nat.or_lt_two_pow fitsOld fitsV)
  | ro => rfl
  | rc => rfl
  | wo => rfl

theorem getF_setEach_zeroed (a : Access) (v : W32) : getF (setEach (zeroedField a) fs v) f.f = if f.acc = a then 0 else getF v f.f := by
  rw [getF_setEach _ _ ok.1 ok.2 hf]
  unfold zeroedField
  split
  · exact Nat.zero_mod _
  · rfl

theorem getF_readValue (v : W32) : getF (readValue fs v) f.f = if f.acc = .wo then 0 else getF v f.f := by
  rw [readValue_eq_setEach, getF_setEach_zeroed ok hf]

theorem getF_clearRc (v : W32) : getF (clearRc fs v) f.f = if f.acc = .rc then 0 else getF v f.f := by
  rw [clearRc_eq_setEach, getF_setEach_zeroed ok hf]

end

/-- Reserved bits are as before a write, and as they stand in what a read returns and leaves (R13). -/
theorem reserved_bits_kept (fs : List FieldSpec) (old v : W32) {i : Nat} (hi : i < 32) (out : ∀ f ∈ fs, i < f.f.lo ∨ f.f.lo + f.f.w ≤ i) :
    (writeFields fs old v).getLsbD i = old.getLsbD i ∧ (readValue fs v).getLsbD i = v.getLsbD i ∧
      (clearRc fs v).getLsbD i = v.getLsbD i := by
  rw [writeFields_eq_setEach, readValue_eq_setEach, clearRc_eq_setEach]
  exact ⟨getLsbD_setEach_outside _ fs old hi out, getLsbD_setEach_outside _ fs v hi out, getLsbD_setEach_outside _ fs v hi out⟩

/-- R13 for the register tables of the spec, block by block. -/
theorem blkRegs_fieldsApart (b : Blk) : ∀ s ∈ blkRegs b, FieldsApart s.fields := by
  unfold FieldsApart Fld.Apart
  cases b <;> decide

namespace Dev

theorem fld_setFld_same (d : Dev) (a : Nat) {f : Fld} (x : Nat) (hf : f.lo + f.w ≤ 32) : (d.setFld a f x).fld a f = x % 2 ^ f.w := by
  unfold fld setFld
  rw [reg_setReg_same, getF_setF_same _ _ hf]

theorem reg_setFld_other (d : Dev) {a b : Nat} (f : Fld) (x : Nat) (h : b ≠ a) : (d.setFld a f x).reg b = d.reg b :=
  reg_setReg_other d _ h

theorem flag_setFld_one (d : Dev) (a : Nat) {f : Fld} (hw : f.w = 1) (hlo : f.lo < 32) : (d.setFld a f 1).flag a f = true := by
  unfold flag
  rw [fld_setFld_same d a 1 (by omega), hw]
  rfl

theorem count_of_lt {d : Dev} {cnt : Nat} (evt : Nat) (ovf : Fld) (h : (d.reg cnt).toNat < 0xFFFFFFFF) :
    d.count cnt evt ovf = d.setReg cnt (d.reg cnt + 1#32) := if_neg (Nat.ne_of_lt h)

theorem count_of_last {d : Dev} {cnt : Nat} (evt : Nat) (ovf : Fld) (h : (d.reg cnt).toNat = 0xFFFFFFFF) :
    d.count cnt evt ovf = d.setFld evt ovf 1 := if_pos h

/-- Counting changes registers alone. -/
theorem count_eq_regs (d : Dev) (cnt evt : Nat) (ovf : Fld) : d.count cnt evt ovf = { d with regs := (d.count cnt evt ovf).regs } := by
  unfold count
  split <;> rfl

end Dev
end Sys2Proof.Machine
end

section
/-! PROOFS. The statements about registers and reset. -/
namespace Sys2Proof.Machine

/-- Settles O30: a write, a read and a clear on read each set some fields in turn (`setEach`), and fields that lie apart do not
disturb one another; the register tables are checked block by block; a counter's two branches give R65. -/
theorem registerFields : Obligations.RegisterFields := by
  refine ⟨fun fs old v apart within => ⟨fun f hf => ?_, fun i hi out => reserved_bits_kept fs old v hi out⟩, blkRegs_fieldsApart,
    fun d cnt evt ovf hne hw hlo => ⟨fun below => ?_, fun last => ?_, d.count_eq_regs cnt evt ovf⟩⟩
  · have ok : FieldsApart fs := ⟨apart, within⟩
    exact ⟨getF_writeFields ok hf old v, getF_readValue ok hf v, getF_clearRc ok hf v⟩
  · rw [Dev.count_of_lt evt ovf below]
    exact ⟨reg_setReg_same d cnt _, fun a ha => reg_setReg_other d _ ha⟩
  · rw [Dev.count_of_last evt ovf last]
    exact ⟨d.reg_setFld_other ovf 1 hne, d.flag_setFld_one evt hw hlo, fun a ha => d.reg_setFld_other ovf 1 ha⟩

/-- The standby records of reset meet their invariant. -/
theorem AonSt.reset_inv : AonSt.reset.Inv :=
  ⟨Nat.zero_le _, Nat.zero_le _, .inl rfl, nofun, Nat.zero_le _, by decide, Nat.le_refl _, Nat.zero_le _, Nat.le_refl _⟩

/-- With no register listed, each reads its reset value (R12). -/
theorem Dev.reset_reg (a : Nat) : Dev.reset.reg a = regReset a := rfl

/-- Settles O60: reset lists nothing, so that every register reads the reset value of its row in the tables. -/
theorem resetState : Obligations.ResetState := by
  unfold Obligations.ResetState
  exact ⟨AonSt.reset_inv, rfl, rfl, rfl, Memory.reset_wf, rfl, rfl, rfl, rfl, rfl, rfl, rfl, rfl, Dev.reset_reg, by decide, by decide, by decide,
    by decide, by decide⟩

end Sys2Proof.Machine
end

section
/-! PROOFS. The die-to-die links: what the receipt of a flit and the retraining of a module do, case by case (R28 to R33). -/
namespace Sys2Proof.Machine
namespace Dev

/-- How far a flit's place, of which 16 bits travel, lies ahead of the next one that a direction takes (R30). -/
def d2dAhead (x : D2dDir) (sq : Nat) : Nat := (sq + 65536 - x.next % 65536) % 65536

/-- The flit of a place: what the sender's replay buffer holds for it, on the module that carries it now (R30). -/
def d2dCarried (x : D2dDir) (m sq vc : Nat) (e : List Byte) : D2dFlit :=
  { (Tab.find x.replay (x.next + d2dAhead x sq)).getD ⟨m, vc, flitPayload e⟩ with mdl := m }

theorem d2dAhead_next {x : D2dDir} {sq : Nat} (inOrder : sq = x.next % 65536) : d2dAhead x sq = 0 := by
  unfold d2dAhead
  omega

section receive
variable {d : Dev} {l m sq : Nat} (up : Bool) (vc : Nat) (e : List Byte)

/-- A module out of service receives nothing. -/
theorem d2dReceive_of_down (down : d.d2dUp l m = false) (good : Bool) : d.d2dReceive l up m sq vc good e = d :=
  if_pos (by rw [down]; rfl)

/-- What the receiving adapter does on a module in service, with the local names of the definition spelled out. -/
theorem d2dReceive_of_up (inService : d.d2dUp l m = true) (good : Bool) :
    let x := d.d2dDir (l * 2 + b2n up)
    let y := d.d2dMod l m
    let f := d2dCarried x m sq vc e
    let held : D2dDir := { x with replay := if d2dAhead x sq < 32768 then Tab.put x.replay (x.next + d2dAhead x sq) f else x.replay }
    d.d2dReceive l up m sq vc good e =
      if !good then
        ((d.setD2dMod l m { y with replays := lastMs d.now y.replays, due := y.due || decide (16 < (lastMs d.now y.replays).length) }).setD2dDir
          (l * 2 + b2n up) { held with refused := true }).d2dReplayed (d2dRx l up)
      else if d2dAhead x sq = 0 && !d.dcqFrozen 6 (d2dRx l up) up && (d.dcq (dcqKey 6 (d2dRx l up) up)).items.length < 64 then
        (d.setD2dDir (l * 2 + b2n up) ⟨x.next + 1, false, Tab.del x.replay x.next⟩).dcqPut 6 (d2dRx l up) up (BitVec.ofNat 8 f.vc :: f.payload)
      else d.setD2dDir (l * 2 + b2n up) held :=
  if_neg (by rw [inService]; decide)

/-- A flit that fails its CRC is refused, counted and reported, and stays in the replay buffer (R30, R31). -/
theorem d2dReceive_bad (inService : d.d2dUp l m = true) (near : d2dAhead (d.d2dDir (l * 2 + b2n up)) sq < 32768) :
    let x := d.d2dDir (l * 2 + b2n up)
    let y := d.d2dMod l m
    d.d2dReceive l up m sq vc false e =
      ((d.setD2dMod l m { y with replays := lastMs d.now y.replays, due := y.due || decide (16 < (lastMs d.now y.replays).length) }).setD2dDir
        (l * 2 + b2n up)
        { x with replay := Tab.put x.replay (x.next + d2dAhead x sq) (d2dCarried x m sq vc e), refused := true }).d2dReplayed (d2dRx l up) := by
  rw [d2dReceive_of_up up vc e inService, if_pos near]
  rfl

/-- A good flit next in order that finds room goes on, and its sender forgets it (R30). -/
theorem d2dReceive_taken (inService : d.d2dUp l m = true) (inOrder : sq = (d.d2dDir (l * 2 + b2n up)).next % 65536)
    (runs : d.dcqFrozen 6 (d2dRx l up) up = false) (room : (d.dcq (dcqKey 6 (d2dRx l up) up)).items.length < 64) :
    let x := d.d2dDir (l * 2 + b2n up)
    let f := d2dCarried x m sq vc e
    d.d2dReceive l up m sq vc true e =
      (d.setD2dDir (l * 2 + b2n up) ⟨x.next + 1, false, Tab.del x.replay x.next⟩).dcqPut 6 (d2dRx l up) up (BitVec.ofNat 8 f.vc :: f.payload) := by
  rw [d2dReceive_of_up up vc e inService, d2dAhead_next inOrder, runs, decide_eq_true room]
  rfl

/-- A good flit next in order that finds no room stays in the replay buffer (R30, R54). -/
theorem d2dReceive_full (inService : d.d2dUp l m = true) (inOrder : sq = (d.d2dDir (l * 2 + b2n up)).next % 65536)
    (full : d.dcqFrozen 6 (d2dRx l up) up = true ∨ 64 ≤ (d.dcq (dcqKey 6 (d2dRx l up) up)).items.length) :
    let x := d.d2dDir (l * 2 + b2n up)
    d.d2dReceive l up m sq vc true e =
      d.setD2dDir (l * 2 + b2n up) { x with replay := Tab.put x.replay x.next (d2dCarried x m sq vc e) } := by
  have noRoom : (!d.dcqFrozen 6 (d2dRx l up) up && decide ((d.dcq (dcqKey 6 (d2dRx l up) up)).items.length < 64)) = false := by
    rcases full with frozen | long
    · rw [frozen]; rfl
    · rw [decide_eq_false (Nat.not_lt.mpr long), Bool.and_false]
  rw [d2dReceive_of_up up vc e inService, Bool.and_assoc, noRoom, d2dAhead_next inOrder]
  rfl

end receive

section retrain
variable {d : Dev} {l m : Nat}

/-- What is done at both ends of a link is done at the first, then at the second. -/
theorem foldl_d2dEnds (f : Dev → Nat → Dev) (d : Dev) (l : Nat) : (d2dEnds l).foldl f d = f (f d (2 * l)) (2 * l + 1) := rfl

/-- One end of a link shows and counts a retraining (R31). -/
def d2dRetrainShown (d : Dev) (e : Nat) : Dev :=
  ((d.setFld (R.d2dStatus e) F.d2dStatus_retraining 1).setFld (R.d2dEvt e) F.d2dEvt_retrain 1).count (R.d2dRetrainCnt e) (R.d2dEvt e) F.d2dEvt_retrainOvf

/-- One module of a link at a time retrains, and where there is a reason to (R31, R33). -/
theorem d2dRetrain_starts {lanes : Bool} (inService : d.d2dUp l m = true) (alone : ∀ i, i < d2dBuilt l → (d.d2dMod l i).retraining = false)
    (reason : lanes = true ∨ (d.d2dMod l m).due = true ∨ 0 < (d.d2dMod l m).fails) :
    d.d2dRetrain l m lanes =
      ((((d.setD2dMod l m { d.d2dMod l m with retraining := true }).d2dRehome l m).d2dRetrainShown (2 * l)).d2dRetrainShown (2 * l + 1)).raise
        ⟨0, 0x05, unitId 6 (2 * l), unitId 6 (2 * l), 6, 0#64, 0, false, false, none⟩ := by
  have idle : (List.range (d2dBuilt l)).any (fun i => (d.d2dMod l i).retraining) = false :=
    List.any_eq_false.mpr fun i hi => by rw [alone i (List.mem_range.mp hi)]; decide
  have due : (lanes || (d.d2dMod l m).due || decide (0 < (d.d2dMod l m).fails)) = true := by
    simpa [or_assoc] using reason
  unfold d2dRetrain
  exact (if_neg (by rw [inService, idle, due]; decide)).trans (congrArg (fun u : Dev => u.raise _) (foldl_d2dEnds d2dRetrainShown _ l))

/-- A module that does not retrain ends no retraining. -/
theorem d2dRetrained_of_idle (idle : (d.d2dMod l m).retraining = false) (good : Bool) : d.d2dRetrained l m good = d :=
  if_pos (by rw [idle]; rfl)

/-- How a retraining ends: well, in a failure, or in the second failure in a row, which fences the module (R31). -/
theorem d2dRetrained_ends (busy : (d.d2dMod l m).retraining = true) (good : Bool) :
    let y := d.d2dMod l m
    let u := (d2dEnds l).foldl (fun d e => d.setFld (R.d2dStatus e) F.d2dStatus_retraining 0) d
    d.d2dRetrained l m good =
      if good then u.setD2dMod l m D2dMod.reset
      else if 1 ≤ y.fails then (u.setD2dMod l m { y with retraining := false }).d2dFence l m
      else u.setD2dMod l m { y with retraining := false, fails := y.fails + 1 } :=
  if_neg (by rw [busy]; decide)

end retrain
end Dev

section
variable {l : Fin 3} {m : Fin 16} {s : State} {u : Dev}

theorem exec_d2dFlitReceive {up : Bool} {sq : BitVec 16} {vc : BitVec 4} {good : Bool} {e : List Byte}
    (h : s.dev.d2dReceive l up m sq.toNat vc.toNat good e = u) :
    exec (.d2dFlitReceive l up m sq vc good e) s = .next (State.settled { s with dev := u }) := by
  rw [← h]; rfl

theorem exec_d2dModuleRetrain {lanes : Bool} (h : s.dev.d2dRetrain l m lanes = u) :
    exec (.d2dModuleRetrain l m lanes) s = .next (State.settled { s with dev := u }) := by
  rw [← h]; rfl

theorem exec_d2dRetrainComplete {good : Bool} (h : s.dev.d2dRetrained l m good = u) :
    exec (.d2dRetrainComplete l m good) s = .next (State.settled { s with dev := u }) := by
  rw [← h]; rfl

end

/-- Settles O33: each clause is one case of the receipt of a flit or of the start or the end of a retraining. -/
theorem dieToDieLinks : Obligations.DieToDieLinks := by
  intro l up m s
  refine ⟨fun sq vc good e down => ?_, fun sq vc e inService inOrder runs room => ?_, fun sq vc e inService inOrder full => ?_,
    fun sq vc e inService near => ?_, fun lanes inService alone reason => ?_, fun good idle => ?_, fun busy => ⟨?_, fun first => ?_, fun again => ?_⟩⟩
  · exact exec_d2dFlitReceive (Dev.d2dReceive_of_down up _ e down good)
  · exact exec_d2dFlitReceive (Dev.d2dReceive_taken up _ e inService inOrder runs room)
  · exact exec_d2dFlitReceive (Dev.d2dReceive_full up _ e inService inOrder full)
  · exact exec_d2dFlitReceive (Dev.d2dReceive_bad up _ e inService near)
  · exact exec_d2dModuleRetrain (Dev.d2dRetrain_starts inService alone reason)
  · exact exec_d2dRetrainComplete (Dev.d2dRetrained_of_idle idle good)
  · exact exec_d2dRetrainComplete (Dev.d2dRetrained_ends busy true)
  · have once : ¬ 1 ≤ (s.dev.d2dMod l m).fails := by omega
    refine exec_d2dRetrainComplete ((Dev.d2dRetrained_ends busy false).trans ((if_neg once).trans ?_))
    rw [first]
    rfl
  · have failed : 1 ≤ (s.dev.d2dMod l m).fails := by omega
    exact exec_d2dRetrainComplete ((Dev.d2dRetrained_ends busy false).trans (if_pos failed))

end Sys2Proof.Machine
end

section
/-! PROOFS. Accesses of a Chamois core, from the place of an address to what is left of it (R35, R72, R74, R106 to R108). -/
namespace Sys2Proof.Machine

theorem Tab.del_of_find_none {α : Type} {t : Tab α} {k : Nat} (h : Tab.find t k = none) : Tab.del t k = t := by
  induction t with
  | nil => rfl
  | cons p r ih =>
    obtain ⟨j, w⟩ := p
    by_cases hj : j = k
    · rw [Tab.find, if_pos hj] at h
      cases h
    · rw [Tab.find, if_neg hj] at h
      rw [Tab.del, if_neg hj, ih h]

theorem length_leBytes (n v : Nat) : (leBytes n v).length = n := by
  induction n generalizing v with
  | zero => rfl
  | succ n ih => rw [leBytes, List.length_cons, ih]

namespace Dev

/-- The place of an address of this device of which nothing is clamped. -/
def ownPlace (d : Dev) (a : W64) : Place := ⟨d.nodeId, addrTier a, addrOff a, []⟩

theorem isHere_ownPlace {d : Dev} {a : W64} (tier : addrTier a ≠ 5) : d.isHere (d.ownPlace a) = true :=
  (if_neg tier).trans (beq_self_eq_true d.nodeId)

/-- An address of tiers 0 to 4 of this device, of a tier that the operation may use, is its own place: nothing is clamped (R74). -/
theorem clampSteps_inside {d : Dev} {k : Nat} {redirect : Nat → Nat} {a : W64} (n : Nat) (node : addrNode a = d.nodeId)
    (tier : addrTier a < 5) (free : redirect (addrTier a) = addrTier a) (inside : addrOff a < d.tierSize (addrTier a)) :
    d.clampSteps (.cham k) false redirect a n = d.ownPlace a := by
  have not5 : ¬ addrTier a = 5 := by omega
  have not6 : ¬ 6 ≤ addrTier a := by omega
  have fits : ¬ d.tierSize (addrTier a) ≤ addrOff a := by omega
  simp [clampSteps, ownPlace, sizeFor, node, not5, not6, free, fits]

/-- A range within its tier is one run. -/
theorem spanRuns_inside {d : Dev} {p : Place} {n : Nat} (inside : p.off + n ≤ d.tierSize p.tier) : d.spanRuns p n = [(p.off, n)] :=
  if_pos (by rw [decide_eq_true inside]; rfl)

/-- What a core's read of a range leaves: what the range's checkers met, and its lines shared by the die's caches. -/
def chamSaw (d : Dev) (k : Nat) (p : Place) (n : Nat) : Dev :=
  cacheHere d (k / 16) false (d.hereLines p.tier [(p.off, n)]) (d.lmeet (unitId 2 k) p.tier p.off n)
/-- What a core's write leaves: the bytes in u, the device after the read that came before it, if any, and the lines owned. -/
def chamWrote (d : Dev) (k : Nat) (p : Place) (n : Nat) (u : Dev) (l : List Byte) : Dev :=
  cacheHere d (k / 16) true (d.hereLines p.tier [(p.off, n)]) (u.lwrite p.tier p.off l)

section here
variable {d : Dev} {k n : Nat} {p : Place} (inside : p.off + n ≤ d.tierSize p.tier)
  (room : (d.hereLines p.tier [(p.off, n)]).any d.noRoom = false)
include inside room

/-- A read of a range whose lines are ready and which is not poisoned gives its bytes; the die's caches share its lines (R293). -/
theorem chamHere_read (ready : d.lholds p.tier p.off n false = []) (clean : (d.lread p.tier p.off n).2 = false) :
    d.chamHere k p n true none = .bytes (d.lread p.tier p.off n).1 (d.chamSaw k p n) := by
  have nothing : (d.hereLines p.tier [(p.off, n)]).filter d.noRoom = [] := List.filter_eq_nil_iff.mpr (List.any_eq_false.mp room)
  unfold chamHere
  simp [spanRuns_inside inside, ready, nothing, room, clean, chamSaw]

/-- A write, or a read and a write, of such a range changes its bytes; the die's caches own its lines (R293). -/
theorem chamHere_write {rd : Bool} {f : List Byte → List Byte} (ready : d.lholds p.tier p.off n true = [])
    (takes : d.lcanWrite p.tier p.off n = true) (clean : rd = true → (d.lread p.tier p.off n).2 = false)
    (size : (f (d.lread p.tier p.off n).1).length = n) :
    d.chamHere k p n rd (some f) = .bytes (d.lread p.tier p.off n).1
      (d.chamWrote k p n (if rd then d.lmeet (unitId 2 k) p.tier p.off n else d) (f (d.lread p.tier p.off n).1)) := by
  have nothing : (d.hereLines p.tier [(p.off, n)]).filter d.noRoom = [] := List.filter_eq_nil_iff.mpr (List.any_eq_false.mp room)
  have readable : (rd && (d.lread p.tier p.off n).2) = false := by
    cases rd with
    | false => rfl
    | true => exact clean rfl
  have whole : (f (d.lread p.tier p.off n).1).take n = f (d.lread p.tier p.off n).1 := List.take_of_length_le (Nat.le_of_eq size)
  unfold chamHere
  simp [spanRuns_inside inside, ready, takes, nothing, room, readable, whole, List.range_succ, chamWrote]

end here

/-- The line of a place of this device, under which a reservation is held (R106). -/
theorem resvKey_here {d : Dev} {p : Place} (here : d.isHere p = true) :
    d.resvKey p = memKey (d.resolve p.tier p.off).1 ((d.resolve p.tier p.off).2 - (d.resolve p.tier p.off).2 % 128) :=
  if_pos here

/-- A store's write: the value's low bytes. -/
theorem chamHere_put {d : Dev} {k n : Nat} {p : Place} (v : W64) (inside : p.off + n ≤ d.tierSize p.tier)
    (room : (d.hereLines p.tier [(p.off, n)]).any d.noRoom = false) (ready : d.lholds p.tier p.off n true = [])
    (takes : d.lcanWrite p.tier p.off n = true) :
    d.chamHere k p n false (some fun _ => leBytes n v.toNat) =
      .bytes (d.lread p.tier p.off n).1 (d.chamWrote k p n d (leBytes n v.toNat)) :=
  chamHere_write inside room ready takes nofun (length_leBytes n v.toNat)

section access
variable {d : Dev} {p : Place} (k n : Nat) (v : W64) (here : d.isHere p = true)
include here

/-- A store-conditional of a core that does not hold the reservation of the line answers 1 and holds none after it. -/
theorem chamAccess_sc_lost {op : MemOp} (sc : op = .sc ∨ op = .scRl) (lost : ∀ b, Tab.find d.resv k ≠ some (b, d.resvKey p)) :
    d.chamAccess k p op n v false = (true, { d.gives 1#64 false with resv := Tab.del d.resv k }) := by
  rcases found : Tab.find d.resv k with _ | ⟨b, key⟩
  · have unchanged : d.gives 1#64 false = { d.gives 1#64 false with resv := Tab.del d.resv k } := by
      rw [Tab.del_of_find_none found]
      rfl
    rw [← unchanged]
    rcases sc with rfl | rfl <;> simp [chamAccess, here, found]
  · have other : key ≠ d.resvKey p := fun same => lost b (same ▸ found)
    rcases sc with rfl | rfl <;> simp [chamAccess, here, found, other]

section ready
variable (inside : p.off + n ≤ d.tierSize p.tier) (room : (d.hereLines p.tier [(p.off, n)]).any d.noRoom = false)
include inside room

section read
variable (ready : d.lholds p.tier p.off n false = []) (clean : (d.lread p.tier p.off n).2 = false)
include ready clean

theorem chamAccess_load :
    d.chamAccess k p .load n v false = (true, (d.chamSaw k p n).gives (BitVec.ofNat 64 (leVal (d.lread p.tier p.off n).1)) false) := by
  simp [chamAccess, here, chamHere_read inside room ready clean]

theorem chamAccess_lr {op : MemOp} (lr : op = .lr ∨ op = .lrAq) :
    d.chamAccess k p op n v false =
      (true, { (d.chamSaw k p n).gives (BitVec.ofNat 64 (leVal (d.lread p.tier p.off n).1)) false with
        resv := Tab.put (d.chamSaw k p n).resv k (placeAddr p, d.resvKey p) }) := by
  rcases lr with rfl | rfl <;> simp [chamAccess, here, chamHere_read inside room ready clean, gives]

end read

section write
variable (ready : d.lholds p.tier p.off n true = []) (takes : d.lcanWrite p.tier p.off n = true)
include ready takes

theorem chamAccess_store :
    d.chamAccess k p .store n v false = (true, (d.chamWrote k p n d (leBytes n v.toNat)).flags 0) := by
  simp [chamAccess, here, chamHere_put v inside room ready takes, b2n]

/-- A store-conditional of a core that holds the reservation of the line writes, answers 0 and gives the reservation up. -/
theorem chamAccess_sc_held {op : MemOp} {b : W64} (sc : op = .sc ∨ op = .scRl) (held : Tab.find d.resv k = some (b, d.resvKey p)) :
    d.chamAccess k p op n v false =
      (true, { (d.chamWrote k p n d (leBytes n v.toNat)).gives 0#64 false with
        resv := Tab.del (d.chamWrote k p n d (leBytes n v.toNat)).resv k }) := by
  rcases sc with rfl | rfl <;> simp [chamAccess, here, held, chamHere_put v inside room ready takes, gives]

theorem chamAccess_amo {op : MemOp} {f : Fin 9} {aq rl : Bool} (amo : op = .amo f ∨ op = .amoOrd f aq rl)
    (clean : (d.lread p.tier p.off n).2 = false) :
    d.chamAccess k p op n v false =
      (true, (d.chamWrote k p n (d.lmeet (unitId 2 k) p.tier p.off n)
        (leBytes n (amoVal f n (leVal (d.lread p.tier p.off n).1) v.toNat))).gives
          (BitVec.ofNat 64 (leVal (d.lread p.tier p.off n).1)) false) := by
  have run := chamHere_write (k := k) (rd := true) (f := fun old => leBytes n (amoVal f n (leVal old) v.toNat)) inside room ready takes
    (fun _ => clean) (length_leBytes n _)
  rcases amo with rfl | rfl <;> simp [chamAccess, here, run]

end write
end ready
end access

/-- The device as an access of a core that is made finds it: without an exception of the core's from before. -/
def chamFresh (d : Dev) (k : Nat) : Dev := { d with chamExc := Tab.del d.chamExc k }

end Dev

section
variable {s : State} {k n : Nat} {a v : W64} {op : MemOp}

theorem chamAccess_of_stopped (stopped : s.dev.chamRuns k = false) : s.chamAccess k a op n v = s :=
  if_pos (by rw [stopped]; rfl)

/-- The place of an address of this device of tiers 0 to 4. -/
theorem chamFresh_clampSteps {redirect : Nat → Nat} (node : addrNode a = s.dev.nodeId)
    (inside : addrOff a + 2 ^ n ≤ s.dev.tierSize (addrTier a)) (tier : addrTier a < 5) (free : redirect (addrTier a) = addrTier a) :
    (s.dev.chamFresh k).clampSteps (.cham k) false redirect a (2 ^ n) = s.dev.ownPlace a :=
  Dev.clampSteps_inside (2 ^ n) node tier free (show addrOff a < s.dev.tierSize (addrTier a) by have := Nat.two_pow_pos n; omega)

variable (runs : s.dev.chamRuns k = true)
include runs

theorem chamAccess_fence : s.chamAccess k a .fence n v = { s with dev := s.dev.chamFence k (s.dev.chamOuts k) } := by
  simp [State.chamAccess, runs]

/-- A core at a fence, and a release form with requests outstanding, wait (R107, R283). -/
theorem chamAccess_of_waits (access : op ≠ .fence) (waits : (s.dev.chamHeld k || (op.releases && !(s.dev.chamOuts k).isEmpty)) = true) :
    s.chamAccess k a op n v = s := by
  unfold State.chamAccess
  rw [if_neg (by rw [runs]; decide), if_neg access]
  exact if_pos waits

variable (goes : (s.dev.chamHeld k || (op.releases && !(s.dev.chamOuts k).isEmpty)) = false)
include goes

/-- An atomic that is not aligned raises its exception (R106). -/
theorem chamAccess_misaligned (atomic : op.atomic = true) (wide : 2 ≤ n) (odd : a.toNat % 2 ^ n ≠ 0) :
    s.chamAccess k a op n v = { s with dev := (s.dev.chamFresh k).chamFault k (if op.isLr then 4 else 6) } := by
  have access : op ≠ .fence := by rintro rfl; cases atomic
  have narrow : ¬ n < 2 := by omega
  simp [State.chamAccess, runs, access, goes, atomic, narrow, odd, Dev.chamFresh]

section placed
variable (node : addrNode a = s.dev.nodeId) (inside : addrOff a + 2 ^ n ≤ s.dev.tierSize (addrTier a))
include node inside

/-- A store to tier 3 of this device is not made (R72). -/
theorem chamAccess_store_tier3 (store : op = .store) (tier : addrTier a = 3) :
    s.chamAccess k a op n v = { s with dev := (s.dev.chamFresh k).chamFault k 7 } := by
  have place := chamFresh_clampSteps (k := k) node inside (redirect := Dev.stay) (by omega) rfl
  have fits : ¬ (s.dev.chamFresh k).tierSize 3 < addrOff a + 2 ^ n := Nat.not_lt.mpr (tier ▸ inside)
  subst store
  rw [Dev.ownPlace, tier] at place
  unfold Dev.chamFresh at place fits ⊢
  simp [State.chamAccess, runs, goes, MemOp.atomic, place, fits, Dev.noteClamps]

/-- An access to HBM or LPDDR of this device, aligned where it must be, is made at its own address. -/
theorem chamAccess_here (access : op ≠ .fence) (aligned : op.atomic = true → 2 ≤ n ∧ a.toNat % 2 ^ n = 0) (tier : addrTier a = 1 ∨ addrTier a = 2) :
    s.chamAccess k a op n v = { s with dev :=
      ((s.dev.chamFresh k).chamAccess k (s.dev.ownPlace a) op (2 ^ n) v false).2 } := by
  have fits : ¬ (s.dev.chamFresh k).tierSize (addrTier a) < addrOff a + 2 ^ n := Nat.not_lt.mpr inside
  have not3 : addrTier a ≠ 3 := by omega
  have not4 : addrTier a ≠ 4 := by omega
  have placed {redirect : Nat → Nat} := chamFresh_clampSteps (k := k) (redirect := redirect) node inside (by omega)
  unfold Dev.chamFresh at placed fits ⊢
  cases atomic : op.atomic with
  | false =>
    have place := placed (redirect := Dev.stay) rfl
    simp [State.chamAccess, runs, access, goes, atomic, place, Dev.ownPlace, fits, not3, not4, Dev.noteClamps]
  | true =>
    obtain ⟨wide, even⟩ := aligned atomic
    have narrow : ¬ n < 2 := by omega
    have place := placed (redirect := Dev.noT34) (by rcases tier with t | t <;> rw [t] <;> rfl)
    simp [State.chamAccess, runs, access, goes, atomic, narrow, even, place, Dev.ownPlace, fits, not3, not4, Dev.noteClamps]

end placed
end

section
variable {k : Fin 32} {n : Fin 4} {a v : W64} {op : MemOp} {s : State}

theorem exec_chamoisMemoryAccess {t : State} (h : s.chamAccess k a op n v = t) :
    exec (.chamoisMemoryAccess k a op n v) s = .next t.settled := by
  rw [← h]; rfl

/-- The command of an access to HBM or LPDDR of this device that is not held back leaves what the access leaves at its own place. -/
theorem exec_chamoisMemoryAccess_here {done : Bool} {u : Dev} (runs : s.dev.chamRuns k = true)
    (goes : (s.dev.chamHeld k || (op.releases && !(s.dev.chamOuts k).isEmpty)) = false) (node : addrNode a = s.dev.nodeId)
    (inside : addrOff a + 2 ^ n.val ≤ s.dev.tierSize (addrTier a)) (tier : addrTier a = 1 ∨ addrTier a = 2) (access : op ≠ .fence)
    (aligned : op.atomic = true → 2 ≤ n.val ∧ a.toNat % 2 ^ n.val = 0)
    (made : (s.dev.chamFresh k).chamAccess k (s.dev.ownPlace a) op (2 ^ n.val) v false = (done, u)) :
    exec (.chamoisMemoryAccess k a op n v) s = .next (State.settled { s with dev := u }) :=
  exec_chamoisMemoryAccess ((chamAccess_here runs goes node inside access aligned tier).trans (by rw [made]))

end

/-- Settles O34: an access that is held back, misaligned or a store to tier 3 ends before its place is reached; every other one of
the statement is made at the address's own place, where the access of its operation says what it leaves. -/
theorem chamoisAccesses : Obligations.ChamoisAccesses := by
  intro k a op n v s
  refine ⟨fun stopped => ?_, fun runs => ?_, fun runs access waits => ?_, fun runs goes atomic wide odd => ?_,
    fun runs free node tier inside => ?_, fun runs goes node tier inside room => ?_⟩
  · exact exec_chamoisMemoryAccess (chamAccess_of_stopped stopped)
  · exact exec_chamoisMemoryAccess (chamAccess_fence runs)
  · exact exec_chamoisMemoryAccess (chamAccess_of_waits runs access waits)
  · refine exec_chamoisMemoryAccess ((chamAccess_misaligned runs goes atomic wide odd).trans ?_)
    cases op <;> rfl
  · exact exec_chamoisMemoryAccess (chamAccess_store_tier3 runs (by rw [free]; rfl) node (tier ▸ inside) rfl tier)
  · have here : (s.dev.chamFresh k).isHere (s.dev.ownPlace a) = true := Dev.isHere_ownPlace (d := s.dev.chamFresh k) (by omega)
    have key := Dev.resvKey_here here
    have run {u : Dev} := exec_chamoisMemoryAccess_here (v := v) (done := true) (u := u) runs goes node inside tier
    refine ⟨fun ready clean => ⟨fun load => ?_, fun wide even lr => ?_⟩,
      fun ready takes => ⟨fun store => ?_, fun wide even => ⟨fun b sc held => ?_, fun clean f aq rl amo => ?_⟩⟩, fun wide even sc lost => ?_⟩
    · subst load
      exact run nofun nofun (Dev.chamAccess_load k _ v here inside room ready clean)
    · have made := Dev.chamAccess_lr k _ v here inside room ready clean lr
      rw [key] at made
      exact run (by rcases lr with rfl | rfl <;> nofun) (fun _ => ⟨wide, even⟩) made
    · subst store
      exact run nofun nofun (Dev.chamAccess_store k _ v here inside room ready takes)
    · have holder := held.trans (congrArg (fun j => some (b, j)) key.symm)
      exact run (by rcases sc with rfl | rfl <;> nofun) (fun _ => ⟨wide, even⟩) (Dev.chamAccess_sc_held k _ v here inside room ready takes sc holder)
    · exact run (by rcases amo with rfl | rfl <;> nofun) (fun _ => ⟨wide, even⟩) (Dev.chamAccess_amo k _ v here inside room ready takes amo clean)
    · exact run (by rcases sc with rfl | rfl <;> nofun) (fun _ => ⟨wide, even⟩) (Dev.chamAccess_sc_lost k _ v here sc (key ▸ lost))

end Sys2Proof.Machine
end

section
/-! PROOFS. Changes of the device alone, and the register bus: how an access that the bus answers is made (R66, R79 to R82). -/
namespace Sys2Proof.Machine

theorem onDev_congr {s : State} {f g : Dev → Dev} (h : f s.dev = g s.dev) : s.onDev f = s.onDev g :=
  congrArg (fun d => { s with dev := d }) h

theorem onDev_eq_self {s : State} {f : Dev → Dev} (h : f s.dev = s.dev) : s.onDev f = s := onDev_congr (g := id) h

theorem next_onDev_congr {s : State} {f g : Dev → Dev} (h : f s.dev = g s.dev) : (.next (s.onDev f) : Out) = .next (s.onDev g) :=
  congrArg _ (onDev_congr h)

theorem next_onDev_eq_self {s : State} {f : Dev → Dev} (h : f s.dev = s.dev) : (.next (s.onDev f) : Out) = .next s :=
  congrArg _ (onDev_eq_self h)

theorem next_settled_congr {s t : State} (h : s = t) : (.next s.settled : Out) = .next t.settled := by rw [h]

theorem toNat_joinScale (v w : W32) : (Dev.joinScale (v, w)).toNat = v.toNat + 2 ^ 32 * w.toNat := by
  have hv := v.isLt
  have hw := w.isLt
  rw [Dev.joinScale, BitVec.toNat_ofNat]
  dsimp only
  omega

namespace Dev

/-- An offset at which no register lies is a hole (R79). -/
theorem busAns_of_regAt_none (d : Dev) (r : Req) {a : Nat} (wr : Bool) (nothing : regAt a = none) : d.busAns r a wr = .hole := by
  rw [busAns, nothing]

/-- A write to a register of a fenced unit is not made (R80). -/
theorem busWrite_frozen {d : Dev} {r : Req} {a : Nat} (frozen : d.busAns r a true = .frozen) (v : W32) : d.busWrite r a v = (false, d) := by
  unfold busWrite
  cases there : regAt a with
  | none => rw [d.busAns_of_regAt_none r true there] at frozen; cases frozen
  | some x => rw [frozen]

/-- A register whose write has no effect of its own is written by its fields' access codes. -/
theorem regWrite_plain (d : Dev) {x : RegAt} (h : Nat) (v : W32)
    (plain : x.row.blk = .cap ∨ x.row.blk = .hl ∧ x.spec.off ≠ 0 ∨ x.row.blk = .addr ∨ x.row.blk = .pwr) :
    d.regWrite x h v = d.setReg h (writeFields x.spec.fields (d.reg h) v) := by
  unfold regWrite
  rcases plain with blk | ⟨blk, off⟩ | blk | blk
  · rw [blk]
  · rw [blk]; simp [off]
  · rw [blk]
  · rw [blk]

theorem isTs_eq_false {x : RegAt} (noTs : x.row.blk ≠ .ts) : isTs x = false := by
  rw [isTs, beq_false_of_ne noTs]; rfl

section
variable {d : Dev} {r : Req} {a : Nat} {x : RegAt} (there : regAt a = some x)
include there

theorem halfOf_eq_true {wr : Bool} {h : PairHalf} (half : x.spec.pair = h) (reached : d.busAns r a wr ≠ .hole) : d.halfOf r a wr h = true := by
  simp [halfOf, there, half, reached]

theorem pairAt_eq_some {wr : Bool} (low : x.spec.pair = .low) (reached : d.busAns r a wr ≠ .hole) : d.pairAt r a wr = some x := by
  simp [pairAt, there, low, reached]

section
variable (ok : d.busAns r a true = .ok) (v : W32)
include ok

theorem busWrite_single (single : x.spec.pair = .none) : d.busWrite r a v = (false, d.regWrite x (regHome x a) v) := by
  simp only [busWrite, there, ok, single]

/-- A pair's high word is held until its low word is written (R82). -/
theorem busWrite_high (high : x.spec.pair = .high) :
    d.busWrite r a v = (false, { d with shadow := Tab.del d.shadow (regHome x a - 4), held := Tab.put d.held (regHome x a - 4) v }) := by
  simp only [busWrite, there, ok, high]

/-- A pair's low word is written with the high word that is held, or with the one it has (R82). -/
theorem busWrite_low (low : x.spec.pair = .low) :
    let h := regHome x a
    d.busWrite r a v = (false, ({ d with shadow := Tab.del d.shadow h, held := Tab.del d.held h } : Dev).pairWrite r x h v
      ((Tab.find d.held h).getD (d.reg (h + 4)))) := by
  simp only [busWrite, there, ok, low]

end

section read
variable (aon : AonSt) {y : RegAt} (low : x.spec.pair = .low) (reached : d.busAns r a false ≠ .hole) (next : regAt (a + 4) = some y)
  (noTs : x.row.blk ≠ .ts)
include low reached next noTs

/-- A pair's low word reads with its high word kept for the next read of that (R82). -/
theorem busRead_low :
    let h := regHome x a
    d.busRead aon r a = (readValue x.spec.fields (d.liveReg aon r 0 x h), false,
      { d with shadow := Tab.put d.shadow h (readValue y.spec.fields (d.liveReg aon r 0 y (h + 4))) }) := by
  simp [busRead, there, reached, low, next, isTs_eq_false noTs]

end read
end

theorem busReadN_word (d : Dev) (aon : AonSt) (r : Req) {a : Nat} (aligned : a % 4 = 0) :
    d.busReadN aon r a 2 = ((d.busRead aon r a).1.setWidth 64, (d.busRead aon r a).2) :=
  if_pos (by rw [decide_eq_true aligned]; rfl)

theorem busWriteN_word (d : Dev) (r : Req) {a : Nat} (v : W64) (aligned : a % 4 = 0) :
    d.busWriteN r a 2 v = d.busWrite r a (BitVec.ofNat 32 v.toNat) :=
  if_pos (by rw [decide_eq_true aligned]; rfl)

section
variable {d : Dev} {k : Fin 32} {a : Nat} {x : RegAt} (aligned : a % 8 = 0)
include aligned

/-- 8 bytes of a Chamois core write both words of a pair (R81). -/
theorem busWriteN_pair (pair : d.pairAt (.cham k) a true = some x) (ok : d.busAns (.cham k) a true = .ok) (v : W64) :
    d.busWriteN (.cham k) a 3 v = (false, ({ d with held := Tab.del d.held (regHome x a) } : Dev).pairWrite (.cham k) x (regHome x a)
      (BitVec.ofNat 32 v.toNat) (BitVec.ofNat 32 (v.toNat / 2 ^ 32))) := by
  simp [busWriteN, aligned, pair, ok]

/-- 8 bytes of a Chamois core read both words of a pair (R81). -/
theorem busReadN_pair (aon : AonSt) {y : RegAt} (pair : d.pairAt (.cham k) a false = some x) (next : regAt (a + 4) = some y)
    (noTs : x.row.blk ≠ .ts) :
    d.busReadN aon (.cham k) a 3 = (joinScale (readValue x.spec.fields (d.liveReg aon (.cham k) 0 x (regHome x a)),
      readValue y.spec.fields (d.liveReg aon (.cham k) 0 y (regHome x a + 4))), false, d) := by
  simp [busReadN, aligned, pair, next, isTs_eq_false noTs]

end
end Dev

section
variable {s : State} {r : Req} {a : Nat}

theorem State.busWrite_frozen (frozen : s.dev.busAns r a true = .frozen) (v : W32) : s.busWrite r a v = s := by
  have pass : s.onDev (fun d => (d.busWrite r a v).2) = s := onDev_eq_self (by rw [Dev.busWrite_frozen frozen])
  unfold State.busWrite
  cases there : regAt a with
  | none => exact pass
  | some x => exact (if_pos (by rw [frozen]; decide)).trans pass

/-- Outside the standby rail's blocks and the directory's, a write reaches the main rails alone. -/
theorem State.busWrite_main {x : RegAt} {v : W32} {c : Bool} {u : Dev} (there : regAt a = some x) (ok : s.dev.busAns r a true = .ok)
    (noTahr : x.row.blk ≠ .tahr) (noPwr : x.row.blk ≠ .pwr) (noDir : x.row.blk ≠ .dir) (made : s.dev.busWrite r a v = (c, u)) :
    s.busWrite r a v = { s with dev := u } := by
  have pass : s.onDev (fun d => (d.busWrite r a v).2) = { s with dev := u } := onDev_congr (g := fun _ => u) (by rw [made])
  unfold State.busWrite
  rw [there]
  dsimp only
  rw [if_neg (by rw [ok]; decide)]
  split
  · next blk _ => exact absurd blk noTahr
  · next blk _ => exact absurd blk noPwr
  · next blk _ => exact absurd blk noPwr
  · next blk _ => exact absurd blk noDir
  · exact pass

theorem State.busWriteN_word (s : State) (r : Req) (v : W64) (aligned : a % 4 = 0) :
    s.busWriteN r a 2 v = s.busWrite r a (BitVec.ofNat 32 v.toNat) :=
  if_pos (by rw [decide_eq_true aligned]; rfl)

theorem State.busWriteN_pair {k : Fin 32} {x : RegAt} {v : W64} {c : Bool} {u : Dev} (aligned : a % 8 = 0)
    (pair : s.dev.pairAt (.cham k) a true = some x) (made : s.dev.busWriteN (.cham k) a 3 v = (c, u)) :
    s.busWriteN (.cham k) a 3 v = { s with dev := u } := by
  have pass : s.onDev (fun d => (d.busWriteN (.cham k) a 3 v).2) = { s with dev := u } := onDev_congr (g := fun _ => u) (by rw [made])
  rw [← pass]
  simp [State.busWriteN, aligned, pair]

end

section
variable {r : Req} {a : BitVec 24} {s : State} {u : Dev} {x : RegAt}

theorem exec_registerWrite_word {v : W64} (aligned : a.toNat % 4 = 0) (noClamp : (s.dev.busWrite r a.toNat (BitVec.ofNat 32 v.toNat)).1 = false)
    (made : s.busWrite r a.toNat (BitVec.ofNat 32 v.toNat) = { s with dev := u }) :
    exec (.registerWrite r a 2 v) s = .next (State.settled { s with dev := u.flags 0 }) := by
  show (.next (State.settled ((s.busWriteN r a.toNat 2 v).onDev (fun d => d.flags (b2n (s.dev.busWriteN r a.toNat 2 v).1)))) : Out) = _
  rw [Dev.busWriteN_word _ _ _ aligned, State.busWriteN_word _ _ _ aligned, noClamp, made]
  rfl

theorem exec_pairHighWordWrite {v : W32} (half : s.dev.halfOf r a.toNat true .high = true) (made : s.busWrite r a.toNat v = { s with dev := u }) :
    exec (.pairHighWordWrite r a v) s = .next { s with dev := u.flags 0 } :=
  congrArg _ ((if_pos half).trans (by rw [made]; rfl))

theorem exec_pairLowWordWrite {v : W32} (half : s.dev.halfOf r a.toNat true .low = true) (made : s.busWrite r a.toNat v = { s with dev := u }) :
    exec (.pairLowWordWrite r a v) s = .next (State.settled { s with dev := u.flags 0 }) :=
  next_settled_congr ((if_pos half).trans (by rw [made]; rfl))

theorem exec_pairLowWordRead {v : W32} (aligned : a.toNat % 4 = 0) (half : s.dev.halfOf r a.toNat false .low = true)
    (read : s.dev.busRead s.aon r a.toNat = (v, false, u)) :
    exec (.pairLowWordRead r a) s = .next { s with dev := u.gives (v.setWidth 64) false } := by
  refine next_onDev_congr (g := fun _ => u.gives (v.setWidth 64) false) ((if_pos half).trans ?_)
  rw [Dev.busReadN_word _ _ _ aligned, read]
  rfl

section
variable {k : Fin 32} (aligned : a.toNat % 8 = 0) {v : W64}
include aligned

/-- The guard of the 8-byte access lets a pair's pass. -/
theorem pairGuard_of_some {wr : Bool} (pair : s.dev.pairAt (.cham k) a.toNat wr = some x) :
    ¬ ((decide (a.toNat % 8 ≠ 0) || (s.dev.pairAt (.cham k) a.toNat wr).isNone) = true) := by
  simp [aligned, pair]

theorem exec_chamois8bytePairAccess_write (pair : s.dev.pairAt (.cham k) a.toNat true = some x)
    (made : s.dev.busWriteN (.cham k) a.toNat 3 v = (false, u)) :
    exec (.chamois8bytePairAccess k a true v) s = .next (State.settled { s with dev := u.flags 0 }) := by
  refine (if_neg (pairGuard_of_some aligned pair)).trans ?_
  show (.next (State.settled ((s.busWriteN (.cham k) a.toNat 3 v).onDev (fun d => d.flags 0))) : Out) = _
  rw [State.busWriteN_pair aligned pair made]
  rfl

theorem exec_chamois8bytePairAccess_read {w : W64} (pair : s.dev.pairAt (.cham k) a.toNat false = some x)
    (read : s.dev.busReadN s.aon (.cham k) a.toNat 3 = (w, false, s.dev)) :
    exec (.chamois8bytePairAccess k a false v) s = .next { s with dev := s.dev.gives w false } := by
  refine (if_neg (pairGuard_of_some aligned pair)).trans ?_
  exact next_onDev_congr (g := fun d => d.gives w false) (by rw [read]; rfl)

end
end

/-- Settles O31: what the bus does with one word, with each word of a pair and with both at once, where it reaches the register. -/
theorem registerBus : Obligations.RegisterBus := by
  intro r a s
  refine ⟨fun wr hole => ?_, fun wr noHole => ?_, fun v aligned frozen => ?_, fun v x aligned ok there single noTahr noPwr noDir => ?_,
    fun d x h v plain => d.regWrite_plain h v plain, fun x y aligned there low reached next noTs => ?_,
    fun v x there high ok noTahr noPwr noDir => ?_, fun v x there low ok noTahr noPwr noDir => ?_,
    fun k v x aligned there low ok => ?_, fun k v x y aligned there low reached next noTs => ?_, fun i ok => ?_, fun j ok => ?_⟩
  · exact next_onDev_congr (if_pos hole)
  · exact next_onDev_eq_self (if_neg noHole)
  · exact exec_registerWrite_word aligned (by rw [Dev.busWrite_frozen frozen]) (State.busWrite_frozen frozen _)
  · have made := Dev.busWrite_single there ok (BitVec.ofNat 32 v.toNat) single
    exact exec_registerWrite_word aligned (by rw [made]) (State.busWrite_main there ok noTahr noPwr noDir made)
  · exact exec_pairLowWordRead aligned (Dev.halfOf_eq_true there low reached) (Dev.busRead_low there s.aon low reached next noTs)
  · have reached : s.dev.busAns r a.toNat true ≠ .hole := by rw [ok]; decide
    exact exec_pairHighWordWrite (Dev.halfOf_eq_true there high reached)
      (State.busWrite_main there ok noTahr noPwr noDir (Dev.busWrite_high there ok v high))
  · have reached : s.dev.busAns r a.toNat true ≠ .hole := by rw [ok]; decide
    exact exec_pairLowWordWrite (Dev.halfOf_eq_true there low reached)
      (State.busWrite_main there ok noTahr noPwr noDir (Dev.busWrite_low there ok v low))
  · have pair := Dev.pairAt_eq_some there low (show s.dev.busAns (.cham k) a.toNat true ≠ .hole by rw [ok]; decide)
    exact exec_chamois8bytePairAccess_write aligned pair (Dev.busWriteN_pair aligned pair ok v)
  · have pair := Dev.pairAt_eq_some there low reached
    exact ⟨_, exec_chamois8bytePairAccess_read aligned pair (Dev.busReadN_pair aligned s.aon pair next noTs), rfl, toNat_joinScale _ _⟩
  · exact next_onDev_congr (if_pos ok)
  · exact next_onDev_congr (if_pos ok)

end Sys2Proof.Machine
end

section
/-! PROOFS. The tempo monitors, the skew of the time-stamps, the dual-clock queues and the clocks (R50, R53 to R60, R63). -/
namespace Sys2Proof.Machine

/-- A signed byte holds every integer of its range. -/
theorem signedOf_wrapTo_byte {x : Int} (lo : -128 ≤ x) (hi : x < 128) : signedOf 8 (wrapTo 8 x) = x := by
  have wraps : (wrapTo 8 x : Int) = x % 256 := Int.toNat_of_nonneg (Int.emod_nonneg x (by decide))
  unfold signedOf
  split <;> omega

namespace Dev

theorem regDo_of_ok {d : Dev} {r : Req} {a : Nat} (ok : d.busAns r a true = .ok) (f : Dev → Dev) : d.regDo r a f = f d := by
  rw [regDo, ok]

theorem fld_setFld_other (d : Dev) {a b : Nat} (f g : Fld) (x : Nat) (h : b ≠ a) : (d.setFld a f x).fld b g = d.fld b g :=
  congrArg (getF · g) (d.reg_setFld_other f x h)

/-! ## Time-stamps -/

/-- The device after each die has compared its counter with the Vat die's. -/
def skewShown (d : Dev) : Dev := (List.range 3).foldl (fun d i => d.setFld (R.tsSkew i) F.tsSkew_skew (tsSkewOf i)) d

theorem reg_skewShown_other (d : Dev) {a : Nat} (h0 : a ≠ R.tsSkew 0) (h1 : a ≠ R.tsSkew 1) (h2 : a ≠ R.tsSkew 2) :
    d.skewShown.reg a = d.reg a :=
  (reg_setFld_other _ _ _ h2).trans ((reg_setFld_other _ _ _ h1).trans (reg_setFld_other _ _ _ h0))

theorem fld_skewShown (d : Dev) {j : Nat} (hj : j < 3) : d.skewShown.fld (R.tsSkew j) F.tsSkew_skew = tsSkewOf j := by
  have fits : tsSkewOf j % 2 ^ 8 = tsSkewOf j := Nat.mod_eq_of_lt (by unfold tsSkewOf wrapTo; omega)
  refine Eq.trans ?_ fits
  match j, hj with
  | 0, _ => exact (fld_setFld_other _ _ _ _ (by decide)).trans ((fld_setFld_other _ _ _ _ (by decide)).trans (fld_setFld_same _ _ _ (by decide)))
  | 1, _ => exact (fld_setFld_other _ _ _ _ (by decide)).trans (fld_setFld_same _ _ _ (by decide))
  | 2, _ => exact fld_setFld_same _ _ _ (by decide)

/-- The counters of the dies agree within 4 ns (R62). -/
theorem tsNow_sub_le (d : Dev) (i j : Nat) : -4 ≤ (d.tsNow i : Int) - d.tsNow j ∧ (d.tsNow i : Int) - d.tsNow j ≤ 4 := by
  unfold tsNow
  omega

theorem signedOf_tsSkewOf (d : Dev) (j : Nat) : signedOf 8 (tsSkewOf j) = (d.tsNow j : Int) - d.tsNow 2 := by
  rw [tsSkewOf, signedOf_wrapTo_byte (by omega) (by omega)]
  unfold tsNow
  omega

theorem tsSkewOf_vat : tsSkewOf 2 = 0 := by
  rw [tsSkewOf, Int.sub_self]
  rfl

/-! ## Dual-clock queues -/

theorem dcq_setDcq_same (d : Dev) (k : Nat) (x : Dcq) : (d.setDcq k x).dcq k = x := Tab.getD_store_same d.dcqs k x _

theorem dcq_setDcq_other (d : Dev) {k j : Nat} (x : Dcq) (h : j ≠ k) : (d.setDcq k x).dcq j = d.dcq j :=
  Tab.getD_store_other d.dcqs x _ h

section
variable {d : Dev} {q i : Nat} {up : Bool}

/-- A queue that stands or is full takes no entry (R54, R58, R59). -/
theorem dcqPut_refused (e : List Byte) (h : d.dcqFrozen q i up = true ∨ dcqDepth q ≤ (d.dcq (dcqKey q i up)).items.length) :
    d.dcqPut q i up e = d :=
  if_pos (by rw [Bool.or_eq_true, decide_eq_true_iff]; exact h)

theorem dcqPut_taken (e : List Byte) (runs : d.dcqFrozen q i up = false) (room : (d.dcq (dcqKey q i up)).items.length < dcqDepth q) :
    let x := d.dcq (dcqKey q i up)
    d.dcqPut q i up e = d.setDcq (dcqKey q i up) { x with items := x.items ++ [e], wr := (x.wr + 1) % (2 * dcqDepth q) } :=
  if_neg (by rw [runs, decide_eq_false (Nat.not_le.mpr room)]; decide)

/-- A queue that stands or is empty gives no entry (R55, R58, R59). -/
theorem dcqGet_refused (h : (d.dcq (dcqKey q i up)).items = [] ∨ d.dcqFrozen q i up = true) : d.dcqGet q i up = d := by
  unfold dcqGet
  dsimp only
  cases items : (d.dcq (dcqKey q i up)).items with
  | nil => rfl
  | cons e rest => exact if_pos (h.resolve_left (items ▸ List.cons_ne_nil e rest))

theorem dcqGet_given {e : List Byte} {rest : List (List Byte)} (runs : d.dcqFrozen q i up = false)
    (items : (d.dcq (dcqKey q i up)).items = e :: rest) :
    let x := d.dcq (dcqKey q i up)
    d.dcqGet q i up = { d.setDcq (dcqKey q i up) { x with items := rest, rd := (x.rd + 1) % (2 * dcqDepth q), out := e } with
      rdata := BitVec.ofNat 64 (leVal (e.take 8)) } := by
  unfold dcqGet
  dsimp only
  rw [items]
  exact if_neg (by rw [runs]; decide)

/-- Where no side has been reset there is nothing to resynchronise. -/
theorem dcqResync_idle (inStep : (d.dcq (dcqKey q i up)).down = false) : d.dcqResync q i up false false = d :=
  if_pos (by rw [inStep]; rfl)

/-- A resynchronisation leaves the queue empty and counts what it discards (R59, R60); a die-to-die adapter's, besides, has it
replayed. -/
theorem dcqResync_reset {wr rd : Bool} (built : i < dcqCount q) (reset : wr = true ∨ rd = true) (notD2d : q ≠ 6) :
    let x := d.dcq (dcqKey q i up)
    d.dcqResync q i up wr rd = d.setDcq (dcqKey q i up) { Dcq.reset with lost := x.items.length, out := x.out } := by
  have goes : ¬ ((!wr && !rd && !(d.dcq (dcqKey q i up)).down || decide (dcqCount q ≤ i)) = true) := by
    rw [decide_eq_false (Nat.not_le.mpr built)]
    rcases reset with rfl | rfl <;> simp
  exact (if_neg goes).trans (if_neg (by rw [decide_eq_false notD2d]; exact Bool.false_ne_true))

end
end Dev

section
variable {q : Fin 17} {i : BitVec 8} {up : Bool} {s : State} {u : Dev}

theorem exec_dcqWrite {e : List Byte} (h : s.dev.dcqPut q i.toNat up e = u) :
    exec (.dcqWrite q i up e) s = .next { s with dev := u } := by
  rw [← h]; rfl

theorem exec_dcqRead (h : s.dev.dcqGet q i.toNat up = u) : exec (.dcqRead q i up) s = .next { s with dev := u } := by
  rw [← h]; rfl

/-- A resynchronisation that takes nothing off the path to a memory controller aborts no stream task (R60, R210). -/
theorem exec_queueResync {wr rd : Bool} (h : s.dev.dcqResync q i.toNat up wr rd = u)
    (keeps : q = 3 ∨ q = 4 → (u.dcq (dcqKey q i.toNat up)).items = [] → (s.dev.dcq (dcqKey q i.toNat up)).items = []) :
    exec (.queueResync q i up wr rd) s = .next (State.settled { s with dev := u }) := by
  subst h
  refine next_settled_congr (onDev_congr (g := fun d => d.dcqResync q i.toNat up wr rd) (if_neg fun lost => ?_))
  simp only [Bool.and_eq_true, Bool.or_eq_true, decide_eq_true_iff, List.isEmpty_iff] at lost
  obtain ⟨⟨had, gone⟩, path⟩ := lost
  exact had (List.length_eq_zero_iff.mpr (keeps (path.imp Fin.ext Fin.ext) gone))

end

section
variable (dom : Fin 10) (i : BitVec 8) (s : State)

/-- A clock stops where the domain has it, once (R58). -/
theorem exec_clockStop : ∃ t, exec (.clockStop dom i) s = .next t ∧ t = s.onDev (fun d => { d with stopped := t.dev.stopped }) ∧
    ∀ k, k ∈ t.dev.stopped ↔ (k = dom.val * 256 + i.toNat ∧ i.toNat < domCount dom) ∨ k ∈ s.dev.stopped := by
  by_cases skip : (domCount dom ≤ i.toNat || s.dev.stopped.contains (dom.val * 256 + i.toNat)) = true
  · have stopped : i.toNat < domCount dom → dom.val * 256 + i.toNat ∈ s.dev.stopped := by
      rw [Bool.or_eq_true, decide_eq_true_iff, List.contains_iff_mem] at skip
      exact fun built => skip.resolve_left (Nat.not_le.mpr built)
    exact ⟨s, next_onDev_eq_self (if_pos skip), rfl, fun k => (or_iff_right_of_imp fun ⟨same, built⟩ => same ▸ stopped built).symm⟩
  · have built : i.toNat < domCount dom := by
      rw [Bool.or_eq_true, decide_eq_true_iff] at skip
      exact Nat.not_le.mp fun outside => skip (.inl outside)
    exact ⟨s.onDev (fun d => { d with stopped := (dom.val * 256 + i.toNat) :: d.stopped }), next_onDev_congr (if_neg skip), rfl,
      fun k => List.mem_cons.trans (or_congr_left (and_iff_left built).symm)⟩

theorem exec_clockRestart : ∃ t, exec (.clockRestart dom i) s = .next t ∧ t = s.onDev (fun d => { d with stopped := t.dev.stopped }) ∧
    ∀ k, k ∈ t.dev.stopped ↔ k ≠ dom.val * 256 + i.toNat ∧ k ∈ s.dev.stopped :=
  ⟨_, rfl, rfl, fun k => List.mem_filter.trans (by rw [decide_eq_true_iff, and_comm])⟩

end

/-- Settles O32: each clause is one case of a monitor's window, of a queue's write, read or resynchronisation, or of a clock; the
skews shown are the differences of the counters, which a signed byte holds. -/
theorem tempoAndCrossings : Obligations.TempoAndCrossings := by
  intro r q i up s
  refine ⟨fun m rate => ⟨fun off => ?_, fun on => ?_, fun ok => ?_⟩, fun d0 d1 => ?_,
    fun e => ⟨fun refused => ?_, fun runs room => ?_, fun refused => ?_, fun rest items runs => ?_⟩,
    fun dom => ⟨exec_clockStop dom i s, exec_clockRestart dom i s⟩, fun inStep => ?_, fun built wr rd reset notD2d empty => ?_⟩
  · exact next_onDev_eq_self (if_pos (by rw [off]; rfl))
  · refine next_onDev_congr ((if_neg (by rw [on]; decide)).trans (ite_congr ?_ (fun _ => rfl) fun _ => rfl))
    rw [Bool.and_eq_true, decide_eq_true_iff, decide_eq_true_iff]
  · exact next_onDev_congr (Dev.regDo_of_ok ok _)
  · refine ⟨s.onDev Dev.skewShown, rfl, rfl, fun a h0 h1 h2 => s.dev.reg_skewShown_other h0 h1 h2,
      (s.dev.fld_skewShown (by decide)).trans Dev.tsSkewOf_vat, fun j hj => ?_⟩
    have shown : signedOf 8 (s.dev.skewShown.fld (R.tsSkew j) F.tsSkew_skew) = (s.dev.tsNow j : Int) - s.dev.tsNow 2 := by
      rw [s.dev.fld_skewShown hj, s.dev.signedOf_tsSkewOf]
    exact ⟨shown, shown ▸ s.dev.tsNow_sub_le j 2⟩
  · exact exec_dcqWrite (Dev.dcqPut_refused e refused)
  · exact ⟨_, exec_dcqWrite (Dev.dcqPut_taken e runs room), rfl, s.dev.dcq_setDcq_same _ _, fun k hk => s.dev.dcq_setDcq_other _ hk⟩
  · exact exec_dcqRead (Dev.dcqGet_refused refused)
  · exact ⟨_, exec_dcqRead (Dev.dcqGet_given runs items), rfl, s.dev.dcq_setDcq_same _ _, fun k hk => s.dev.dcq_setDcq_other _ hk⟩
  · exact exec_queueResync (Dev.dcqResync_idle inStep) fun _ same => same
  · have done := s.dev.dcq_setDcq_same (dcqKey q i.toNat up)
      { Dcq.reset with lost := (s.dev.dcq (dcqKey q i.toNat up)).items.length, out := (s.dev.dcq (dcqKey q i.toNat up)).out }
    have resync := Dev.dcqResync_reset (d := s.dev) (up := up) built reset fun d2d => notD2d (Fin.ext d2d)
    exact ⟨_, exec_queueResync resync fun path _ => empty path, rfl, congrArg Dcq.items done, congrArg Dcq.wr done, congrArg Dcq.rd done,
      congrArg Dcq.down done, congrArg Dcq.lost done, fun k hk => s.dev.dcq_setDcq_other _ hk⟩

end Sys2Proof.Machine
end

section
/-! PROOFS. One nanosecond without a command (R62, R448, R494): which controllers' idle times it counts for. -/
namespace Sys2Proof.Machine
namespace Dev

theorem ctrl_modCtrl_same (d : Dev) (p : Nat) (f : Ctrl → Ctrl) : (d.modCtrl p f).ctrl p = f (d.ctrl p) :=
  Tab.getD_put_same d.host.ctrls p _ _

theorem ctrl_modCtrl_other (d : Dev) {p i : Nat} (f : Ctrl → Ctrl) (h : i ≠ p) : (d.modCtrl p f).ctrl i = d.ctrl i :=
  Tab.getD_put_other d.host.ctrls _ _ h

/-- A change of each controller of a list that names none twice. -/
theorem ctrl_foldl_modCtrl (f : Ctrl → Ctrl) {l : List Nat} (once : l.Nodup) (d : Dev) (i : Nat) :
    (l.foldl (fun d p => d.modCtrl p f) d).ctrl i = if i ∈ l then f (d.ctrl i) else d.ctrl i := by
  induction l generalizing d with
  | nil => rfl
  | cons p l ih =>
    obtain ⟨notLater, once⟩ := List.nodup_cons.mp once
    rw [List.foldl_cons, ih once]
    by_cases same : i = p
    · subst same
      rw [if_neg notLater, if_pos List.mem_cons_self, ctrl_modCtrl_same]
    · rw [ctrl_modCtrl_other d f same]
      simp only [List.mem_cons, same, false_or]

/-- No port mode uses more than four ports (Table 16-1). -/
theorem portUsed_lt_four {d : Dev} {p : Nat} (used : d.portUsed p = true) : p < 4 := by
  have most : ∀ mode, portCount mode ≤ 4
    | 0 | 1 | 2 => by decide
    | _ + 3 => show 1 ≤ 4 by decide
  exact Nat.lt_of_lt_of_le (of_decide_eq_true used) (most d.portMode)

/-- A nanosecond that is not idle moves the start of the idle time of each controller whose port is used, and of no other (R448). -/
theorem ctrl_idlePause (d : Dev) (p : Nat) :
    d.idlePause.ctrl p =
      if d.apstIdle = false ∧ d.portUsed p = true then { d.ctrl p with idleAt := (d.ctrl p).idleAt + 1 } else d.ctrl p := by
  unfold idlePause
  cases idle : d.apstIdle with
  | true => rfl
  | false =>
    have listed : p ∈ (List.range 4).filter d.portUsed ↔ d.portUsed p = true := by
      rw [List.mem_filter, List.mem_range]
      exact and_iff_right_of_imp portUsed_lt_four
    rw [if_neg Bool.false_ne_true, ctrl_foldl_modCtrl _ (List.nodup_range.filter _)]
    simp only [listed, true_and]

end Dev

theorem tick_of_mainGood {s : State} (main : s.aon.mainGood = true) :
    s.tick = { s with dev := { s.dev.idlePause with now := s.dev.now + 1 }, aon := { s.aon with ns := s.aon.ns + 1 } } := by
  rw [State.tick, if_pos main]

theorem tick_of_standby {s : State} (main : s.aon.mainGood = false) : s.tick = { s with aon := { s.aon with ns := s.aon.ns + 1 } } := by
  rw [State.tick, main, if_neg Bool.false_ne_true]

/-- Settles O58: a command in front runs on the queue's rest; with none, a tick moves time on, and `ctrl_idlePause` says for whom it
counts as idle. -/
theorem stepTakesTheFront : Obligations.StepTakesTheFront := fun s _ _ =>
  ⟨step_front, fun empty main => (step_idle empty).trans (congrArg _ (tick_of_mainGood main)),
    fun empty main => (step_idle empty).trans (congrArg _ (tick_of_standby main)), s.dev.ctrl_idlePause⟩

end Sys2Proof.Machine
end

section
/-! PROOFS. The clamping of addresses: what step 1 of R74 makes of an address, and that step 2 brings it inside its tier (R74, R122). -/
namespace Sys2Proof.Machine
namespace Dev
variable {d : Dev} {r : Req} {itnum : Bool} {redirect : Nat → Nat} {a : W64} {n : Nat}

/-- The node once a NODE field that R73 or R122 takes as the device's own has been replaced. -/
def heldNode (d : Dev) (itnum : Bool) (a : W64) : Nat := if addrTier a = 5 || (itnum && addrTier a = 0) then d.nodeId else addrNode a

/-- The tier once a reserved code, or a tier 5 that is not open, has become tier 1. -/
def openTier (d : Dev) (r : Req) (a : W64) : Nat :=
  if 6 ≤ addrTier a then 1
  else if addrTier a = 5 && (!d.admits5 r || (addrOff a < d.tierSize 5 && !d.segMapped (addrOff a))) then 1 else addrTier a

/-- The node of an address after step 1 of R74. -/
def clampedNode (d : Dev) (r : Req) (itnum : Bool) (redirect : Nat → Nat) (a : W64) : Nat :=
  if redirect (d.openTier r a) = 0 && itnum then d.nodeId else d.heldNode itnum a

/-- The kinds of the clamps of step 1 of R74. -/
def stepOneKinds (d : Dev) (r : Req) (itnum : Bool) (redirect : Nat → Nat) (a : W64) : List Nat :=
  (if d.heldNode itnum a ≠ addrNode a then [5] else []) ++
  (if d.openTier r a ≠ addrTier a then [if 6 ≤ addrTier a then 0 else 1] else []) ++
  (if redirect (d.openTier r a) ≠ d.openTier r a then [6] else [])

/-- The place in the last line of a tier of z bytes at which step 2 of R74 performs an access of n bytes. -/
def tailOff (z n : Nat) (a : W64) : Nat := z - 128 + min (addrOff a % 128) (128 - min n 128)

/-- Step 2 of R74 after step 1: on this device, an offset at or beyond the end becomes one of the last line. -/
theorem clampSteps_eq (d : Dev) (r : Req) (itnum : Bool) (redirect : Nat → Nat) (a : W64) (n : Nat) :
    let node := d.clampedNode r itnum redirect a
    let t := redirect (d.openTier r a)
    let ks := d.stepOneKinds r itnum redirect a
    d.clampSteps r itnum redirect a n =
      if node = d.nodeId && d.sizeFor r itnum t ≤ addrOff a then ⟨node, t, tailOff (d.sizeFor r itnum t) n a, ks ++ [2]⟩
      else ⟨node, t, addrOff a, ks⟩ := rfl

theorem clampSteps_beyond (here : d.clampedNode r itnum redirect a = d.nodeId)
    (beyond : d.sizeFor r itnum (redirect (d.openTier r a)) ≤ addrOff a) :
    d.clampSteps r itnum redirect a n = ⟨d.nodeId, redirect (d.openTier r a), tailOff (d.sizeFor r itnum (redirect (d.openTier r a))) n a,
      d.stepOneKinds r itnum redirect a ++ [2]⟩ := by
  rw [clampSteps_eq, here, if_pos (by simpa using beyond)]

theorem clampSteps_stays
    (stays : d.clampedNode r itnum redirect a = d.nodeId → addrOff a < d.sizeFor r itnum (redirect (d.openTier r a))) :
    d.clampSteps r itnum redirect a n =
      ⟨d.clampedNode r itnum redirect a, redirect (d.openTier r a), addrOff a, d.stepOneKinds r itnum redirect a⟩ := by
  rw [clampSteps_eq, if_neg (by simpa using stays)]

/-- Step 2 moves an address or leaves it. -/
theorem clampSteps_cases (d : Dev) (r : Req) (itnum : Bool) (redirect : Nat → Nat) (a : W64) :
    (d.clampedNode r itnum redirect a = d.nodeId ∧ d.sizeFor r itnum (redirect (d.openTier r a)) ≤ addrOff a) ∨
    (d.clampedNode r itnum redirect a = d.nodeId → addrOff a < d.sizeFor r itnum (redirect (d.openTier r a))) := by
  rw [← Nat.not_le, ← not_and]; exact Classical.em _

theorem clampSteps_node : (d.clampSteps r itnum redirect a n).node = d.clampedNode r itnum redirect a := by
  rw [clampSteps_eq]; split <;> rfl

theorem clampSteps_tier : (d.clampSteps r itnum redirect a n).tier = redirect (d.openTier r a) := by
  rw [clampSteps_eq]; split <;> rfl

section own
variable (node : addrNode a = d.nodeId)
include node

theorem heldNode_own : d.heldNode itnum a = d.nodeId := by rw [heldNode, node, ite_self]

theorem clampedNode_own : d.clampedNode r itnum redirect a = d.nodeId := by rw [clampedNode, heldNode_own node, ite_self]
end own

theorem openTier_named (named : addrTier a ≤ 4) : d.openTier r a = addrTier a := by
  have not5 : addrTier a ≠ 5 := by omega
  simp [openTier, not5, Nat.not_le.mpr (Nat.lt_of_le_of_lt named (by decide : 4 < 6))]

/-- Codes 6 and 7 name tier 1 (R74). -/
theorem openTier_reserved (reserved : 6 ≤ addrTier a) : d.openTier r a = 1 := if_pos reserved

/-- Only tier 0 has a size that depends on who asks (R122). -/
theorem sizeFor_one : d.sizeFor r itnum 1 = d.tierSize 1 := by
  cases r with
  | ctx c => exact if_neg (by cases itnum <;> decide)
  | _ => rfl

/-- An address of this device whose tier is open and allowed is changed by step 2 alone, if at all. -/
theorem stepOneKinds_named (node : addrNode a = d.nodeId) (named : addrTier a ≤ 4) (free : redirect (addrTier a) = addrTier a) :
    d.stepOneKinds r itnum redirect a = [] := by
  simp [stepOneKinds, heldNode_own node, openTier_named named, node, free]

theorem stepOneKinds_reserved (node : addrNode a = d.nodeId) (reserved : 6 ≤ addrTier a) (free : redirect 1 = 1) :
    d.stepOneKinds r itnum redirect a = [0] := by
  have moved : ¬ 1 = addrTier a := by omega
  simp [stepOneKinds, heldNode_own node, openTier_reserved reserved, node, free, moved, reserved]

/-- Step 2 alone makes the clamp of kind 2. -/
theorem two_notMem_stepOneKinds : 2 ∉ d.stepOneKinds r itnum redirect a := by
  simp only [stepOneKinds, List.mem_append, not_or]
  refine ⟨⟨?_, ?_⟩, ?_⟩
  · split <;> decide
  · split
    · split <;> decide
    · decide
  · split <;> decide

/-- In the last line an access of up to 128 bytes ends within the tier. -/
theorem tailOff_add_le {z : Nat} (line : 128 ≤ z) (short : n ≤ 128) : tailOff z n a + n ≤ z := by
  unfold tailOff; omega

theorem tailOff_lt {z : Nat} (line : 128 ≤ z) (nonempty : 1 ≤ n) : tailOff z n a < z := by
  unfold tailOff; omega

section own
variable (node : addrNode a = d.nodeId)
include node

/-- A place of an open tier that lies in it is reached as it is (R74). -/
theorem clampSteps_named_within (named : addrTier a ≤ 4) (free : redirect (addrTier a) = addrTier a)
    (within : addrOff a < d.sizeFor r itnum (addrTier a)) :
    d.clampSteps r itnum redirect a n = ⟨d.nodeId, addrTier a, addrOff a, []⟩ := by
  have tier : redirect (d.openTier r a) = addrTier a := by rw [openTier_named named, free]
  rw [clampSteps_stays (by rwa [tier, imp_iff_right (clampedNode_own node)]), clampedNode_own node, tier, stepOneKinds_named node named free]

/-- One at or beyond its end becomes a place of the last line, which is one clamp (R74). -/
theorem clampSteps_named_beyond (named : addrTier a ≤ 4) (free : redirect (addrTier a) = addrTier a)
    (beyond : d.sizeFor r itnum (addrTier a) ≤ addrOff a) :
    d.clampSteps r itnum redirect a n = ⟨d.nodeId, addrTier a, tailOff (d.sizeFor r itnum (addrTier a)) n a, [2]⟩ := by
  have tier : redirect (d.openTier r a) = addrTier a := by rw [openTier_named named, free]
  rw [clampSteps_beyond (clampedNode_own node) (by rwa [tier]), tier, stepOneKinds_named node named free, List.nil_append]

/-- Codes 6 and 7 become tier 1, which is one clamp; a place beyond its end is a second one (R74). -/
theorem clampSteps_reserved (reserved : 6 ≤ addrTier a) (free : redirect 1 = 1) :
    let p := d.clampSteps r itnum redirect a n
    p.tier = 1 ∧ p.node = d.nodeId ∧ p.kinds = if addrOff a < d.tierSize 1 then [0] else [0, 2] := by
  have tier : redirect (d.openTier r a) = 1 := by rw [openTier_reserved reserved, free]
  refine ⟨clampSteps_tier.trans tier, clampSteps_node.trans (clampedNode_own node), ?_⟩
  rcases Nat.lt_or_ge (addrOff a) (d.tierSize 1) with within | beyond
  · rw [clampSteps_stays fun _ => by rwa [tier, sizeFor_one], if_pos within]
    exact stepOneKinds_reserved node reserved free
  · rw [clampSteps_beyond (clampedNode_own node) (by rwa [tier, sizeFor_one]), if_neg (Nat.not_lt.mpr beyond)]
    exact congrArg (· ++ [2]) (stepOneKinds_reserved node reserved free)
end own

/-- A tier 0 address of an ITNUM instruction is of this device; another NODE field is one clamp (R122). -/
theorem clampSteps_scratch (scratch : addrTier a = 0) (free : redirect 0 = 0) :
    let p := d.clampSteps r true redirect a n
    p.node = d.nodeId ∧ p.tier = 0 ∧ (5 ∈ p.kinds ↔ addrNode a ≠ d.nodeId) := by
  have tier : d.openTier r a = 0 := by rw [openTier_named (scratch ▸ Nat.zero_le 4), scratch]
  have held : d.heldNode true a = d.nodeId := by simp [heldNode, scratch]
  have node : d.clampedNode r true redirect a = d.nodeId := by rw [clampedNode, held, ite_self]
  have kinds : d.stepOneKinds r true redirect a = if d.nodeId ≠ addrNode a then [5] else [] := by
    simp [stepOneKinds, held, tier, scratch, free]
  have step1 : 5 ∈ d.stepOneKinds r true redirect a ↔ addrNode a ≠ d.nodeId := by
    rw [kinds, ne_comm (a := addrNode a)]
    split <;> simp [*]
  refine ⟨clampSteps_node.trans node, clampSteps_tier.trans (by rw [tier, free]), ?_⟩
  rcases clampSteps_cases d r true redirect a with ⟨_, beyond⟩ | stays
  · rw [clampSteps_beyond node beyond, List.mem_append, step1]
    simp
  · rw [clampSteps_stays stays, step1]

/-- Where a tier has a line, every access of this device starts inside it. -/
theorem clampSteps_off_lt (node : (d.clampSteps r itnum redirect a n).node = d.nodeId)
    (line : 128 ≤ d.sizeFor r itnum (d.clampSteps r itnum redirect a n).tier) (nonempty : 1 ≤ n) :
    (d.clampSteps r itnum redirect a n).off < d.sizeFor r itnum (d.clampSteps r itnum redirect a n).tier := by
  rw [clampSteps_node] at node
  rw [clampSteps_tier] at line ⊢
  rcases clampSteps_cases d r itnum redirect a with ⟨_, beyond⟩ | stays
  · rw [clampSteps_beyond node beyond]; exact tailOff_lt line nonempty
  · rw [clampSteps_stays stays]; exact stays node

/-- An access that step 2 moves ends inside its tier. -/
theorem clampSteps_add_le (moved : 2 ∈ (d.clampSteps r itnum redirect a n).kinds)
    (line : 128 ≤ d.sizeFor r itnum (d.clampSteps r itnum redirect a n).tier) (short : n ≤ 128) :
    (d.clampSteps r itnum redirect a n).off + n ≤ d.sizeFor r itnum (d.clampSteps r itnum redirect a n).tier := by
  rw [clampSteps_tier] at line ⊢
  rcases clampSteps_cases d r itnum redirect a with ⟨node, beyond⟩ | stays
  · rw [clampSteps_beyond node beyond]; exact tailOff_add_le line short
  · rw [clampSteps_stays stays] at moved
    exact absurd moved two_notMem_stepOneKinds

end Dev

/-- Settles O9: step 1 changes no address whose tier is open and allowed, and step 2 brings it into the last line. -/
theorem addressClamping : Obligations.AddressClamping := fun _ _ _ _ _ _ =>
  ⟨Dev.clampSteps_named_within, Dev.clampSteps_named_beyond, Dev.clampSteps_reserved,
    fun itnum => itnum ▸ Dev.clampSteps_scratch, Dev.clampSteps_off_lt, Dev.clampSteps_add_le⟩

end Sys2Proof.Machine
end

section
/-! PROOFS. The memory of bytes: a read after a write, a wipe and a copy, and that canonical lists with the same bytes are the same
list (R68, R507). -/
namespace Sys2Proof.Machine

/-! ## Tables with rising keys -/

theorem Tab.risesFrom_cons {α : Type} {b j : Nat} {v : α} {t : Tab α} :
    Tab.risesFrom b ((j, v) :: t) = true ↔ b ≤ j ∧ Tab.risesFrom (j + 1) t = true := by
  rw [Tab.risesFrom, Bool.and_eq_true, decide_eq_true_eq]

theorem Tab.find_cons_same {α : Type} (t : Tab α) (k : Nat) (v : α) : Tab.find ((k, v) :: t) k = some v := if_pos rfl

theorem Tab.find_cons_other {α : Type} (t : Tab α) {j k : Nat} (v : α) (other : j ≠ k) : Tab.find ((j, v) :: t) k = Tab.find t k :=
  if_neg other

/-- Nothing is listed below the first key. -/
theorem Tab.find_of_lt {α : Type} {t : Tab α} {b k : Nat} (rises : Tab.risesFrom b t = true) (below : k < b) : Tab.find t k = none := by
  induction t generalizing b with
  | nil => rfl
  | cons p t ih =>
    obtain ⟨j, v⟩ := p
    obtain ⟨first, rest⟩ := Tab.risesFrom_cons.mp rises
    rw [Tab.find_cons_other t v (by omega), ih rest (by omega)]

/-- Of two tables that give the same values neither starts below the other: the lower first key would be listed by one alone. -/
theorem Tab.head_le_of_find_eq {α : Type} {s t : Tab α} {i j : Nat} {v w : α} (rises : Tab.risesFrom (j + 1) t = true)
    (same : ∀ k, Tab.find ((i, v) :: s) k = Tab.find ((j, w) :: t) k) : j ≤ i := by
  refine Nat.le_of_not_lt fun lower => ?_
  have listed := same i
  rw [Tab.find_cons_same, Tab.find_cons_other t w (by omega), Tab.find_of_lt rises (by omega)] at listed
  cases listed

/-- Tables with rising keys that give the same values are the same list. -/
theorem Tab.eq_of_find_eq {α : Type} {s t : Tab α} {a b : Nat} (hs : Tab.risesFrom a s = true) (ht : Tab.risesFrom b t = true)
    (same : ∀ k, Tab.find s k = Tab.find t k) : s = t := by
  induction s generalizing t a b with
  | nil =>
    cases t with
    | nil => rfl
    | cons q t =>
      have listed := same q.1
      rw [Tab.find_cons_same] at listed
      cases listed
  | cons p s ih =>
    obtain ⟨i, v⟩ := p
    cases t with
    | nil =>
      have listed := same i
      rw [Tab.find_cons_same] at listed
      cases listed
    | cons q t =>
      obtain ⟨j, w⟩ := q
      obtain ⟨-, restS⟩ := Tab.risesFrom_cons.mp hs
      obtain ⟨-, restT⟩ := Tab.risesFrom_cons.mp ht
      obtain rfl : i = j :=
        Nat.le_antisymm (Tab.head_le_of_find_eq restS fun k => (same k).symm) (Tab.head_le_of_find_eq restT same)
      have value := same i
      rw [Tab.find_cons_same, Tab.find_cons_same] at value
      obtain rfl : v = w := Option.some.inj value
      refine congrArg _ (ih restS restT fun k => ?_)
      by_cases head : i = k
      · rw [Tab.find_of_lt restS (by omega), Tab.find_of_lt restT (by omega)]
      · have rest := same k
        rwa [Tab.find_cons_other s v head, Tab.find_cons_other t v head] at rest

namespace Memory

theorem wf_iff {m : List Host.Cell} : wf m = true ↔ Tab.risesFrom 0 m = true ∧ ∀ c ∈ m, c.2 ≠ 0#8 := by
  simp [wf]

/-- A table lists its values. -/
theorem mem_of_find {m : List Host.Cell} {k : Nat} {b : Byte} (listed : Tab.find m k = some b) : (k, b) ∈ m := by
  induction m with
  | nil => cases listed
  | cons c m ih =>
    obtain ⟨j, v⟩ := c
    rw [Tab.find] at listed
    split at listed
    · next head => cases head; cases listed; exact List.mem_cons_self
    · exact List.mem_cons_of_mem _ (ih listed)

/-- In canonical form a byte is listed unless it is zero. -/
theorem find_eq_of_wf {m : List Host.Cell} (canonical : wf m = true) (k : Nat) :
    Tab.find m k = if get m k = 0#8 then none else some (get m k) := by
  obtain ⟨-, nonzero⟩ := wf_iff.mp canonical
  rw [get, Tab.getD]
  cases listed : Tab.find m k with
  | none => rfl
  | some b => exact (if_neg (nonzero _ (mem_of_find listed))).symm

/-- Canonical lists that hold the same bytes are the same list. -/
theorem eq_of_get_eq {m n : List Host.Cell} (hm : wf m = true) (hn : wf n = true) (same : ∀ k, get m k = get n k) : m = n :=
  Tab.eq_of_find_eq (wf_iff.mp hm).1 (wf_iff.mp hn).1 fun k => by rw [find_eq_of_wf hm, find_eq_of_wf hn, same k]

theorem get_set (m : List Host.Cell) (k j : Nat) (b : Byte) : get (set m k b) j = if j = k then b else get m j := by
  split
  · next here => rw [here, get_set_same]
  · next other => exact get_set_other m b other

/-- A byte that a write covers reads as it was written, every other one as before. -/
theorem get_write (m : List Host.Cell) (l : List Byte) (k j : Nat) :
    get (write m k l) j = if k ≤ j ∧ j < k + l.length then l.getD (j - k) 0#8 else get m j := by
  induction l generalizing m k with
  | nil => exact (if_neg (by simp only [List.length_nil]; omega)).symm
  | cons b l ih =>
    rw [write, ih, get_set]
    simp only [List.length_cons]
    rcases Nat.lt_trichotomy j k with before | here | after
    · rw [if_neg (by omega), if_neg (by omega), if_neg (by omega)]
    · subst here
      rw [if_neg (by omega), if_pos rfl, if_pos (by omega), Nat.sub_self, List.getD_cons_zero]
    · obtain ⟨i, rfl⟩ : ∃ i, j = k + (i + 1) := ⟨j - k - 1, by omega⟩
      rw [if_neg (by omega : ¬ k + (i + 1) = k), Nat.add_sub_cancel_left, List.getD_cons_succ, show k + (i + 1) - (k + 1) = i by omega]
      exact ite_congr (propext (by omega)) (fun _ => rfl) fun _ => rfl

/-- Writing the cells of a range at another place: there a byte that the list lists is that byte, every other byte as before. -/
theorem get_foldl_slice {m : List Host.Cell} {b : Nat} (rises : Tab.risesFrom b m = true) (base : List Host.Cell) (k n dest j : Nat) :
    get ((slice m k n dest).foldl (fun m c => set m c.1 c.2) base) j =
      if dest ≤ j ∧ j < dest + n then (Tab.find m (k + (j - dest))).getD (get base j) else get base j := by
  induction m generalizing b base with
  | nil => exact (ite_self _).symm
  | cons c m ih =>
    obtain ⟨i, v⟩ := c
    obtain ⟨-, rest⟩ := Tab.risesFrom_cons.mp rises
    by_cases inside : k ≤ i ∧ i < k + n
    · have sliced : slice ((i, v) :: m) k n dest = (i - k + dest, v) :: slice m k n dest := by simp [slice, inside]
      rw [sliced, List.foldl_cons, ih rest, get_set]
      by_cases here : j = i - k + dest
      · have source : k + (j - dest) = i := by omega
        rw [source, Tab.find_cons_same, Tab.find_of_lt rest (Nat.lt_succ_self i), if_pos here, if_pos (by omega), if_pos (by omega)]
        rfl
      · rw [if_neg here]
        refine ite_congr rfl (fun range => ?_) fun _ => rfl
        rw [Tab.find_cons_other m v (by omega)]
    · have sliced : slice ((i, v) :: m) k n dest = slice m k n dest := by
        rw [slice, List.filter_cons_of_neg (by simpa using inside)]; rfl
      rw [sliced, ih rest]
      refine ite_congr rfl (fun range => ?_) fun _ => rfl
      rw [Tab.find_cons_other m v (by omega)]

/-- A copy reads as its source stood, whether or not the two ranges overlap; every other byte as before. -/
theorem get_copy {m : List Host.Cell} (canonical : wf m = true) (k n dest j : Nat) :
    get (copy m k n dest) j = if dest ≤ j ∧ j < dest + n then get m (k + (j - dest)) else get m j := by
  rw [copy, get_foldl_slice (wf_iff.mp canonical).1, get_wipe]
  split <;> rfl

end Memory

/-- Settles O57: a write, a wipe and a copy by what each makes of a byte, and the canonical form by what a table lists. -/
theorem memoryBytes : Obligations.MemoryBytes :=
  ⟨Memory.get_set, Memory.get_write, fun m k n j _ => Memory.get_wipe m k n j, fun _ k n dest j canonical => Memory.get_copy canonical k n dest j,
    fun m l k n dest canonical => ⟨Memory.write_wf m k l canonical, Memory.wipe_wf m k n canonical, Memory.copy_wf m k n dest canonical⟩,
    fun _ _ => Memory.eq_of_get_eq⟩

end Sys2Proof.Machine
end

section
/-! PROOFS. Requests of other nodes at the home of a line: how each is served as its entry stands (R76, R290 to R295, Table 11-9). -/
namespace Sys2Proof.Machine
namespace Dev

/-- The state in which a request enters a line: RD_SHARED shares it, RD_OWN and UPGRADE own it (R293). -/
def Fills (opc st : Nat) : Prop := opc = 2 ∧ st = 1 ∨ (opc = 3 ∨ opc = 4) ∧ st = 2

/-! ## The first request for a line -/

section enter
variable {d : Dev} {key st : Nat} {w : DirWait}

theorem enterNow_shared : d.enterNow key 1 w =
    ((d.putDir key (d.newEnt 1 w.msg.src)).usedEnt key).reply w.msg 0x21 0 (d.lineBytes key).1 (d.lineBytes key).2 := rfl

theorem enterNow_owned : d.enterNow key 2 w =
    ((d.putDir key (d.newEnt 2 w.msg.src)).usedEnt key).reply w.msg 0x22 0 (d.lineBytes key).1 (d.lineBytes key).2 := rfl

/-- A request for the same line that waits for room comes first (R291, R292). -/
theorem enter_behind_holder {v : Nat} (holder : d.roomHolder key = some v) : d.enter key st w = d.behind v w := by
  rw [enter, holder]

section free
variable (unheld : d.roomHolder key = none)
include unheld

theorem enter_room (room : (d.setOf key).length < 16) : d.enter key st w = d.enterNow key st w := by
  rw [enter, unheld]
  exact if_neg (Nat.not_le.mpr room)

section full
variable (full : 16 ≤ (d.setOf key).length) {v : Nat × DirEnt} (victim : d.victim key = some v)
include full victim

theorem enter_full : d.enter key st w =
    if (d.sharers v.2).isEmpty then (d.evictEnt v none).enterNow key st w else d.evictEnt v (some w) := by
  rw [enter, unheld]
  dsimp only
  rw [if_pos full, evictFor, victim]

/-- With an entry to evict that other nodes hold, the request waits for their answers (R291). -/
theorem enter_full_held (held : d.sharers v.2 ≠ []) : d.enter key st w = d.evictEnt v (some w) := by
  rw [enter_full unheld full victim, if_neg (mt List.isEmpty_iff.mp held)]

/-- An entry that no other node holds is gone at once (R291). -/
theorem enter_full_free (free : d.sharers v.2 = []) : d.enter key st w = (d.evictEnt v none).enterNow key st w := by
  rw [enter_full unheld full victim, if_pos (List.isEmpty_iff.mpr free)]
end full
end free
end enter

/-! ## Serving a request, by its opcode and its line's entry -/

section serve
variable {d : Dev} {w : DirWait} {e : DirEnt} {st : Nat}

/-- A line that may not be cached is answered with its data, and no entry is made (R290). -/
theorem serve_shared_uncacheable (opc : w.msg.opc = 2) (uncached : cacheable (d.lineKey w.msg.addr) = false) :
    d.serve w = d.reply w.msg 0x21 0 (d.lineBytes (d.lineKey w.msg.addr)).1 (d.lineBytes (d.lineKey w.msg.addr)).2 := by
  simp [serve, opc, uncached]

theorem serve_own_uncacheable (opc : w.msg.opc = 3 ∨ w.msg.opc = 4) (uncached : cacheable (d.lineKey w.msg.addr) = false) :
    d.serve w = d.reply w.msg 0x22 0 (d.lineBytes (d.lineKey w.msg.addr)).1 (d.lineBytes (d.lineKey w.msg.addr)).2 := by
  rcases opc with opc | opc <;> simp [serve, opc, uncached]

section fills
variable (fills : Fills w.msg.opc st) (cached : cacheable (d.lineKey w.msg.addr) = true)
include fills cached

/-- The first request for a line enters it (R291). -/
theorem serve_first (free : d.dirEnt (d.lineKey w.msg.addr) = none) : d.serve w = d.enter (d.lineKey w.msg.addr) st w := by
  rcases fills with ⟨opc, rfl⟩ | ⟨opc | opc, rfl⟩ <;> simp [serve, opc, cached, free]

/-- A BUSY line keeps the request in its queue (R292). -/
theorem serve_busy (found : d.dirEnt (d.lineKey w.msg.addr) = some e) (busy : e.busy = true) :
    d.serve w = d.behind (d.lineKey w.msg.addr) w := by
  rcases fills with ⟨opc, rfl⟩ | ⟨opc | opc, rfl⟩ <;> simp [serve, opc, cached, found, busy]

end fills

section shared
variable (opc : w.msg.opc = 2) (cached : cacheable (d.lineKey w.msg.addr) = true)
  (found : d.dirEnt (d.lineKey w.msg.addr) = some e) (idle : e.busy = false)
include opc cached found idle

theorem serve_shared : d.serve w =
    if e.st = 2 && !e.nodes.isEmpty then d.snoop (d.lineKey w.msg.addr) { e with serving := some w } e.nodes 0x31
    else ((d.addSharer (d.lineKey w.msg.addr) w.msg.src { e with st := 1 }).usedEnt (d.lineKey w.msg.addr)).reply w.msg 0x21 0
      (d.lineBytes (d.lineKey w.msg.addr)).1 (d.lineBytes (d.lineKey w.msg.addr)).2 := by
  simp [serve, opc, cached, found, idle]

/-- An owner is asked to share its line (R293). -/
theorem serve_shared_of_owned (owned : e.st = 2) (held : e.nodes ≠ []) :
    d.serve w = d.snoop (d.lineKey w.msg.addr) { e with serving := some w } e.nodes 0x31 := by
  rw [serve_shared opc cached found idle, if_pos (by simp [owned, held])]

/-- A line that no other node owns gains a sharer (R293, R294). -/
theorem serve_shared_of_unowned (unowned : e.st ≠ 2 ∨ e.nodes = []) :
    d.serve w = ((d.addSharer (d.lineKey w.msg.addr) w.msg.src { e with st := 1 }).usedEnt (d.lineKey w.msg.addr)).reply w.msg 0x21 0
      (d.lineBytes (d.lineKey w.msg.addr)).1 (d.lineBytes (d.lineKey w.msg.addr)).2 := by
  rw [serve_shared opc cached found idle, if_neg (by simpa [Decidable.imp_iff_not_or] using unowned)]
end shared

/-- What is left of an entry whose line has a new owner. -/
def ownedBy (e : DirEnt) (n : Nat) : DirEnt := { e with st := 2, coarse := false, nodes := [n], groups := [], loc := 0 }

section own
variable (opc : w.msg.opc = 3 ∨ w.msg.opc = 4) (cached : cacheable (d.lineKey w.msg.addr) = true)
  (found : d.dirEnt (d.lineKey w.msg.addr) = some e) (idle : e.busy = false)
include opc cached found idle

/-- RD_OWN and UPGRADE where the line has an entry (R293). -/
theorem serve_own : d.serve w =
    let key := d.lineKey w.msg.addr
    let others := (d.sharers e).filter (· ≠ w.msg.src)
    let u := (d.putDir key (ownedBy e w.msg.src)).usedEnt key
    if e.st = 2 && e.nodes.contains w.msg.src then d.reply w.msg 0x22 0 (d.lineBytes key).1 (d.lineBytes key).2
    else if e.st = 2 && !e.nodes.isEmpty then d.snoop key { e with serving := some w } e.nodes 0x32
    else if others.isEmpty then
      if !e.coarse && e.nodes.contains w.msg.src then u.reply w.msg 0x24 0 [] false
      else u.reply w.msg 0x22 0 (d.lineBytes key).1 (d.lineBytes key).2
    else d.snoop key { e with serving := some w } others 0x30 := by
  rcases opc with opc | opc <;>
  · simp only [serve, opc]
    rw [if_neg (by rw [cached]; decide), found]
    exact if_neg (by rw [idle]; decide)

/-- The owner is answered its own line (R293). -/
theorem serve_own_of_owner (owned : e.st = 2) (mine : w.msg.src ∈ e.nodes) :
    d.serve w = d.reply w.msg 0x22 0 (d.lineBytes (d.lineKey w.msg.addr)).1 (d.lineBytes (d.lineKey w.msg.addr)).2 := by
  rw [serve_own opc cached found idle]
  exact if_pos (by simp [owned, mine])

/-- Another owner is asked for its line (R293). -/
theorem serve_own_of_owned (owned : e.st = 2) (other : w.msg.src ∉ e.nodes) (held : e.nodes ≠ []) :
    d.serve w = d.snoop (d.lineKey w.msg.addr) { e with serving := some w } e.nodes 0x32 := by
  rw [serve_own opc cached found idle]
  exact (if_neg (by simp [other])).trans (if_pos (by simp [owned, held]))

section unowned
variable (unowned : e.st ≠ 2 ∨ e.nodes = [])
include unowned

/-- With no owner among the nodes, it depends on the sharers alone. -/
theorem serve_own_of_unowned : d.serve w =
    let key := d.lineKey w.msg.addr
    let others := (d.sharers e).filter (· ≠ w.msg.src)
    let u := (d.putDir key (ownedBy e w.msg.src)).usedEnt key
    if others.isEmpty then
      if !e.coarse && e.nodes.contains w.msg.src then u.reply w.msg 0x24 0 [] false
      else u.reply w.msg 0x22 0 (d.lineBytes key).1 (d.lineBytes key).2
    else d.snoop key { e with serving := some w } others 0x30 := by
  have notMine : ¬ (e.st = 2 ∧ w.msg.src ∈ e.nodes) := fun ⟨owned, mine⟩ =>
    unowned.elim (· owned) fun empty => List.ne_nil_of_mem mine empty
  have notHeld : ¬ (e.st = 2 ∧ e.nodes ≠ []) := fun ⟨owned, held⟩ => unowned.elim (· owned) held
  rw [serve_own opc cached found idle]
  exact (if_neg (by simpa using notMine)).trans (if_neg (by simpa using notHeld))

/-- The other sharers are invalidated before an owner is answered (R293). -/
theorem serve_own_of_shared (shared : (d.sharers e).filter (· ≠ w.msg.src) ≠ []) :
    d.serve w = d.snoop (d.lineKey w.msg.addr) { e with serving := some w } ((d.sharers e).filter (· ≠ w.msg.src)) 0x30 := by
  rw [serve_own_of_unowned opc cached found idle unowned]
  exact if_neg (mt List.isEmpty_iff.mp shared)

/-- With no other sharer the asker owns the line; one that shares it needs no data (R293). -/
theorem serve_own_of_alone (alone : (d.sharers e).filter (· ≠ w.msg.src) = []) :
    let key := d.lineKey w.msg.addr
    let u := (d.putDir key (ownedBy e w.msg.src)).usedEnt key
    d.serve w = if e.coarse = false ∧ w.msg.src ∈ e.nodes then u.reply w.msg 0x24 0 [] false
      else u.reply w.msg 0x22 0 (d.lineBytes key).1 (d.lineBytes key).2 := by
  rw [serve_own_of_unowned opc cached found idle unowned]
  exact (if_pos (List.isEmpty_iff.mpr alone)).trans (ite_congr (by simp) (fun _ => rfl) fun _ => rfl)
end unowned
end own

section evict
variable (opc : w.msg.opc = 9)
include opc

/-- An EVICT of a line that has no entry changes nothing (R293). -/
theorem serve_evict_of_none (free : d.dirEnt (d.lineKey w.msg.addr) = none) : d.serve w = d := by
  simp [serve, opc, free]

variable (found : d.dirEnt (d.lineKey w.msg.addr) = some e)
include found

theorem serve_evict_busy (busy : e.busy = true) : d.serve w = d.behind (d.lineKey w.msg.addr) w := by
  simp [serve, opc, found, busy]

variable (idle : e.busy = false)
include idle

theorem serve_evict : d.serve w =
    if e.st ≠ 1 || e.coarse then d
    else if e.nodes.all (· == w.msg.src) && e.loc = 0 then d.delDir (d.lineKey w.msg.addr)
    else d.putDir (d.lineKey w.msg.addr) { e with nodes := e.nodes.filter (· ≠ w.msg.src) } := by
  simp only [serve, opc]
  rw [found]
  exact if_neg (by rw [idle]; decide)

/-- An entry that lists no sharers by name stays as it is (R294). -/
theorem serve_evict_of_unlisted (unlisted : e.st ≠ 1 ∨ e.coarse = true) : d.serve w = d := by
  rw [serve_evict opc found idle]
  exact if_pos (by simpa using unlisted)

/-- A sharer goes, and the entry with its last one (R293). -/
theorem serve_evict_of_listed (shared : e.st = 1) (listed : e.coarse = false) :
    d.serve w = if e.nodes.all (· == w.msg.src) ∧ e.loc = 0 then d.delDir (d.lineKey w.msg.addr)
      else d.putDir (d.lineKey w.msg.addr) { e with nodes := e.nodes.filter (· ≠ w.msg.src) } := by
  rw [serve_evict opc found idle]
  exact (if_neg (by simp [shared, listed])).trans (ite_congr (by simp) (fun _ => rfl) fun _ => rfl)
end evict
end serve

/-! ## WB -/

/-- A WB from a node that does not own the line is acknowledged and dropped (R295). -/
theorem writeBack_of_notOwner {d : Dev} {m : Msg}
    (notOwner : d.dirEnt (d.lineKey m.addr) = none ∨ ∃ e, d.dirEnt (d.lineKey m.addr) = some e ∧ (e.st ≠ 2 ∨ m.src ∉ e.nodes)) :
    d.writeBack m = d.reply m 0x23 0 [] false := by
  rcases notOwner with free | ⟨e, found, notOwner⟩
  · simp [writeBack, free]
  · rw [writeBack]
    dsimp only
    rw [found]
    exact if_pos (by simpa using notOwner)

/-- The owner's line is written to memory, and no one holds it any longer (R292). -/
theorem writeBack_of_owner {d : Dev} {m : Msg} {e : DirEnt} (found : d.dirEnt (d.lineKey m.addr) = some e) (owned : e.st = 2)
    (mine : m.src ∈ e.nodes) (unasked : e.busy = false ∨ m.src ∉ e.await) :
    d.writeBack m = ((d.lineBack (d.lineKey m.addr) m).delDir (d.lineKey m.addr)).reply m 0x23 0 [] false := by
  rw [writeBack]
  dsimp only
  rw [found]
  exact (if_neg (by simp [owned, mine])).trans (if_neg (by simpa [Decidable.imp_iff_not_or] using unasked))

end Dev

/-! ## The five commands -/

/-- A request keeps all but its address and its CLAMPED flag where its home clamps it (R76). -/
theorem Dev.arrive_msg (d : Dev) (m : Msg) (redirect : Nat → Nat) (n : Nat) :
    ∃ a c, (d.arrive m redirect n).2 = { m with addr := a, clamped := c } := ⟨_, _, rfl⟩

/-- The commands of the requests that are served at a line, each with its opcode. -/
def lineReqs (h : Fin 36) (m : Msg) : List (Instr × Nat) := [(.rdShared h m, 2), (.rdOwn h m, 3), (.upgrade h m, 4), (.evict h m, 9)]

section exec
variable {h : Fin 36} {m : Msg} {s : State}

/-- A request of a line that is the oldest of its channel is served (R272). -/
theorem exec_lineReq {i : Instr} {opc : Nat}
    (named : (i, opc) ∈ lineReqs h m) (oldest : s.dev.rxFirst h m opc = true) {u : Dev}
    (served : ((s.dev.rxTake h m).arrive m Dev.stay 128).1.serve ⟨((s.dev.rxTake h m).arrive m Dev.stay 128).2, h⟩ = u) :
    exec i s = .next { s with dev := u } := by
  have command : exec i s = .next (s.onDev fun d => d.msgDo h m opc fun d => d.lineReq h m) := by
    simp only [lineReqs, List.mem_cons, Prod.mk.injEq, List.not_mem_nil, or_false] at named
    rcases named with ⟨rfl, rfl⟩ | ⟨rfl, rfl⟩ | ⟨rfl, rfl⟩ | ⟨rfl, rfl⟩ <;> rfl
  rw [command]
  exact next_onDev_congr (g := fun _ => u) ((if_pos oldest).trans served)

theorem exec_wb (oldest : s.dev.rxFirst h m 7 = true) {u : Dev}
    (written : ((s.dev.rxTake h m).arrive m Dev.stay 128).1.writeBack ((s.dev.rxTake h m).arrive m Dev.stay 128).2 = u) :
    exec (.wb h m) s = .next { s with dev := u } :=
  next_onDev_congr (g := fun _ => u) ((if_pos oldest).trans written)
end exec

/-- What a request does that finds no entry for its line and no room for one, or an earlier one that waits for it (R291): stated of the
device that it leaves. -/
theorem Dev.serve_first_crowded {d : Dev} {w : DirWait} {st : Nat} {P : Dev → Prop} (run : ∀ {u}, d.serve w = u → P u)
    (fills : Dev.Fills w.msg.opc st) (cached : Dev.cacheable (d.lineKey w.msg.addr) = true) :
    (∀ v, d.dirEnt (d.lineKey w.msg.addr) = none → d.roomHolder (d.lineKey w.msg.addr) = some v → P (d.behind v w)) ∧
    (∀ v, d.dirEnt (d.lineKey w.msg.addr) = none → d.roomHolder (d.lineKey w.msg.addr) = none →
      16 ≤ (d.setOf (d.lineKey w.msg.addr)).length → d.victim (d.lineKey w.msg.addr) = some v →
      (d.sharers v.2 ≠ [] → P (d.evictEnt v (some w))) ∧
      (d.sharers v.2 = [] → P ((d.evictEnt v none).enterNow (d.lineKey w.msg.addr) st w))) :=
  ⟨fun _ free holder => run ((serve_first fills cached free).trans (enter_behind_holder holder)),
    fun _ free unheld full victim =>
      ⟨fun held => run ((serve_first fills cached free).trans (enter_full_held unheld full victim held)),
        fun unshared => run ((serve_first fills cached free).trans (enter_full_free unheld full victim unshared))⟩⟩

/-- Settles O36: each clause is one case of how a request is served, by its opcode and by what the directory says of its line. -/
theorem homeRequests : Obligations.HomeRequests := by
  intro h m s p d q key w line dest
  have run : ∀ {i opc}, (i, opc) ∈ lineReqs h m → s.dev.rxFirst h m opc = true → ∀ {u}, d.serve w = u → exec i s = .next { s with dev := u } :=
    exec_lineReq
  have written : s.dev.rxFirst h m 7 = true → ∀ {u}, d.writeBack q = u → exec (.wb h m) s = .next { s with dev := u } := exec_wb
  have same : q.opc = m.opc ∧ q.src = m.src := by
    obtain ⟨a, c, arrived⟩ := (s.dev.rxTake h m).arrive_msg m Dev.stay 128
    rw [show q = _ from arrived]
    exact ⟨rfl, rfl⟩
  -- of the arrival only this is needed; its numbers would be unfolded below
  clear_value d q
  clear p
  rw [← same.1, ← same.2]
  refine ⟨fun oldest opc => ?shared, fun r named oldest opc => ?own, fun oldest opc => ?evict, fun oldest => ?wb⟩
  case shared =>
    have run := fun {u} => run (u := u) (.head _) oldest
    have fills : Dev.Fills w.msg.opc 1 := .inl ⟨opc, rfl⟩
    have crowded := Dev.serve_first_crowded (P := dest (.rdShared h m)) run fills
    exact ⟨fun uncached => run (Dev.serve_shared_uncacheable opc uncached), fun cached =>
      ⟨fun free unheld room => run ((Dev.serve_first fills cached free).trans ((Dev.enter_room unheld room).trans Dev.enterNow_shared)),
        crowded cached,
        fun _ found busy => run (Dev.serve_busy fills cached found busy),
        fun _ found idle owned held => run (Dev.serve_shared_of_owned opc cached found idle owned held),
        fun _ found idle unowned => run (Dev.serve_shared_of_unowned opc cached found idle unowned)⟩⟩
  case own =>
    have run := fun {u} => run (u := u) (.tail _ (List.mem_append_left [(Instr.evict h m, 9)] named)) oldest
    have owns : w.msg.opc = 3 ∨ w.msg.opc = 4 := by
      simp only [List.mem_cons, List.not_mem_nil, or_false] at named
      rcases named with rfl | rfl
      · exact .inl opc
      · exact .inr opc
    have fills : Dev.Fills w.msg.opc 2 := .inr ⟨owns, rfl⟩
    have crowded := Dev.serve_first_crowded (P := dest r.1) run fills
    exact ⟨fun uncached => run (Dev.serve_own_uncacheable owns uncached), fun cached =>
      ⟨fun free unheld room => run ((Dev.serve_first fills cached free).trans ((Dev.enter_room unheld room).trans Dev.enterNow_owned)),
        crowded cached,
        fun _ found busy => run (Dev.serve_busy fills cached found busy),
        fun _ found idle owned mine => run (Dev.serve_own_of_owner owns cached found idle owned mine),
        fun _ found idle owned other held => run (Dev.serve_own_of_owned owns cached found idle owned other held),
        fun _ found idle unowned _ shared => run (Dev.serve_own_of_shared owns cached found idle unowned shared),
        fun _ found idle unowned alone => run (Dev.serve_own_of_alone owns cached found idle unowned alone)⟩⟩
  case evict =>
    have run := fun {u} => run (u := u) (.tail _ (.tail _ (.tail _ (.head _)))) oldest
    exact ⟨fun free => run (Dev.serve_evict_of_none opc free),
      fun _ found busy => run (Dev.serve_evict_busy opc found busy),
      fun _ found idle unlisted => run (Dev.serve_evict_of_unlisted opc found idle unlisted),
      fun _ found idle shared listed => run (Dev.serve_evict_of_listed opc found idle shared listed)⟩
  case wb =>
    exact ⟨fun notOwner => written oldest (Dev.writeBack_of_notOwner notOwner),
      fun _ found owned mine unasked => written oldest (Dev.writeBack_of_owner found owned mine unasked)⟩

end Sys2Proof.Machine
end

section
/-! PROOFS. The matrix arrays of a core, their gaps and ramps, and the stop of a core (R163 to R167, R170, R171). -/
namespace Sys2Proof.Machine
namespace Dev

section arrays
variable {d : Dev} {k m : Nat}

/-! ## The gap of an array -/

/-- An array as a gap finds it: it keeps its density, its ramp and its owner, and takes the settings of the moment (R163, R165, R166). -/
def gapArr (d : Dev) (k m : Nat) : Arr :=
  { d.arr k m with
    gap := true
    thresh := d.fld (R.kuduGap k) F.kuduGap_thresh
    rampUs := d.fld (R.kuduGap k) F.kuduGap_ramp + 1
    dummyEn := d.flag (R.kuduCtrl k) F.kuduCtrl_dummyEn }

theorem gapBegin_not_due (h : (d.arr k m).gap = true ∨ d.busyArr k m = true ∨ d.isFenced (unitId 1 k) = true) : d.gapBegin k m = d :=
  if_pos (by simpa [or_assoc] using h)

theorem gapBegin_due (closed : (d.arr k m).gap = false) (idle : d.busyArr k m = false) (serves : d.isFenced (unitId 1 k) = false) :
    d.gapBegin k m =
      let e := d.setFld (R.kuduMaStatus k m) F.kuduMaStatus_active 0
      if (d.gapArr k m).dummyEn then e.setArr k m (d.gapArr k m)
      else (e.setArr k m { d.gapArr k m with density := 0, ramp := 0 }).idleEvt k :=
  if_neg (by simp [closed, idle, serves])

/-! ## The ramps of an array -/

theorem rampDown_not_due (h : (d.arr k m).gap = false ∨ (d.arr k m).ramp = 1 ∨ (d.arr k m).density = 0 ∨ (d.arr k m).dummyEn = false) :
    d.rampDown k m = d :=
  if_pos (by simpa [or_assoc] using h)

theorem rampDown_due (opened : (d.arr k m).gap = true) (level : (d.arr k m).ramp ≠ 1) (runs : (d.arr k m).density ≠ 0)
    (dummies : (d.arr k m).dummyEn = true) :
    d.rampDown k m = ((if (d.arr k m).thresh = 0 then d else d.dummies k m).setArr k m
      { d.arr k m with ramp := if (d.arr k m).density = 1 then 0 else 1, density := (d.arr k m).density - 1 }).idleEvt k :=
  if_neg (by simp [opened, level, runs, dummies])

theorem rampInterval_down (down : (d.arr k m).ramp = 1) :
    d.rampInterval k m = ((d.dummies k m).setArr k m
      { d.arr k m with density := (d.arr k m).density - 1, ramp := if (d.arr k m).density ≤ 1 then 0 else 1 }).idleEvt k := by
  simp only [rampInterval, down]

theorem rampInterval_up (up : (d.arr k m).ramp = 2) :
    d.rampInterval k m = (if d.flag (R.kuduMaStatus k m) F.kuduMaStatus_active then d else d.dummies k m).setArr k m
      { d.arr k m with density := min 64 ((d.arr k m).density + 1), ramp := if 63 ≤ (d.arr k m).density then 0 else 2 } := by
  simp only [rampInterval, up]

theorem rampInterval_level (level : (d.arr k m).ramp = 0) : d.rampInterval k m = d := by
  simp only [rampInterval, level]

/-- Real work ends the gap of an array below full density (R164, R166): at full density at once where the gap takes no dummy vectors,
one sixty-fourth denser where it does, which from density 0 is a wake. -/
theorem rampUp_due (opened : (d.arr k m).gap = true) (below : (d.arr k m).density ≠ 64) (busy : d.busyArr k m = true)
    (serves : d.isFenced (unitId 1 k) = false) :
    d.rampUp k m =
      let a := d.arr k m
      let e := d.setFld (R.kuduMaStatus k m) F.kuduMaStatus_active 1
      if a.dummyEn = false then e.setArr k m { a with gap := false, density := 64, ramp := 0, owner := (e.core k).cur }
      else
        let u := if a.density = 0 then (e.count (R.kuduWakeCnt k) (R.kuduPwrEvt k) F.kuduPwrEvt_wakeOvf).setFld (R.kuduPwrEvt k) F.kuduPwrEvt_wake 1 else e
        u.setArr k m { a with gap := false, density := a.density + 1, ramp := if a.density = 63 then 0 else 2, owner := (u.core k).cur } :=
  (if_neg (by simp [opened, below, busy, serves])).trans (ite_congr (by simp) (fun _ => rfl) fun _ => rfl)

/-! ## The stop of a core -/

/-- Setting RUN resumes nothing where the core holds no multiplication that is not over (R167). -/
theorem mmGo_without_job (noJob : ∀ c x, d.curCtx k = some (c, x) → x.mm = none) : d.mmGo k = d := by
  unfold mmGo
  split
  · rfl
  · next c cur =>
    have ended : (d.ctx? c).bind (·.mm) = none := by
      cases found : d.ctx? c with
      | none => rfl
      | some x => exact noJob c x (by simp [curCtx, cur, found])
    rw [ended]

theorem coreStopped_not_due (h : (d.core k).stopping = false ∨ d.isFenced (unitId 1 k) = true) : d.coreStopped k = d :=
  if_pos (by simpa using h)

theorem coreStopped_due (stopping : (d.core k).stopping = true) (serves : d.isFenced (unitId 1 k) = false) :
    d.coreStopped k = ((match (d.core k).cur with | some c => d.mmStop c | none => d).setFld (R.kuduStatus k) F.kuduStatus_stopped 1).modCore k
      (fun y => { y with stopping := false }) :=
  if_neg (by simp [stopping, serves])

/-! ## The scale file -/

/-- A write of one word of a scale entry leaves the other word (R171). -/
theorem joinScale_word (old : W64) (hi : Bool) (v : W32) :
    joinScale (if hi then ((splitScale old).1, v) else (v, (splitScale old).2)) =
      BitVec.ofNat 64 (if hi then old.toNat % 2 ^ 32 + v.toNat * 2 ^ 32 else v.toNat + old.toNat / 2 ^ 32 * 2 ^ 32) := by
  cases hi with
  | true => rfl
  | false =>
    have upper : old.toNat / 2 ^ 32 % 2 ^ 32 = old.toNat / 2 ^ 32 := Nat.mod_eq_of_lt (by omega)
    exact congrArg (fun n => BitVec.ofNat 64 (v.toNat + n * 2 ^ 32)) upper

theorem scaleWrite_of_running {hi : Bool} (e : Nat) (v : W32) (runs : d.flag (R.kuduStatus k) F.kuduStatus_stopped = false) :
    d.scaleWrite k e hi v = d :=
  if_pos (by simp [runs])

theorem scaleWrite_of_stopped {hi : Bool} (e : Nat) (v : W32) (stopped : d.flag (R.kuduStatus k) F.kuduStatus_stopped = true) :
    d.scaleWrite k e hi v =
      let old := d.scaleAt k e
      d.setScale k e (BitVec.ofNat 64 (if hi then old.toNat % 2 ^ 32 + v.toNat * 2 ^ 32 else v.toNat + old.toNat / 2 ^ 32 * 2 ^ 32)) :=
  (if_neg (by simp [stopped])).trans (congrArg (d.setScale k e) (joinScale_word _ hi v))

end arrays
end Dev

section exec
variable {s : State} {r : Req} {k : Fin 64}

theorem exec_kuduCoreRun (ok : s.dev.busAns r (R.kuduCtrl k) true = .ok) :
    exec (.kuduCoreRun r k) s = .next { s with dev := s.dev.coreRun k } :=
  next_onDev_congr (g := fun _ => s.dev.coreRun k) (Dev.regDo_of_ok ok _)

theorem exec_kuduScaleWrite {e : BitVec 12} {hi : Bool} {v : W32}
    (ok : s.dev.busAns r (R.kuduCtrl k + 0x8000 + 8 * e.toNat + (if hi then 4 else 0)) true = .ok) :
    exec (.kuduScaleWrite r k e hi v) s = .next (s.onDev fun d => d.scaleWrite k e.toNat hi v) := by
  have place : (if hi then 4 else 0) = 4 * b2n hi := by cases hi <;> rfl
  rw [place] at ok
  exact next_onDev_congr (Dev.regDo_of_ok ok _)
end exec

/-- Settles O24: each clause is one case of the array's or the core's own operation; the writes are made where the bus lets them. -/
theorem arraysAndCores : Obligations.ArraysAndCores := by
  intro r k m s a idle
  exact ⟨fun h => next_onDev_eq_self (Dev.gapBegin_not_due h),
    fun closed quiet serves => next_onDev_congr (Dev.gapBegin_due closed quiet serves),
    fun opened level runs dummies => next_onDev_congr (Dev.rampDown_due opened level runs dummies),
    fun h => next_onDev_eq_self (Dev.rampDown_not_due h),
    fun down => next_onDev_congr (Dev.rampInterval_down down),
    fun up => next_onDev_congr (Dev.rampInterval_up up),
    fun level => next_onDev_eq_self (Dev.rampInterval_level level),
    fun opened below busy serves => next_onDev_congr (Dev.rampUp_due opened below busy serves),
    fun ok => ⟨next_onDev_congr (Dev.regDo_of_ok ok _), exec_kuduCoreRun ok, fun free => Dev.mmGo_without_job (by simp [free]),
      fun c x placed noJob => Dev.mmGo_without_job (by simp [placed, noJob])⟩,
    fun stopping serves => next_onDev_congr (Dev.coreStopped_due stopping serves),
    fun h => next_onDev_eq_self (Dev.coreStopped_not_due h),
    fun e hi v ok => ⟨fun runs => (exec_kuduScaleWrite ok).trans (next_onDev_eq_self (Dev.scaleWrite_of_running _ v runs)),
      fun stopped => (exec_kuduScaleWrite ok).trans (next_onDev_congr (Dev.scaleWrite_of_stopped _ v stopped))⟩⟩

end Sys2Proof.Machine
end

section
/-! PROOFS. The landing of a beat and the end of a transfer: what they leave of the transfers of a context (R198 to R202, R124). -/
namespace Sys2Proof.Machine
namespace Dev

/-! ## Contexts and cores that a read leaves as they are -/

/-- The contexts and the cores of e are those of d. -/
structure PlacedKeep (d e : Dev) : Prop where
  ctxs : e.ctxs = d.ctxs
  cores : e.cores = d.cores

theorem PlacedKeep.refl (d : Dev) : PlacedKeep d d := ⟨rfl, rfl⟩

theorem PlacedKeep.trans {d e f : Dev} (h : PlacedKeep d e) (g : PlacedKeep e f) : PlacedKeep d f :=
  ⟨g.ctxs.trans h.ctxs, g.cores.trans h.cores⟩

theorem PlacedKeep.core {d e : Dev} (h : PlacedKeep d e) (k : Nat) : e.core k = d.core k := by
  unfold Dev.core
  rw [h.cores]

theorem RegKeep.placed {d e : Dev} (h : RegKeep d e) : PlacedKeep d e := ⟨h.ctxs, h.cores⟩

theorem addPair_keep (d : Dev) (lo n evt : Nat) (wrap : Fld) : RegKeep d (d.addPair lo n evt wrap) := by
  unfold addPair
  dsimp only
  split
  · exact setPair_keep _ _ _
  · exact (setPair_keep _ _ _).trans (setFld_keep _ _ _ _)

theorem PlacedKeep.foldl {α : Type} {f : Dev → α → Dev} (each : ∀ d a, PlacedKeep d (f d a)) (l : List α) (d : Dev) :
    PlacedKeep d (l.foldl f d) :=
  List.foldlRecOn l f (PlacedKeep.refl d) fun e kept a _ => kept.trans (each e a)

theorem PlacedKeep.ite {d e f : Dev} {p : Prop} [Decidable p] (yes : PlacedKeep d e) (no : PlacedKeep d f) :
    PlacedKeep d (if p then e else f) := by
  split
  · exact yes
  · exact no

theorem countHit_placed (d : Dev) (tier off : Nat) : PlacedKeep d (d.countHit tier off) :=
  ((count_keep _ _ _ _).trans (setFld_keep _ _ _ _)).placed

theorem sampleBlk_placed (d : Dev) (b : Nat) : PlacedKeep d (d.sampleBlk b).2 := by
  unfold sampleBlk
  split
  · exact (count_keep _ _ _ _).placed
  · exact PlacedKeep.refl d

theorem countRind_placed (d : Dev) (tier off : Nat) : PlacedKeep d (d.countRind tier off) := by
  unfold countRind
  dsimp only
  split
  · exact PlacedKeep.refl d
  · split
    · exact PlacedKeep.refl d
    · have counted := ((count_keep d R.tierRindErrCnt R.tierEvt F.tierEvt_rindOvf).trans (setFld_keep _ R.tierEvt F.tierEvt_rindErr 1)).placed
      exact .ite (.refl d) ⟨counted.ctxs, counted.cores⟩

theorem ltouchPiece_placed (d : Dev) (wr : Bool) (tier off : Nat) : PlacedKeep d (d.ltouchPiece wr tier off) := by
  unfold ltouchPiece
  extract_lets p src touched hit sampled
  have keeps : PlacedKeep d touched := by
    unfold touched
    split <;> exact ⟨rfl, rfl⟩
  refine .ite keeps ?_
  have keeps : PlacedKeep d hit := .ite (keeps.trans (countHit_placed _ _ _)) keeps
  have keeps : PlacedKeep d sampled := .ite (keeps.trans (sampleBlk_placed _ _)) keeps
  exact .ite (keeps.trans (countRind_placed _ _ _)) keeps

theorem ownCaches_placed (d : Dev) (wr : Bool) (tier off n : Nat) : PlacedKeep d (d.ownCaches wr tier off n) := by
  unfold ownCaches
  refine .ite (.refl d) (.foldl (fun e key => ?_) _ d)
  split
  · exact .refl e
  · exact .ite (.refl e) (.ite ⟨rfl, rfl⟩ ⟨rfl, rfl⟩)

theorem raise_placed (d : Dev) (f : FaultReq) : PlacedKeep d (d.raise f) := ⟨rfl, rfl⟩

theorem meetPiece_placed (d : Dev) (reader tier off n : Nat) : PlacedKeep d (d.meetPiece reader tier off n) := by
  unfold meetPiece
  extract_lets p malformed ctrl u a old disarmed injected
  have keeps : PlacedKeep d malformed := .ite (raise_placed _ _) (.refl d)
  refine .ite keeps ?_
  have disarms : PlacedKeep d disarmed := keeps.trans (setFld_keep _ _ _ _).placed
  have keeps : PlacedKeep d injected := by
    unfold injected
    split
    · exact keeps
    · exact .ite disarms (disarms.trans (raise_placed _ _))
  exact .ite (keeps.trans (raise_placed _ _)) keeps

/-- What a read leaves behind touches no context and no core. -/
theorem lmeet_placed (d : Dev) (reader tier off n : Nat) : PlacedKeep d (d.lmeet reader tier off n) :=
  have met := PlacedKeep.foldl (fun e (p : Nat × Nat × Nat) => meetPiece_placed e reader tier p.1 p.2.2) (pieces off n) d
  have owned := met.trans (ownCaches_placed _ false tier off n)
  owned.trans (PlacedKeep.foldl (fun e (p : Nat × Nat × Nat) => ltouchPiece_placed e false tier p.1) (pieces off n) _)

/-! ## A context whose transfers move bytes between memory and scratch -/

/-- No transfer of context c sends tokens or replies (Table 08-1). -/
def StreamsOnly (d : Dev) (c : Nat) : Prop := ∀ x, d.ctx? c = some x → ∀ t ∈ x.xfers, t.streams = true

theorem StreamsOnly.of_ctx {d : Dev} {c : Nat} {x : Ctx} (here : d.ctx? c = some x) (streams : ∀ t ∈ x.xfers, t.streams = true) : d.StreamsOnly c := by
  intro y found
  rw [here] at found
  cases found
  exact streams

theorem StreamsOnly.of_ctxs {d e : Dev} {c : Nat} (streams : d.StreamsOnly c) (same : e.ctxs = d.ctxs) : e.StreamsOnly c := by
  unfold StreamsOnly ctx?
  rw [same]
  exact streams

theorem StreamsOnly.modCtx {d : Dev} {c : Nat} (streams : d.StreamsOnly c) (f : Ctx → Ctx)
    (kinds : ∀ x, ∀ t ∈ (f x).xfers, ∃ u ∈ x.xfers, t.kind = u.kind) : (d.modCtx c f).StreamsOnly c := by
  intro y found t mem
  rw [ctx?_modCtx, Option.map_eq_some_iff] at found
  obtain ⟨x, here, rfl⟩ := found
  obtain ⟨u, umem, kind⟩ := kinds x t mem
  have moves := streams x here u umem
  unfold Xfer.streams at moves ⊢
  rwa [kind]

theorem StreamsOnly.modXfer {d : Dev} {c : Nat} (streams : d.StreamsOnly c) (xid : Nat) (f : Xfer → Xfer) (kind : ∀ t, (f t).kind = t.kind) :
    (d.modXfer c xid f).StreamsOnly c := by
  refine streams.modCtx _ fun x t mem => ?_
  obtain ⟨u, umem, rfl⟩ := List.mem_map.mp mem
  exact ⟨u, umem, by split <;> simp [kind]⟩

theorem StreamsOnly.foldl {α : Type} {c : Nat} {f : Dev → α → Dev} (each : ∀ d a, d.StreamsOnly c → (f d a).StreamsOnly c) (l : List α) {d : Dev}
    (streams : d.StreamsOnly c) : (l.foldl f d).StreamsOnly c :=
  List.foldlRecOn l f streams fun e h a _ => each e a h

section
variable {d : Dev} {c : Nat} (streams : d.StreamsOnly c)
include streams

/-- A change of the context that leaves its transfers alone. -/
theorem StreamsOnly.modCtx_rest (f : Ctx → Ctx) (same : ∀ x, (f x).xfers = x.xfers) : (d.modCtx c f).StreamsOnly c :=
  streams.modCtx f fun x t mem => ⟨t, same x ▸ mem, rfl⟩

theorem StreamsOnly.scrOpen (p : Nat) : (d.scrOpen c p).StreamsOnly c := by
  unfold Dev.scrOpen
  split
  · exact streams
  · refine StreamsOnly.modCtx_rest ?_ _ fun _ => rfl
    split
    · exact streams
    · split
      · exact streams.of_ctxs rfl
      · exact streams.modCtx_rest _ fun _ => rfl

theorem StreamsOnly.scrPut (w : SWrite) : (d.scrPut c w).StreamsOnly c := by
  unfold Dev.scrPut
  split
  · exact streams
  · dsimp only
    split
    · exact streams.of_ctxs rfl
    · exact streams.modCtx_rest _ fun _ => rfl

theorem StreamsOnly.scrClean (ws : List SWrite) : (d.scrClean c ws).StreamsOnly c := by
  unfold Dev.scrClean
  split
  · exact streams
  · dsimp only
    split
    · split
      · exact streams
      · exact streams.of_ctxs rfl
    · split
      · exact streams
      · exact streams.modCtx_rest _ fun _ => rfl

theorem StreamsOnly.breakResv (tier off n : Nat) : (d.breakResv tier off n).StreamsOnly c := by
  unfold Dev.breakResv
  split
  · exact streams
  · exact streams.of_ctxs rfl

theorem StreamsOnly.scrWrite (ws : List SWrite) : (d.scrWrite c ws).StreamsOnly c := by
  unfold Dev.scrWrite
  split
  · exact streams
  · next x here =>
    extract_lets r last e pages opened written
    have ordered : e.StreamsOnly c := by
      obtain ⟨n, drawn⟩ := d.lastOrder_dev x.allot SWrite.addr ws
      exact streams.of_ctxs (congrArg Dev.ctxs drawn :)
    have opens : opened.StreamsOnly c := .foldl (fun _ p h => h.scrOpen p) _ ordered
    have writes : written.StreamsOnly c := (StreamsOnly.foldl (fun _ w h => h.scrPut w) last opens).scrClean last
    split
    · exact writes
    · exact .foldl (fun _ w h => h.breakResv _ _ _) _ writes

theorem StreamsOnly.beatOver (k : Nat) (b : Beat) (i : Nat) : (d.beatOver k c b i).StreamsOnly c := by
  have landed := StreamsOnly.modXfer (d := d.modCore k fun y => { y with inflight := y.inflight.eraseIdx i }) (streams.of_ctxs rfl) b.xid
    (fun t => { t with landed := t.landed + b.n }) fun _ => rfl
  exact (landed.of_ctxs (addPair_keep _ _ _ _ _).ctxs).modCtx_rest _ fun _ => rfl

theorem StreamsOnly.loaded (k i : Nat) (b : Beat) (t : Xfer) (l : List (Nat × Byte)) : (d.loaded k c i b t l).StreamsOnly c :=
  StreamsOnly.scrWrite ((streams.beatOver k b i).modXfer t.id _ fun _ => by rfl) _

/-- Such a context has no column of tokens to send. -/
theorem StreamsOnly.tokFlush : d.tokFlush c = d := by
  unfold Dev.tokFlush
  split
  · rfl
  · next x here =>
    have none : x.xfers.filter (fun t => !t.streams) = [] := List.filter_eq_nil_iff.mpr fun t mem => by simp [streams x here t mem]
    simp [none]

end

/-! ## A beat that lands -/

section land
variable {d : Dev} {k i : Nat} {b : Beat} {x : Ctx} {t : Xfer}

section
variable (flying : (d.core k).inflight[i]? = some b) (here : d.ctx? b.ctx = some x) (carries : x.xfers.find? (·.id == b.xid) = some t)
include flying here carries

/-- A beat whose turn it is not stays in flight (R199). -/
theorem landBeat_of_not_may (waits : beatMay (d.core k) i b = false) : d.landBeat k i = d := by
  simp [landBeat, flying, here, carries, waits]

theorem landBeat_load (may : beatMay (d.core k) i b = true) (streams : t.streams = true) (load : t.isStore = false) :
    d.landBeat k i = d.landLoad k b.ctx i x b t := by
  simp [landBeat, flying, here, carries, may, streams, load]
end

/-- The runs of memory that a beat of a load from tiers 1 and 2 reads: its bytes that have not been read yet, with those of words that
it shares with other beats (R101, log 74). -/
def loadRuns (d : Dev) (t : Xfer) (b : Beat) : List (Nat × Nat × Nat) := d.farRuns t (reads (d.farOff t) 8 t b.lo b.n)

/-- What the reads of a beat's runs leave behind. -/
def loadMet (d : Dev) (k : Nat) (t : Xfer) (b : Beat) : Dev :=
  (d.loadRuns t b).foldl (fun d r => d.lmeet (unitId 1 k) (addrTier t.src.base) r.2.1 r.2.2) d

theorem loadMet_placed (d : Dev) (k : Nat) (t : Xfer) (b : Beat) : PlacedKeep d (d.loadMet k t b) :=
  .foldl (fun e (r : Nat × Nat × Nat) => lmeet_placed e (unitId 1 k) (addrTier t.src.base) r.2.1 r.2.2) _ d

/-- The bytes at some runs of a transfer's source, each with its place in the transfer. -/
def runBytes (d : Dev) (t : Xfer) (runs : List (Nat × Nat × Nat)) : List (Nat × Byte) :=
  runs.flatMap fun r => (List.range r.2.2).map fun j => (r.1 + j, (d.lread (addrTier t.src.base) r.2.1 r.2.2).1.getD j 0#8)

theorem mmHolds_of_none (noJob : x.mm = none) (offs : List Nat) : mmHolds x offs = false := by simp [mmHolds, noJob]

theorem flatMap_zip_map {α β γ : Type} (l : List α) (f : α → β) (g : α × β → List γ) :
    (l.zip (l.map f)).flatMap g = l.flatMap fun a => g (a, f a) := by
  rw [← List.map_prod_left_eq_zip, List.flatMap_map]

/-- A beat of a load from HBM or LPDDR of this device that no line holds back and whose bytes are good lands them (R199, R202). -/
theorem landLoad_here (noJob : x.mm = none) (home : d.farAway t = false) (tier : addrTier t.src.base = 1 ∨ addrTier t.src.base = 2)
    (load : t.isStore = false)
    (ready : ∀ r ∈ d.loadRuns t b, d.lholds (addrTier t.src.base) r.2.1 r.2.2 false = [] ∧ (d.lread (addrTier t.src.base) r.2.1 r.2.2).2 = false)
    (c : Nat) :
    d.landLoad k c i x b t = (d.loadMet k t b).loaded k c i b t (d.runBytes t (d.loadRuns t b)) := by
  have far : t.far = t.src := by simp [Xfer.far, load]
  have tier0 : addrTier t.src.base ≠ 0 := by omega
  have tier3 : addrTier t.src.base ≠ 3 := by omega
  have tier4 : addrTier t.src.base ≠ 4 := by omega
  have word : d.srcUnit t = 8 := by simp [srcUnit, far, tier3]
  have free : (d.loadRuns t b).flatMap (fun r => d.lholds (addrTier t.src.base) r.2.1 r.2.2 false) = [] :=
    List.flatMap_eq_nil_iff.mpr fun r mem => (ready r mem).1
  have good : ((d.loadRuns t b).map fun r => d.lread (addrTier t.src.base) r.2.1 r.2.2).any (·.2) = false := by
    rw [List.any_map, List.any_eq_false]
    exact fun r mem => by simp [(ready r mem).2]
  have runs : d.farRuns t (reads (d.farOff t) (d.srcUnit t) t b.lo b.n) = d.loadRuns t b := by rw [word, loadRuns]
  simp [landLoad, mmHolds_of_none noJob, home, tier0, tier4, runs, free, good, loadMet, runBytes, flatMap_zip_map]
end land

/-! ## The end of a transfer -/

section complete
variable {d : Dev} {c e : Nat} {x : Ctx} {t : Xfer} (here : d.ctx? c = some x) (oldest : x.xfers.find? (·.eng == e) = some t)
include here oldest

/-- A transfer that sends no tokens has no CLOSE to send (R303). -/
theorem tokClose_of_closed (closed : t.tok.closed = true) : d.tokClose c e = d := by
  simp [tokClose, here, oldest, closed]

theorem xferComplete_not_due (waits : d.isRes c x = false ∨ t.landed < t.total) : d.xferComplete c e = d := by
  rcases waits with away | moving
  · simp [xferComplete, here, oldest, away]
  · simp [xferComplete, here, oldest, moving]

theorem xferComplete_due (resident : d.isRes c x = true) (landed : t.total ≤ t.landed) (closed : t.tok.closed = true)
    (sent : d.sendPending c t.id = false) (answered : d.notifyOut c t.id = false) (plain : t.notify = none) :
    d.xferComplete c e = d.xferFinish c t := by
  simp [xferComplete, here, oldest, resident, Nat.not_lt.mpr landed, closed, sent, answered, plain]
end complete

/-- The status word of a transfer that has moved all its bytes and ends with status 0 (R125, R201, Table 08-2). -/
theorem statusWord_xferFlags (t : Xfer) :
    statusWord 0 (xferFlags t) t.landed = BitVec.ofNat 64 ((if t.clamped then 256 else 0) + (if t.late then 8 * 256 else 0) +
      (if t.rindSrc then 16 * 256 else 0) + min t.landed 0xFFFFFFFF * 65536) := by
  have scaled (b : Bool) (n : Nat) : (if b then n else 0) = b2n b * n := by cases b <;> simp [b2n]
  have bit (b : Bool) : b2n b ≤ 1 := by cases b <;> decide
  have clamped := bit t.clamped
  have late := bit t.late
  have rind := bit t.rindSrc
  unfold statusWord xferFlags
  rw [scaled, scaled, scaled]
  congr 1
  omega

theorem putStatus_ok (d : Dev) (c ss flags count : Nat) :
    d.putStatus c ss 0 flags count = d.modCtx c fun x => x.setS ss (statusWord 0 flags count) := by
  simp [putStatus, endingStatus]

theorem addEvt_wait (x : Ctx) (i n : Nat) : (x.addEvt i n).wait = x.wait := by
  unfold Ctx.addEvt
  dsimp only
  split <;> rfl

/-- A context that waits for no event is not woken by one (R226). -/
theorem wakeEvt_of_noWait {d : Dev} {c : Nat} {x : Ctx} (here : d.ctx? c = some x) (noWait : ∀ v n, x.wait ≠ .event v n) :
    d.wakeEvt c = d := by
  unfold wakeEvt
  rw [here]
  dsimp only
  split
  · next v n waits => exact absurd waits (noWait v n)
  · rfl

section finish
variable {d : Dev} {c : Nat} {x : Ctx} {t : Xfer} (here : d.ctx? c = some x)
include here

/-- The end of a transfer of status 0 with a status register and no event (R124, R201). -/
theorem xferFinish_status (hasSs : t.hasSs = true) (ok : t.status = 0) (silent : t.eve = false) (streams : t.streams = true) :
    d.xferFinish c t = d.modCtx c fun _ =>
      ({ x with xfers := x.xfers.filter (·.id != t.id) } : Ctx).setS t.ss
        (BitVec.ofNat 64 ((if t.clamped then 256 else 0) + (if t.late then 8 * 256 else 0) + (if t.rindSrc then 16 * 256 else 0) +
          min t.landed 0xFFFFFFFF * 65536)) := by
  have posts : d.xferFinish c t =
      (d.modCtx c fun y => { y with xfers := y.xfers.filter (·.id != t.id) }).putStatus c t.ss 0 (xferFlags t) t.landed := by
    simp [xferFinish, hasSs, ok, silent, streams]
  rw [posts, putStatus_ok, modCtx_modCtx]
  exact modCtx_congr _ _ _ _ here (congrArg (Ctx.setS _ _) (statusWord_xferFlags t))

/-- The end of a transfer with an event and no status register, of a context that waits for no event (R124, R201). -/
theorem xferFinish_event (noSs : t.hasSs = false) (event : t.eve = true) (noWait : ∀ v n, x.wait ≠ .event v n) :
    d.xferFinish c t = d.modCtx c fun _ => ({ x with xfers := x.xfers.filter (·.id != t.id) } : Ctx).addEvt t.ev 1 := by
  have adds : d.xferFinish c t = (d.modCtx c fun y => { y with xfers := y.xfers.filter (·.id != t.id) }).addEvent c t.ev 1 := by
    simp [xferFinish, noSs, event]
  have counted : (d.modCtx c fun y => ({ y with xfers := y.xfers.filter (·.id != t.id) } : Ctx).addEvt t.ev 1).ctx? c =
      some (({ x with xfers := x.xfers.filter (·.id != t.id) } : Ctx).addEvt t.ev 1) := by
    rw [ctx?_modCtx, here]
    rfl
  rw [adds, addEvent, modCtx_modCtx, wakeEvt_of_noWait counted fun v n => by rw [addEvt_wait]; exact noWait v n]
  exact modCtx_congr _ _ _ _ here rfl
end finish

end Dev
end Sys2Proof.Machine
end

section
/-! PROOFS. A step of the arbiter of a core: what its bookkeeping leaves, and the grant of a beat (R202, R204, R205). -/
namespace Sys2Proof.Machine

/-- A change of a transfer that the arbiter's bookkeeping makes: of its t0, its count g and whether it has been late (R204). -/
def Xfer.Marks (f : Xfer → Xfer) : Prop := ∀ t, f t = { t with t0 := (f t).t0, g := (f t).g, late := (f t).late }

theorem Xfer.Marks.refl : Xfer.Marks fun t => t := fun _ => rfl

theorem Xfer.Marks.comp {f g : Xfer → Xfer} (hf : Xfer.Marks f) (hg : Xfer.Marks g) : Xfer.Marks (f ∘ g) := by
  intro t
  dsimp only [Function.comp]
  rw [hf (g t), hg t]

theorem Xfer.Marks.ite {f : Xfer → Xfer} (hf : Xfer.Marks f) (p : Xfer → Prop) [DecidablePred p] : Xfer.Marks fun t => if p t then f t else t := by
  intro t
  dsimp only
  split
  · exact hf t
  · rfl

namespace Dev

theorem core_modCore_same (d : Dev) (k : Nat) (f : Core → Core) : (d.modCore k f).core k = f (d.core k) :=
  Tab.getD_store_same d.cores k _ _

theorem reg_count_other (d : Dev) {cnt evt a : Nat} (ovf : Fld) (notCnt : a ≠ cnt) (notEvt : a ≠ evt) : (d.count cnt evt ovf).reg a = d.reg a := by
  unfold count
  split
  · exact reg_setFld_other d _ _ notEvt
  · exact reg_setReg_other d _ notCnt

/-- What the bookkeeping of one step of core k's arbiter leaves (R204): of context c all but its transfers' marks and its accounts; of
the registers all but the engines' counts of late transfers and their event registers. -/
structure BooksKeep (d : Dev) (k c : Nat) (x : Ctx) (e : Dev) (y : Ctx) : Prop where
  here : e.ctx? c = some y
  self : y = { x with xfers := y.xfers, acc := y.acc, wraps := y.wraps }
  marked : ∃ f, Xfer.Marks f ∧ y.xfers = x.xfers.map f
  others : ∀ j, j ≠ c → e.ctx? j = d.ctx? j
  regs : ∀ a, (∀ j, a ≠ R.seDryCnt k j ∧ a ≠ R.seEvt k j) → e.reg a = d.reg a
  cores : e.cores = d.cores
  mem : e.mem = d.mem
  tier : e.tier = d.tier

namespace BooksKeep
variable {d : Dev} {k c : Nat} {x : Ctx}

theorem refl (here : d.ctx? c = some x) : BooksKeep d k c x d x :=
  ⟨here, rfl, ⟨_, .refl, (List.map_id' _).symm⟩, fun _ _ => rfl, fun _ _ => rfl, rfl, rfl, rfl⟩

theorem trans {e f : Dev} {y z : Ctx} (h : BooksKeep d k c x e y) (g : BooksKeep e k c y f z) : BooksKeep d k c x f z := by
  refine ⟨g.here, ?_, ?_, fun j other => (g.others j other).trans (h.others j other), fun a none => (g.regs a none).trans (h.regs a none),
    g.cores.trans h.cores, g.mem.trans h.mem, g.tier.trans h.tier⟩
  · have second := g.self
    rw [h.self] at second
    exact second
  · obtain ⟨m, marks, mapped⟩ := h.marked
    obtain ⟨n, marks', mapped'⟩ := g.marked
    exact ⟨n ∘ m, marks'.comp marks, by rw [mapped', mapped, List.map_map]⟩

theorem of_marks (here : d.ctx? c = some x) {f : Xfer → Xfer} (marks : Xfer.Marks f) :
    BooksKeep d k c x (d.modCtx c fun y => { y with xfers := y.xfers.map f }) { x with xfers := x.xfers.map f } :=
  ⟨by rw [ctx?_modCtx, here]; rfl, rfl, ⟨f, marks, rfl⟩, fun _ other => ctx?_modCtx_other _ _ _ other, fun _ _ => rfl, rfl, rfl, rfl⟩

theorem of_modXfer (here : d.ctx? c = some x) (xid : Nat) {f : Xfer → Xfer} (marks : Xfer.Marks f) :
    BooksKeep d k c x (d.modXfer c xid f) { x with xfers := x.xfers.map fun t => if t.id = xid then f t else t } :=
  of_marks here (marks.ite (·.id = xid))

theorem of_dry (here : d.ctx? c = some x) (j : Nat) :
    BooksKeep d k c x ((d.count (R.seDryCnt k j) (R.seEvt k j) F.seEvt_dryOvf).setFld (R.seEvt k j) F.seEvt_dry 1) x := by
  have counted := (count_keep d (R.seDryCnt k j) (R.seEvt k j) F.seEvt_dryOvf).trans (setFld_keep _ (R.seEvt k j) F.seEvt_dry 1)
  refine ⟨by unfold ctx?; rw [counted.ctxs]; exact here, rfl, ⟨_, .refl, (List.map_id' _).symm⟩,
    fun i _ => by unfold ctx?; rw [counted.ctxs], fun a apart => ?_, counted.cores, counted.mem, ?_⟩
  · rw [reg_setFld_other _ _ _ (apart j).2, reg_count_other _ _ (apart j).1 (apart j).2]
  · rw [count_eq_regs]; rfl

/-- A charge of an account that follows the bookkeeping. -/
theorem charge (a n : Nat) {e : Dev} (kept : ∃ y, BooksKeep d k c x e y) : ∃ y, BooksKeep d k c x (e.charge' c a n) y := by
  obtain ⟨y, kept⟩ := kept
  exact ⟨_, kept.trans ⟨(ctx?_modCtx _ _ _).trans (congrArg _ kept.here), rfl, ⟨_, .refl, (List.map_id' _).symm⟩,
    fun _ other => ctx?_modCtx_other _ _ _ other, fun _ _ => rfl, rfl, rfl, rfl⟩⟩

/-- Bookkeeping that is made for each engine in turn. -/
theorem foldl {f : Dev → Nat → Dev} (each : ∀ e y j, e.ctx? c = some y → ∃ z, BooksKeep e k c y (f e j) z)
    (l : List Nat) {e : Dev} (kept : ∃ y, BooksKeep d k c x e y) : ∃ y, BooksKeep d k c x (l.foldl f e) y :=
  List.foldlRecOn (motive := fun u => ∃ y, BooksKeep d k c x u y) l f kept fun u kept j _ => by
    obtain ⟨y, kept⟩ := kept
    obtain ⟨z, next⟩ := each u y j kept.here
    exact ⟨z, kept.trans next⟩

end BooksKeep

/-- A core without a placed context grants nothing (R204). -/
theorem arbStep_of_free {d : Dev} {k : Nat} (free : (d.core k).cur = none) : d.arbStep k = d := by
  rw [arbStep, free]

/-- A step of the arbiter of a core with a placed context keeps its books, then grants a beat to the engine that it picks (R204, R205). -/
theorem arbStep_books {d : Dev} {k c : Nat} {x : Ctx} (placed : (d.core k).cur = some c) (here : d.ctx? c = some x)
    (serves : d.isFenced (unitId 1 k) = false) :
    ∃ u, (∃ y, BooksKeep d k c x u y) ∧ ∀ y e t, u.ctx? c = some y → u.pickEngine k y (d.core k).step = some e → candidate y e = some t →
      ∃ waited : Core → Tab Nat, d.arbStep k = ((u.grantBeat k c y t).getD u).modCore k fun z => { z with step := z.step + 1, waited := waited z } := by
  unfold arbStep
  rw [placed]
  dsimp only
  rw [here]
  dsimp only
  rw [serves, if_neg Bool.false_ne_true]
  generalize books : charge' _ c 3 _ = u
  refine ⟨u, ?_, fun y e t found pick oldest => ?_⟩
  · subst books
    refine BooksKeep.charge 3 _ (BooksKeep.foldl (fun e y j here => ?competes) _ (BooksKeep.foldl (fun e y j here => ?afresh) _ ⟨x, .refl here⟩))
    case afresh =>
      split
      · exact ⟨_, .of_marks here (Xfer.Marks.ite (f := fun t => { t with t0 := none, g := 0 }) (fun _ => rfl) (·.eng = j))⟩
      · exact ⟨y, .refl here⟩
    case competes =>
      split
      · exact ⟨y, .refl here⟩
      · next t live =>
        split
        · split
          · have timed := BooksKeep.of_modXfer (k := k) here t.id
              (f := fun u => { u with t0 := some (t.t0.getD (d.core k).step), g := if u.t0.isNone then 0 else u.g }) fun _ => rfl
            have dry := timed.trans (.of_dry timed.here j)
            exact ⟨_, dry.trans (.of_modXfer dry.here t.id fun _ => rfl)⟩
          · exact ⟨_, .of_modXfer here t.id fun _ => rfl⟩
        · exact ⟨_, .of_modXfer here t.id fun _ => rfl⟩
  · rw [found]
    dsimp only
    rw [pick]
    dsimp only
    rw [oldest]
    exact ⟨_, rfl⟩

/-! ## What the arbiter then sees -/

section seen
variable {d u : Dev} {k c : Nat} {x y : Ctx} (kept : BooksKeep d k c x u y)
include kept

theorem BooksKeep.flag_pause (j : Nat) : u.flag (R.seCtrl k j) F.seCtrl_pause = d.flag (R.seCtrl k j) F.seCtrl_pause := by
  unfold flag fld
  rw [kept.regs]
  intro i
  simp only [R.seCtrl, R.seDryCnt, R.seEvt]
  omega

theorem BooksKeep.nodeId : u.nodeId = d.nodeId := by
  unfold Dev.nodeId fld
  rw [kept.regs]
  intro i
  simp only [R.addrNode, R.seDryCnt, R.seEvt]
  omega

theorem BooksKeep.away (a : W64) : u.away a = d.away a := by
  unfold Dev.away segGone
  rw [kept.nodeId, kept.tier]

theorem BooksKeep.core (j : Nat) : u.core j = d.core j := by
  unfold Dev.core
  rw [kept.cores]

end seen

theorem candidate_map {x y : Ctx} {f : Xfer → Xfer} (marks : Xfer.Marks f) (mapped : y.xfers = x.xfers.map f) (j : Nat) :
    candidate y j = (candidate x j).map f := by
  have same : (fun t : Xfer => t.eng == j && decide (t.granted < t.total)) ∘ f = fun t => t.eng == j && decide (t.granted < t.total) := by
    funext t
    dsimp only [Function.comp]
    rw [marks t]
  unfold candidate
  rw [mapped, List.find?_map, same]

theorem BooksKeep.seReady {d u : Dev} {k c : Nat} {x y : Ctx} (kept : BooksKeep d k c x u y) {f : Xfer → Xfer} (marks : Xfer.Marks f) (t : Xfer) :
    u.seReady k y (f t) = d.seReady k x t := by
  rw [kept.self, marks t]
  unfold Dev.seReady
  rw [kept.core]
  rfl

theorem BooksKeep.seLive {d u : Dev} {k c : Nat} {x y : Ctx} (kept : BooksKeep d k c x u y) {f : Xfer → Xfer} (marks : Xfer.Marks f)
    (mapped : y.xfers = x.xfers.map f) (j : Nat) : u.seLive k y j = (d.seLive k x j).map f := by
  unfold Dev.seLive
  rw [kept.flag_pause, candidate_map marks mapped]
  split <;> rfl

/-! ## The grant of a beat -/

/-- An engine that is not paused offers its oldest transfer with bytes still to request (R204, R216). -/
theorem candidate_of_seLive {d : Dev} {k e : Nat} {x : Ctx} {t : Xfer} (live : d.seLive k x e = some t) : candidate x e = some t := by
  unfold seLive at live
  split at live
  · cases live
  · exact live

theorem candidate_eng {x : Ctx} {e : Nat} {t : Xfer} (oldest : candidate x e = some t) : t.eng = e := by
  have fits := List.find?_some oldest
  simp only [Bool.and_eq_true, beq_iff_eq] at fits
  exact fits.1

/-- The arbiter picks the one engine that is ready (R205). -/
theorem pickEngine_single {d : Dev} {k e : Nat} {x : Ctx} {t : Xfer} (step : Nat) (built : e < 4)
    (alone : ∀ f, f < 4 → f ≠ e → d.seLive k x f = none) (live : d.seLive k x e = some t) (ready : d.seReady k x t = true) :
    d.pickEngine k x step = some e := by
  have picked : ∀ e < 4, (List.range 4).filter (· == e) = [e] := by decide
  unfold pickEngine
  generalize found : List.filter _ (List.range 4) = rdy
  have single : rdy = [e] := by
    rw [← found, ← picked e built]
    refine List.filter_congr fun f mem => ?_
    by_cases same : f = e
    · subst same
      simp [live, ready]
    · simp [alone f (List.mem_range.mp mem) same, same]
  subst single
  dsimp only
  split
  · next f starved => rw [List.mem_singleton.mp (List.mem_of_find?_eq_some starved)]
  · rfl

/-- The bytes of the next beat of a transfer (R202). -/
def nextBeat (t : Xfer) : Nat := min 256 (t.total - t.granted)

/-- Counts the next beat of a transfer as granted (R204). -/
def grantedXfer (t u : Xfer) : Xfer := { u with granted := u.granted + nextBeat t, g := u.g + nextBeat t }

/-- What the grant of a transfer's next beat leaves, where no other node has to be asked for it (R202, R205). -/
def beatGranted (d : Dev) (k c : Nat) (t : Xfer) : Dev :=
  (d.modXfer c t.id (grantedXfer t)).modCore k fun y =>
    { y with inflight := y.inflight ++ [⟨c, t.eng, t.id, t.granted, nextBeat t, [], false, []⟩] }

theorem grantBeat_home {d : Dev} {k c : Nat} {x : Ctx} {t : Xfer} (home : d.farAway t = false) :
    d.grantBeat k c x t = some (d.beatGranted k c t) := by
  rw [grantBeat, home]
  rfl

theorem ctx?_beatGranted {d : Dev} {c : Nat} {x : Ctx} {t : Xfer} (k : Nat) (here : d.ctx? c = some x) :
    (d.beatGranted k c t).ctx? c = some { x with xfers := x.xfers.map fun u => if u.id = t.id then grantedXfer t u else u } :=
  (ctx?_modCtx _ _ _).trans (congrArg _ here)

theorem core_beatGranted (d : Dev) (k c : Nat) (t : Xfer) :
    (d.beatGranted k c t).core k =
      { d.core k with inflight := (d.core k).inflight ++ [⟨c, t.eng, t.id, t.granted, nextBeat t, [], false, []⟩] } :=
  core_modCore_same _ _ _

/-- A beat carries nothing of what the arbiter's bookkeeping marks. -/
theorem beatGranted_marks {f : Xfer → Xfer} (marks : Xfer.Marks f) (d : Dev) (k c : Nat) (t : Xfer) :
    d.beatGranted k c (f t) = d.beatGranted k c t := by
  rw [marks t]
  rfl

/-- The one ready engine of a core is granted a beat, and the step is counted (R202, R204, R205). -/
theorem arbStep_grants {d : Dev} {k c e : Nat} {x : Ctx} {t : Xfer} (placed : (d.core k).cur = some c) (here : d.ctx? c = some x)
    (serves : d.isFenced (unitId 1 k) = false) (built : e < 4) (alone : ∀ f, f < 4 → f ≠ e → d.seLive k x f = none)
    (live : d.seLive k x e = some t) (ready : d.seReady k x t = true) (home : d.away t.far.base = false) :
    ∃ y, (d.arbStep k).ctx? c = some y ∧ y.arch = x.arch ∧ y.st = x.st ∧
      ((d.arbStep k).core k).inflight = (d.core k).inflight ++ [⟨c, e, t.id, t.granted, nextBeat t, [], false, []⟩] ∧
      ((d.arbStep k).core k).step = (d.core k).step + 1 ∧
      (∃ v ∈ y.xfers, v.id = t.id ∧ v.granted = t.granted + nextBeat t ∧ v.landed = t.landed) ∧
      (∀ j, j ≠ c → (d.arbStep k).ctx? j = d.ctx? j) ∧ (d.arbStep k).mem = d.mem := by
  obtain ⟨u, ⟨y, kept⟩, granted⟩ := arbStep_books placed here serves
  obtain ⟨f, marks, mapped⟩ := kept.marked
  have seen := kept.seLive marks mapped
  have seenLive : u.seLive k y e = some (f t) := by rw [seen, live]; rfl
  have seenAlone : ∀ j, j < 4 → j ≠ e → u.seLive k y j = none := fun j below other => by rw [seen, alone j below other]; rfl
  have seenHome : u.farAway (f t) = false := by
    rw [marks t]
    exact (kept.away _).trans home
  have oldest := candidate_of_seLive seenLive
  have pick := pickEngine_single (d.core k).step built seenAlone seenLive ((kept.seReady marks t).trans ready)
  obtain ⟨waited, made⟩ := granted y e (f t) kept.here pick oldest
  rw [grantBeat_home seenHome, Option.getD_some, beatGranted_marks marks] at made
  have core := core_modCore_same (u.beatGranted k c t) k fun z => { z with step := z.step + 1, waited := waited z }
  rw [← made, core_beatGranted, kept.core, candidate_eng (candidate_of_seLive live)] at core
  have mine : f t ∈ y.xfers := List.mem_of_find?_eq_some oldest
  have same : (f t).id = t.id ∧ (f t).granted = t.granted ∧ (f t).landed = t.landed := by
    rw [marks t]
    exact ⟨rfl, rfl, rfl⟩
  obtain ⟨id, sent, landed⟩ := same
  have counted := List.mem_map_of_mem (f := fun v => if v.id = t.id then grantedXfer t v else v) mine
  rw [if_pos id] at counted
  refine ⟨_, (congrArg (Dev.ctx? · c) made).trans (ctx?_beatGranted k kept.here), by rw [kept.self], by rw [kept.self],
    congrArg Core.inflight core, congrArg Core.step core, ⟨_, counted, id, congrArg (· + nextBeat t) sent, landed⟩, fun j other => ?_, ?_⟩
  · rw [made]
    exact (ctx?_modCtx_other _ _ _ other).trans (kept.others j other)
  · rw [made]
    exact kept.mem

end Dev
end Sys2Proof.Machine
end

section
/-! PROOFS. The statement about the stream engines. -/
namespace Sys2Proof.Machine

section
variable {s : State} {u : Dev}

theorem exec_streamBeatLand {k : Fin 64} {b : Fin 256} {q : Beat} (flying : (s.dev.core k).inflight[b.val]? = some q)
    (landed : s.dev.landBeat k b = u) (streams : u.StreamsOnly q.ctx) :
    exec (.streamBeatLand k b) s = .next (State.settled { s with dev := u }) := by
  refine next_settled_congr (congrArg (fun d => { s with dev := d }) ?_)
  dsimp only
  rw [flying]
  dsimp only
  rw [landed, streams.tokFlush]

theorem exec_streamBeatLand_none {k : Fin 64} {b : Fin 256} (none : (s.dev.core k).inflight[b.val]? = none) :
    exec (.streamBeatLand k b) s = .next s.settled :=
  next_settled_congr (onDev_eq_self (by rw [none]))

theorem exec_streamTransferComplete {c : BitVec 12} {e : Fin 4} {x : Ctx} {t : Xfer} (here : s.dev.ctx? c.toNat = some x)
    (oldest : x.xfers.find? (·.eng == e.val) = some t) (streams : ∀ u ∈ x.xfers, u.streams = true) (closed : t.tok.closed = true)
    (ended : s.dev.xferComplete c.toNat e = u) :
    exec (.streamTransferComplete c e) s = .next (State.settled { s with dev := u }) := by
  refine next_settled_congr (congrArg (fun d => { s with dev := d }) ?_)
  dsimp only
  rw [(Dev.StreamsOnly.of_ctx here streams).tokFlush, Dev.tokClose_of_closed here oldest closed, ended]

end

/-- Settles O22: the arbiter's step by what its bookkeeping leaves and its one ready engine; the landing and the end of a transfer by
their cases, none of which finds a column of tokens to send. -/
theorem streamEngines : Obligations.StreamEngines := by
  intro k s
  refine ⟨fun free => ?_, fun c x e t placed here serves built alone live ready _ home => ?_,
    fun b q x t flying here carries streams => ⟨fun waits => ?_, fun may load noJob home tier => ?_⟩,
    fun b none => exec_streamBeatLand_none none,
    fun c e x t here oldest streams closed => ?_, fun r e on ok => ?_⟩
  · exact next_onDev_eq_self (Dev.arbStep_of_free free)
  · obtain ⟨y, left⟩ := Dev.arbStep_grants placed here serves built alone live ready home
    obtain ⟨found, arch, st, inflight, step, granted, others, mem⟩ := left
    exact ⟨_, y, rfl, found, arch, st, inflight, step, granted, others, mem, rfl⟩
  · exact exec_streamBeatLand flying (Dev.landBeat_of_not_may flying here carries waits) (.of_ctx here streams)
  · intro runs ready
    have moves := streams t (List.mem_of_find?_eq_some carries)
    have landed := (Dev.landBeat_load flying here carries may moves load).trans (Dev.landLoad_here noJob home tier load ready q.ctx)
    have met := Dev.loadMet_placed s.dev k t q
    have left := ((Dev.StreamsOnly.of_ctx here streams).of_ctxs met.ctxs).loaded k b q t (s.dev.runBytes t runs)
    have whole := exec_streamBeatLand flying landed left
    rw [Dev.loaded, met.core] at whole
    exact whole
  · have moves := streams t (List.mem_of_find?_eq_some oldest)
    have run := fun {u} => exec_streamTransferComplete (u := u) here oldest streams closed
    exact ⟨fun waits => run (Dev.xferComplete_not_due here oldest waits),
      fun resident landed sent answered plain hasSs ok silent =>
        run ((Dev.xferComplete_due here oldest resident landed closed sent answered plain).trans (Dev.xferFinish_status here hasSs ok silent moves)),
      fun resident landed sent answered plain noSs event noWait =>
        run ((Dev.xferComplete_due here oldest resident landed closed sent answered plain).trans (Dev.xferFinish_event here noSs event noWait))⟩
  · exact next_onDev_congr (Dev.regDo_of_ok ok _)

end Sys2Proof.Machine
end

section
/-! PROOFS. The owners of cores, the settings of partitions and the traps of Chamois cores (R219 to R222, R240). -/
namespace Sys2Proof.Machine

/-- What a number that is replaced counts as: one clamp, unless it is replaced by itself. -/
theorem b2n_bne (m n : Nat) : b2n (m != n) = if m = n then 0 else 1 := by
  by_cases same : m = n
  · rw [if_pos same, same, bne_self_eq_false]; rfl
  · rw [if_neg same, bne_iff_ne.mpr same]; rfl

/-- A cap keeps what does not lie above it. -/
theorem eq_min_iff_le (m n : Nat) : m = min m n ↔ m ≤ n := by omega

/-- A trap is due where TRAP is set of a core that is neither halted nor fenced. -/
theorem trap_not_due_iff (trap halt fenced : Bool) :
    (!trap || !(!halt && !fenced)) = true ↔ ¬ (trap = true ∧ halt = false ∧ fenced = false) := by
  revert trap halt fenced
  decide

namespace Dev

theorem flag_setFld_apart (d : Dev) (a : Nat) {f g : Fld} (x : Nat) (apart : f.Apart g) (within : g.lo + g.w ≤ 32) :
    (d.setFld a f x).flag a g = d.flag a g := by
  unfold flag fld setFld
  rw [reg_setReg_same, getF_setF_apart _ _ apart within]

theorem flag_setFld_other (d : Dev) {a b : Nat} (f g : Fld) (x : Nat) (h : b ≠ a) : (d.setFld a f x).flag b g = d.flag b g := by
  unfold flag
  rw [fld_setFld_other d f g x h]

/-- A field of one bit reads as it was set. -/
theorem flag_setFld_bit (d : Dev) (a : Nat) {f : Fld} (on : Bool) (hw : f.w = 1) (hlo : f.lo < 32) :
    (d.setFld a f (if on then 1 else 0)).flag a f = on := by
  unfold flag
  rw [fld_setFld_same d a _ (by omega), hw]
  cases on <;> rfl

/-! ## Owners -/

/-- A Kudu core's new owner takes effect at once where no context is resident on it (R221). -/
theorem kuduOwnWrite_eq (d : Dev) (k : Nat) (v : W32) :
    d.kuduOwnWrite k v =
      let o := getF v F.partKuduOwn_owner
      let o' := if o < 16 then o else 31
      let e := (d.countN R.partClampCnt R.partEvt F.partEvt_clampOvf (if o = o' then 0 else 1)).setFld (R.partKuduOwn k) F.partKuduOwn_owner o'
      if o' = e.fld (R.partKuduOwn k) F.partKuduOwn_effective then e.setFld (R.partKuduOwn k) F.partKuduOwn_pending 0
      else if (e.core k).resident = [] then (e.setFld (R.partKuduOwn k) F.partKuduOwn_effective o').setFld (R.partKuduOwn k) F.partKuduOwn_pending 0
      else e.setFld (R.partKuduOwn k) F.partKuduOwn_pending 1 := by
  unfold kuduOwnWrite partClamp
  simp only [b2n_bne, List.isEmpty_iff]
  rfl

theorem kuduOwnApply_not_due {d : Dev} {k : Nat} (h : d.flag (R.partKuduOwn k) F.partKuduOwn_pending = false ∨ (d.core k).resident ≠ []) :
    d.kuduOwnApply k = d :=
  if_pos (by simpa using h)

theorem kuduOwnApply_due {d : Dev} {k : Nat} (pending : d.flag (R.partKuduOwn k) F.partKuduOwn_pending = true) (empty : (d.core k).resident = []) :
    d.kuduOwnApply k = (d.setFld (R.partKuduOwn k) F.partKuduOwn_effective (d.fld (R.partKuduOwn k) F.partKuduOwn_owner)).setFld
      (R.partKuduOwn k) F.partKuduOwn_pending 0 :=
  if_neg (by simp [pending, empty])

/-- A Chamois core's new owner waits for the core's next trap (R221). -/
theorem chamOwnWrite_eq (d : Dev) (n : Nat) (v : W32) :
    d.chamOwnWrite n v =
      let o := getF v F.partChamOwn_owner
      let o' := if o ≤ 16 then o else 31
      let e := (d.countN R.partClampCnt R.partEvt F.partEvt_clampOvf (if o = o' then 0 else 1)).setFld (R.partChamOwn n) F.partChamOwn_owner o'
      e.setFld (R.partChamOwn n) F.partChamOwn_pending (if o' = e.fld (R.partChamOwn n) F.partChamOwn_effective then 0 else 1) := by
  unfold chamOwnWrite partClamp
  simp only [b2n_bne]
  rfl

/-! ## Settings of partitions -/

/-- PRIV of a fifth privileged partition is refused, and SLICE is brought into its range (R219). -/
theorem partCfgWrite_eq (d : Dev) (p : Nat) (v : W32) :
    d.partCfgWrite p v =
      let no := getF v F.partCfg_priv = 1 ∧ d.flag (R.partCfg p) F.partCfg_priv = false ∧
        4 ≤ ((List.range 16).filter (fun q => d.flag (R.partCfg q) F.partCfg_priv)).length
      let sl := getF v F.partCfg_slice
      let sl' := if sl < 1 then 1 else if 1000 < sl then 1000 else sl
      copyPriv ((d.countN R.partClampCnt R.partEvt F.partEvt_clampOvf ((if no then 1 else 0) + (if sl = sl' then 0 else 1))).setFlds (R.partCfg p)
        [(F.partCfg_enable, getF v F.partCfg_enable), (F.partCfg_priv, if no then 0 else getF v F.partCfg_priv),
          (F.partCfg_scrCkpt, getF v F.partCfg_scrCkpt), (F.partCfg_slice, sl')]) := by
  unfold partCfgWrite partClamp
  simp only [b2n_bne]
  simp only [b2n, Bool.and_eq_true, beq_iff_eq, Bool.not_eq_true', decide_eq_true_eq, and_assoc]
  rfl

/-- The reservations of slots of all partitions sum to at most 8,192 (R220). -/
theorem partOryxWrite_eq (d : Dev) (p : Nat) (v : W32) :
    d.partOryxWrite p v =
      let others := (((List.range 16).filter (· ≠ p)).map (fun q => d.fld (R.partOryx q) F.partOryx_slots)).foldl (· + ·) 0
      let m := getF v F.partOryx_slots
      (d.countN R.partClampCnt R.partEvt F.partEvt_clampOvf (if m ≤ 8192 - others then 0 else 1)).setFld (R.partOryx p) F.partOryx_slots
        (min m (8192 - others)) := by
  unfold partOryxWrite partClamp
  simp only [b2n_bne, eq_min_iff_le]

/-! ## Chamois cores -/

theorem chamCtrl_ne_partChamOwn (n : Nat) : R.chamCtrl n ≠ R.partChamOwn n := by
  simp only [R.partChamOwn, R.chamCtrl]
  omega

/-- A core that executes takes a trap that is due: the requested owner takes effect (R221, R240). -/
theorem chamTrapTake_eq (d : Dev) (n : Nat) :
    d.chamTrapTake n =
      if d.flag (R.chamCtrl n) F.chamCtrl_trap = true ∧ d.flag (R.chamCtrl n) F.chamCtrl_halt = false ∧ d.isFenced (unitId 2 n) = false then
        ((d.setFld (R.chamCtrl n) F.chamCtrl_trap 0).setFld (R.partChamOwn n) F.partChamOwn_effective
          ((d.setFld (R.chamCtrl n) F.chamCtrl_trap 0).fld (R.partChamOwn n) F.partChamOwn_owner)).setFld (R.partChamOwn n) F.partChamOwn_pending 0
      else d := by
  rw [fld_setFld_other d _ _ _ (chamCtrl_ne_partChamOwn n).symm]
  split
  · next due => exact if_neg fun stays => (trap_not_due_iff _ _ _).mp stays due
  · next notDue => exact if_pos ((trap_not_due_iff _ _ _).mpr notDue)

/-- A core's trap leaves HALT as it is. -/
theorem flag_halt_chamTrapTake (d : Dev) (n : Nat) :
    (d.chamTrapTake n).flag (R.chamCtrl n) F.chamCtrl_halt = d.flag (R.chamCtrl n) F.chamCtrl_halt := by
  rw [chamTrapTake_eq]
  split
  · rw [flag_setFld_other _ _ _ _ (chamCtrl_ne_partChamOwn n), flag_setFld_other _ _ _ _ (chamCtrl_ne_partChamOwn n),
      flag_setFld_apart d _ _ (.inr (by decide)) (by decide)]
  · rfl

/-- A write of CHAM_CTRL without TRAP (R240). -/
theorem chamCtrlWrite_halt (d : Dev) (n : Nat) (on : Bool) :
    d.chamCtrlWrite n (BitVec.ofNat 32 (b2n on)) = (d.setFld (R.chamCtrl n) F.chamCtrl_halt (if on then 1 else 0)).chamTrapTake n := by
  cases on <;> rfl

/-- The device in which a core is given a trap, before it takes it. -/
def trapSet (d : Dev) (n : Nat) : Dev :=
  (d.setFld (R.chamCtrl n) F.chamCtrl_halt (d.fld (R.chamCtrl n) F.chamCtrl_halt)).setFld (R.chamCtrl n) F.chamCtrl_trap 1

/-- A write of CHAM_CTRL that sets TRAP and leaves HALT (R240). -/
theorem chamCtrlWrite_trap (d : Dev) (n : Nat) :
    d.chamCtrlWrite n (setF (d.reg (R.chamCtrl n)) F.chamCtrl_trap 1) = (d.trapSet n).chamTrapTake n := by
  have set : getF (setF (d.reg (R.chamCtrl n)) F.chamCtrl_trap 1) F.chamCtrl_trap = 1 := getF_setF_same _ _ (by decide)
  have kept : getF (setF (d.reg (R.chamCtrl n)) F.chamCtrl_trap 1) F.chamCtrl_halt = d.fld (R.chamCtrl n) F.chamCtrl_halt :=
    getF_setF_apart _ _ (.inr (by decide)) (by decide)
  rw [chamCtrlWrite, if_pos set, kept, trapSet]

theorem flag_halt_trapSet (d : Dev) (n : Nat) : (d.trapSet n).flag (R.chamCtrl n) F.chamCtrl_halt = d.flag (R.chamCtrl n) F.chamCtrl_halt := by
  have bit : d.fld (R.chamCtrl n) F.chamCtrl_halt % 2 ^ F.chamCtrl_halt.w = d.fld (R.chamCtrl n) F.chamCtrl_halt :=
    Nat.mod_eq_of_lt (getF_lt _ _)
  rw [trapSet, flag_setFld_apart _ _ _ (.inr (by decide)) (by decide)]
  unfold flag
  rw [fld_setFld_same _ _ _ (by decide), bit]

end Dev

/-- Settles O26: each write is made where the bus lets it, and is then one case of the register's own operation. -/
theorem ownersAndPartitions : Obligations.OwnersAndPartitions := by
  intro r k n p v s clamp
  refine ⟨fun ok => ?_, fun h => next_onDev_eq_self (Dev.kuduOwnApply_not_due h),
    fun pending empty => next_onDev_congr (Dev.kuduOwnApply_due pending empty), fun ok => ?_, fun ok => ?_, fun ok => ?_,
    fun ok => ⟨fun on => ⟨s.onDev fun d => d.chamCtrlWrite n (BitVec.ofNat 32 (b2n on)), next_onDev_congr (Dev.regDo_of_ok ok _), ?_, ?_⟩,
      s.dev.trapSet n, Dev.flag_setFld_one _ _ rfl (by decide), s.dev.flag_halt_trapSet n, fun a other => ?_, ?_⟩⟩
  · exact next_onDev_congr ((Dev.regDo_of_ok ok _).trans (s.dev.kuduOwnWrite_eq k v))
  · exact next_onDev_congr ((Dev.regDo_of_ok ok _).trans (s.dev.chamOwnWrite_eq n v))
  · exact next_onDev_congr ((Dev.regDo_of_ok ok _).trans (s.dev.partCfgWrite_eq p v))
  · exact next_onDev_congr ((Dev.regDo_of_ok ok _).trans (s.dev.partOryxWrite_eq p v))
  · rw [State.onDev_dev, Dev.chamCtrlWrite_halt, Dev.flag_halt_chamTrapTake, Dev.flag_setFld_bit _ _ _ rfl (by decide)]
  · exact onDev_congr ((s.dev.chamCtrlWrite_halt n on).trans (Dev.chamTrapTake_eq _ n))
  · exact (Dev.reg_setFld_other _ _ _ other).trans (Dev.reg_setFld_other _ _ _ other)
  · exact next_onDev_congr (g := fun _ => _) ((Dev.regDo_of_ok ok _).trans ((s.dev.chamCtrlWrite_trap n).trans (Dev.chamTrapTake_eq _ n)))

end Sys2Proof.Machine
end

section
/-! PROOFS. The restart of a fenced context for which a line of another node is being read (R211, R237; Table 09-3). -/
namespace Sys2Proof.Machine
namespace Dev

/-- A line that is read for a context is not among the requests that Table 09-3 gives a reply slot. -/
theorem slotOf_fetch (x : Ctx) (c tag : Nat) (asker : Option Nat) (use : Nat) : slotOf x c tag (.fetch asker use) = none := rfl

end Dev

/-- Launch arguments of zeros: a code object, a completion record and an allotment at the start of tier 2. -/
def plainLaunch : LaunchArgs := ⟨⟨0, 2, 0, []⟩, ⟨0, 2, 0, []⟩, ⟨0, 2, 0, []⟩, false, 0, 0, 1, 0, true, true, 0, 64, 0, 8192⟩

/-- A context of partition 0 as its launch leaves it, on core 0, which has been fenced since. -/
def fencedCtx : Ctx := { Dev.reset.newCtx 0 ⟨[], 0, none, 32⟩ plainLaunch 0 none with st := .running, fenced := true }

/-- A device with that context, its partition left core 1, and a line of node 1 on its way that the context asked for as an operand of a
search. -/
def fetchingDev : Dev :=
  let d := Dev.reset.setFld (R.partKuduOwn 1) F.partKuduOwn_effective 0
  { d with ctxs := [(0, fencedCtx)], herd := { d.herd with outs := [(0, ⟨1, mkAddr 1 1 0, .fetch (some 0) 0⟩)] } }

/-- The context stays fenced: the read of the line is cancelled with its work, and its reply is awaited (R211). -/
theorem restartFenced_fetchingDev : ((fetchingDev.restartFenced 0).ctx? 0).map (·.fenced) = some true := by decide

/-- Refutes O27: with a core left to its partition, a fenced context without reply slots, cancelled requests, receipts and jobs is stated to
restart; but a line that is being read for it (log 43) is none of those and is cancelled too, and the context waits for its reply. -/
theorem not_scheduling : ¬ Obligations.Scheduling := by
  intro holds
  obtain ⟨-, -, -, -, -, -, -, -, -, -, -, -, -, -, restart⟩ := holds 0 0#12 0 { State.reset with dev := fetchingDev } fencedCtx
  obtain ⟨u, y, run, found, -, -, -, -, -, -, again⟩ := restart rfl rfl rfl
  obtain ⟨-, done, -⟩ := again (by decide) (by decide)
  obtain ⟨served, -⟩ := done (by decide) fun o out => by
    obtain rfl := List.mem_singleton.mp out
    exact ⟨Dev.slotOf_fetch _ _ _ _ _, nofun, nofun⟩
  have left : u.dev = fetchingDev.restartFenced 0 := by
    cases run
    rfl
  have waits := restartFenced_fetchingDev
  rw [← left, show u.dev.ctx? 0 = some y from found, Option.map_some, served] at waits
  cases waits

end Sys2Proof.Machine
end

section
/-! PROOFS. Lending (R255, R256, R299): what a lender and a borrower do on each message. -/
namespace Sys2Proof.Machine
namespace Dev

/-! ## Contexts that the setting of a range to 0 leaves as they are -/

theorem send_placed (d : Dev) (part : Option Nat) (m : Msg) : PlacedKeep d (d.send part m).2 := by
  unfold send
  split
  · exact ⟨rfl, rfl⟩
  · exact .refl d

theorem sendSnp_placed (d : Dev) (key node opc : Nat) : PlacedKeep d (d.sendSnp key node opc) :=
  have sent := send_placed d none ⟨opc, node, d.nodeId, (d.freeTag (dirDie key)).getD (dirDie key * 32768), false, false, d.lineAddr key, []⟩
  have counted := sent.trans (count_keep _ (R.dirInvCnt (dirDie key)) (R.dirEvt (dirDie key)) F.dirEvt_invOvf).placed
  ⟨counted.ctxs, counted.cores⟩

theorem foldl_sendSnp_placed (d : Dev) (key opc : Nat) (nodes : List Nat) : PlacedKeep d (nodes.foldl (fun d n => d.sendSnp key n opc) d) :=
  .foldl (fun e n => sendSnp_placed e key n opc) nodes d

theorem putDir_placed (d : Dev) (key : Nat) (e : DirEnt) : PlacedKeep d (d.putDir key e) := ⟨rfl, rfl⟩

theorem snoop_placed (d : Dev) (key : Nat) (e : DirEnt) (nodes : List Nat) (opc : Nat) : PlacedKeep d (d.snoop key e nodes opc) :=
  .ite ⟨rfl, rfl⟩ ((putDir_placed d key _).trans (foldl_sendSnp_placed _ key opc nodes))

theorem purge_placed (d : Dev) (t off n : Nat) : PlacedKeep d (d.purge t off n) := by
  unfold purge
  refine .foldl (fun e k => ?_) _ d
  exact .ite ((putDir_placed e _ _).trans (foldl_sendSnp_placed _ _ _ _)) (snoop_placed e _ _ _ _)

theorem cleanRange_placed (d : Dev) (k n : Nat) : PlacedKeep d (d.cleanRange k n) := .ite (.refl d) ⟨rfl, rfl⟩

/-- Outside tier 3 a range is set to 0 in memory. -/
theorem zeroRange_placed (d : Dev) {t : Nat} (off n : Nat) (notFlash : t ≠ 3) : PlacedKeep d (d.zeroRange t off n) := by
  rw [zeroRange, if_neg notFlash]
  have wiped : PlacedKeep d { d with mem := Memory.wipe d.mem (memKey t off) n } := ⟨rfl, rfl⟩
  exact wiped.trans (cleanRange_placed _ _ _)

/-- A new object outside tier 3 stands in the table under its number; no context has changed. -/
theorem placeObj_spec (d : Dev) (o : Obj) (notFlash : o.tier ≠ 3) :
    Tab.find (d.placeObj o).2.tier.objs (d.placeObj o).1 =
        some { o with touch := ((d.freeIndex.2.zeroRange o.tier o.base o.size).purge o.tier o.base o.size).now / 1000000 } ∧
      (d.placeObj o).2.ctxs = d.ctxs := by
  have cleared := (zeroRange_placed d.freeIndex.2 o.base o.size notFlash).trans (purge_placed _ o.tier o.base o.size)
  exact ⟨Tab.find_put_same _ _ _, cleared.ctxs⟩

/-! ## A lender -/

/-- What a lender that answers with a status, a tier and an offset has changed: with 3 nothing of its memory; with 0
the segment is an object of the kind for lent ranges, noted for the node that asked (R299). -/
def Lends (d e : Dev) (node st t off : Nat) : Prop :=
  e.ctxs = d.ctxs ∧ (st = 3 → e.tier = d.tier ∧ e.mem = d.mem ∧ t = 0 ∧ off = 0) ∧
    (st = 0 → (t = 1 ∨ t = 2) ∧ ∃ o b, Tab.find e.tier.objs o = some b ∧ b.kind = .lent ∧ b.tier = t ∧ b.base = off ∧ b.size = 2 ^ 30 ∧
      Tab.find e.herd.lentTo o = some node)

/-- The tier of which the device may lend; 0 where it has chosen to lend nothing (log 39). -/
def lendTier (d : Dev) : Nat := (d.choose 3).1

/-- The ranges of which it then chooses one. -/
def lendOffers (d : Dev) : List Nat := if d.lendTier = 0 then [] else (d.choose 3).2.lendable d.lendTier

theorem lend_refused {d : Dev} (m : Msg) (refuses : (d.lendOffers.isEmpty || decide (262144 ≤ d.tier.objs.length)) = true) :
    d.lend m = (d.choose 3).2.reply m 0x28 3 (leBytes 8 0 ++ leBytes 8 0) false :=
  if_pos refuses

/-- The device that has given the segment at an offset of a tier to a node. -/
def lent (d : Dev) (node t off : Nat) : Dev :=
  let p := d.placeObj (newObj 16 t off (2 ^ 30) 0 false 0 0#64 .lent 1)
  { p.2 with herd := { p.2.herd with lentTo := Tab.put p.2.herd.lentTo p.1 node } }

/-- The range that it chooses. -/
def lendOffset (d : Dev) : Nat := d.lendOffers.getD ((d.choose 3).2.choose d.lendOffers.length).1 0

theorem lend_granted {d : Dev} (m : Msg) (grants : ¬ (d.lendOffers.isEmpty || decide (262144 ≤ d.tier.objs.length)) = true) :
    d.lend m = (((d.choose 3).2.choose d.lendOffers.length).2.lent m.src d.lendTier d.lendOffset).reply m 0x28 0
      (leBytes 8 d.lendTier ++ leBytes 8 d.lendOffset) false :=
  if_neg grants

theorem lent_lends (d : Dev) (node : Nat) {t : Nat} (off : Nat) (tier : t = 1 ∨ t = 2) : Lends d (d.lent node t off) node 0 t off := by
  have notFlash : t ≠ 3 := by omega
  obtain ⟨found, kept⟩ := d.placeObj_spec (newObj 16 t off (2 ^ 30) 0 false 0 0#64 .lent 1) notFlash
  exact ⟨kept, nofun, fun _ => ⟨tier, _, _, found, rfl, rfl, rfl, rfl, Tab.find_put_same _ _ _⟩⟩

/-- A lender answers with a segment or with status 3, as it chooses (R255, R299; log 39). -/
theorem lend_spec (d : Dev) (m : Msg) : ∃ e st t off,
    d.lend m = e.reply m 0x28 st (leBytes 8 t ++ leBytes 8 off) false ∧ (st = 0 ∨ st = 3) ∧ Lends d e m.src st t off := by
  by_cases refuses : (d.lendOffers.isEmpty || decide (262144 ≤ d.tier.objs.length)) = true
  · exact ⟨_, _, _, _, lend_refused m refuses, .inr rfl, rfl, fun _ => ⟨rfl, rfl, rfl, rfl⟩, nofun⟩
  · have three : d.lendTier < 3 := Nat.mod_lt _ (by decide)
    have lends : d.lendTier ≠ 0 := fun nothing => refuses (by rw [lendOffers, if_pos nothing]; rfl)
    obtain ⟨kept, -, made⟩ := lent_lends ((d.choose 3).2.choose d.lendOffers.length).2 m.src d.lendOffset (t := d.lendTier) (by omega)
    exact ⟨_, _, _, _, lend_granted m refuses, .inl rfl, kept, nofun, made⟩

/-! ## Segments that come back or are recalled -/

section
variable {d : Dev} {m : Msg} {i : Nat}

theorem lendFreed_nothing (nothing : d.objAt (addrTier m.addr) (addrOff m.addr) = none) : d.lendFreed m = d.reply m 0x23 0 [] false := by
  unfold lendFreed
  rw [nothing]

theorem lendFreed_segment {o : Obj} (there : d.objAt (addrTier m.addr) (addrOff m.addr) = some (i, o)) :
    d.lendFreed m = (if Tab.find d.herd.lentTo i = some m.src then
      ({ d with herd := { d.herd with lentTo := Tab.del d.herd.lentTo i } } : Dev).freeObj i else d).reply m 0x23 0 [] false := by
  unfold lendFreed
  rw [there]

/-- A reply changes the queues of links alone. -/
theorem reply_eq_links (d : Dev) (m : Msg) (opc st : Nat) (data : List Byte) (poison : Bool) :
    d.reply m opc st data poison = { d with herd := { d.herd with links := (d.reply m opc st data poison).herd.links } } := by
  unfold reply send
  split <;> rfl

theorem nodeId_reply (opc st : Nat) (data : List Byte) (poison : Bool) : (d.reply m opc st data poison).nodeId = d.nodeId := by
  rw [reply_eq_links]
  rfl

theorem routeLinks_reply (opc st n : Nat) (data : List Byte) (poison : Bool) : (d.reply m opc st data poison).routeLinks n = d.routeLinks n := by
  rw [reply_eq_links]
  rfl

/-- A segment is the one that a RECALL names, and has not been recalled before (R256). -/
def recalls (m : Msg) : Nat × Seg → Bool := fun q =>
  q.2.node == m.src && q.2.tier == addrTier m.addr && q.2.offset == alignDown (addrOff m.addr) (2 ^ 30) && !q.2.leaving

theorem recalls_iff {q : Nat × Seg} : recalls m q = true ↔
    q.2.node = m.src ∧ q.2.tier = addrTier m.addr ∧ q.2.offset = addrOff m.addr - addrOff m.addr % 2 ^ 30 ∧ q.2.leaving = false := by
  simp only [recalls, alignDown, Bool.and_eq_true, beq_iff_eq, Bool.not_eq_true', and_assoc]

theorem recalled_nothing (nothing : ∀ q ∈ d.tier.segs, ¬ recalls m q = true) : d.recalled m = d.reply m 0x23 0 [] false := by
  have none : (d.reply m 0x23 0 [] false).tier.segs.find? (recalls m) = none := by
    rw [reply_eq_links]
    exact List.find?_eq_none.mpr nothing
  unfold recalls at none
  unfold recalled
  dsimp only
  rw [none]

theorem recalled_segment {g : Seg} (found : (d.reply m 0x23 0 [] false).tier.segs.find? (recalls m) = some (i, g)) :
    d.recalled m =
      let u := d.reply m 0x23 0 [] false
      askNext { u with tier := { u.tier with segs := Tab.put u.tier.segs i { g with leaving := true } } } i := by
  unfold recalls at found
  unfold recalled
  dsimp only
  rw [found]

/-- With no other node to ask, the objects of a recalled segment leave it (R256). -/
theorem askNext_nobody {g : Seg} (found : Tab.find d.tier.segs i = some g)
    (nobody : ∀ n, n ≠ d.nodeId → n ≠ g.node → d.routeLinks n = []) : d.askNext i = d.emptySeg i := by
  have none : (Tab.keys d.herd.routes).filter (fun n => n ≠ d.nodeId && n ≠ g.node && !g.asked.contains n && !(d.routeLinks n).isEmpty) = [] := by
    refine List.filter_eq_nil_iff.mpr fun n _ asks => ?_
    simp only [Bool.and_eq_true, decide_eq_true_eq, Bool.not_eq_true', List.isEmpty_eq_false_iff] at asks
    obtain ⟨⟨⟨notSelf, notLender⟩, -⟩, linked⟩ := asks
    exact linked (nobody n notSelf notLender)
  unfold askNext
  rw [found]
  dsimp only
  rw [none]
  rfl

end
end Dev

section exec
variable {h : Fin 36} {m : Msg} {s : State} {u : Dev}

theorem exec_lendReq (oldest : s.dev.rxFirst h m 0x0A = true) (answered : (s.dev.rxTake h m).lend m = u) :
    exec (.lendReq h m) s = .next { s with dev := u } :=
  next_onDev_congr (g := fun _ => u) ((if_pos oldest).trans answered)

theorem exec_lendFree (oldest : s.dev.rxFirst h m 0x0B = true) (freed : (s.dev.rxTake h m).lendFreed m = u) :
    exec (.lendFree h m) s = .next { s with dev := u } :=
  next_onDev_congr (g := fun _ => u) ((if_pos oldest).trans freed)

theorem exec_recall (oldest : s.dev.rxFirst h m 0x0C = true) (recalled : (s.dev.rxTake h m).recalled m = u) :
    exec (.recall h m) s = .next (State.settled { s with dev := u }) :=
  next_settled_congr (onDev_congr (g := fun _ => u) ((if_pos oldest).trans recalled))

end exec

/-- Settles O38: a lender's answer is one of the two of `lend`; a freed or recalled range is the one that the message names, or none. -/
theorem lending : Obligations.Lending := by
  intro h m s d
  refine ⟨fun oldest => ?request, fun oldest => ⟨fun nothing => ?unknown, fun i o there mine => ?mine, fun i o there others => ?others⟩,
    fun oldest nothing => ?unmapped, fun oldest i g found nobody => ?mapped⟩
  case request =>
    obtain ⟨e, st, t, off, answered, status, kept, refused, granted⟩ := d.lend_spec m
    exact ⟨_, st, t, off, exec_lendReq oldest answered, status, e, rfl, kept, refused, granted⟩
  case unknown => exact exec_lendFree oldest (Dev.lendFreed_nothing nothing)
  case mine => exact exec_lendFree oldest ((Dev.lendFreed_segment there).trans (by rw [if_pos mine]))
  case others => exact exec_lendFree oldest ((Dev.lendFreed_segment there).trans (by rw [if_neg others]))
  case unmapped => exact exec_recall oldest (Dev.recalled_nothing fun q listed named => nothing q listed (Dev.recalls_iff.mp named))
  case mapped =>
    have node : g.node = m.src := (Dev.recalls_iff.mp (List.find?_some found)).1
    refine exec_recall oldest ((Dev.recalled_segment found).trans (Dev.askNext_nobody (Tab.find_put_same _ _ _) fun n notSelf notLender => ?_))
    exact (Dev.routeLinks_reply _ _ _ _ _).trans (nobody n (Dev.nodeId_reply (d := d) _ _ _ _ ▸ notSelf) (node ▸ notLender))

end Sys2Proof.Machine
end

section
/-! PROOFS. Moves, forwards and waits of the object service (R247 to R249, R254; Table 10-4). -/
namespace Sys2Proof.Machine
namespace Dev

/-- What an object takes of a tier depends on no register. -/
theorem objBytes_count (d : Dev) (cnt evt : Nat) (ovf : Fld) (o : Obj) (t : Nat) : (d.count cnt evt ovf).objBytes o t = d.objBytes o t := by
  rw [count_eq_regs]
  rfl

/-! ## The publication of a move -/

/-- An object as it stands once its move is published. -/
def movedObj (o : Obj) (m : MoveJob) : Obj :=
  { o with tier := m.tier, base := m.base, size := roundSize m.tier o.size, move := none, enc := if m.tier = 1 then [] else o.enc }

/-- The forward that a published move leaves at the old place of its object (R249). -/
def forwardOf (d : Dev) (i : Nat) (o : Obj) (m : MoveJob) : Forward :=
  ⟨o.part, i, o.tier, o.base, o.size, indexRoom o.rind o.tier o.size, d.objCharge o o.tier, m.demotion,
    (d.ctxs.filter (fun c => c.2.part == o.part)).map (·.1), (List.range 32).any (fun n => d.chamOwner n == o.part), d.namedBy o m, false⟩

/-- The device once a move is published and counted, but for the count of a demotion and the answer (Table 10-4 steps 4 to 6). -/
def afterMove (d : Dev) (i : Nat) (o : Obj) (m : MoveJob) : Dev :=
  let size := roundSize m.tier o.size
  let c := ((d.zeroRange m.tier m.base size).purge m.tier m.base size).copyObj o m.tier m.base
  let e : Dev := { c with tier := { c.tier with
    objs := Tab.put c.tier.objs i (movedObj o m), forwards := Tab.put c.tier.forwards c.tier.nextId (d.forwardOf i o m), nextId := c.tier.nextId + 1 } }
  (((e.breakResv o.tier o.base o.size).moveIndex i).putLocator (movedObj o m)).count R.tierMoveCnt R.tierEvt F.tierEvt_moveOvf

/-- A demotion counts as such too. -/
def demoted (g : Dev) (m : MoveJob) : Dev := if m.demotion then g.count R.tierDemoteCnt R.tierEvt F.tierEvt_demoteOvf else g

theorem objBytes_demoted (g : Dev) (m : MoveJob) (o : Obj) (t : Nat) : (g.demoted m).objBytes o t = g.objBytes o t := by
  unfold demoted
  split
  · exact objBytes_count g _ _ _ o t
  · rfl

section publish
variable {d : Dev} {i : Nat} {o : Obj} {m : MoveJob} (found : Tab.find d.tier.objs i = some o)
include found

theorem publish_unmoved (still : o.move = none) : d.publish i = d := by
  unfold publish
  rw [found]
  dsimp only
  rw [still]

variable (moving : o.move = some m)
include moving

/-- A move that a FREE has abandoned, or that is published once no cache holds its lines and its new range can be written. -/
theorem publish_moving : d.publish i =
    match m.abandon with
    | a :: more => more.foldl (fun d b => d.answerObj b.1 0x29 b.2 0 0 0 0#64 0)
        (((d.abandoned i ((m.who, m.fl) :: m.next.map (·.2))).answerWith a.1 0 a.2 i 0).freeObj i)
    | [] =>
      if !(d.dirHolds o.tier o.base o.size true ++ d.locHeld o).isEmpty then d.dirAsk true (d.dirHolds o.tier o.base o.size true ++ d.locHeld o)
      else if !d.moveFits o m then d
      else m.next.foldl (fun d n => d.moveObj i n.1 n.2.1 n.2.2)
        (((d.afterMove i o m).demoted m).answerWith m.who 0 m.fl i (((d.afterMove i o m).demoted m).objBytes (movedObj o m) m.tier)) := by
  cases o
  cases moving
  unfold publish
  rw [found]
  rfl

/-- A FREE has abandoned the move (R251). -/
theorem publish_abandoned {who : Asker} {fl : Nat} (abandoned : m.abandon = [(who, fl)]) :
    d.publish i = ((d.abandoned i ((m.who, m.fl) :: m.next.map (·.2))).answerWith who 0 fl i 0).freeObj i := by
  rw [publish_moving found moving, abandoned]
  exact List.foldl_nil

variable (kept : m.abandon = [])
include kept

theorem publish_held (held : d.dirHolds o.tier o.base o.size true ++ d.locHeld o ≠ []) :
    d.publish i = d.dirAsk true (d.dirHolds o.tier o.base o.size true ++ d.locHeld o) := by
  rw [publish_moving found moving, kept]
  exact if_pos (by simpa using held)

theorem publish_placed (unheld : d.dirHolds o.tier o.base o.size true = []) (locFree : d.locHeld o = []) (fits : d.moveFits o m = true)
    (last : m.next = []) :
    d.publish i = ((d.afterMove i o m).demoted m).answerWith m.who 0 m.fl i ((d.afterMove i o m).objBytes (movedObj o m) m.tier) := by
  rw [publish_moving found moving, kept, last]
  have settled : ¬ (!(d.dirHolds o.tier o.base o.size true ++ d.locHeld o).isEmpty) = true := by rw [unheld, locFree]; decide
  dsimp only
  rw [if_neg settled, if_neg (by rw [fits]; decide), List.foldl_nil, objBytes_demoted]

end publish

/-! ## Forwards, pools and waits -/

/-- The answer of a wait that found no room; moves of its object that waited behind it begin (R254). -/
def waitFails (d : Dev) (w : AllocWait) : Dev :=
  match w.moving with
  | some o => w.next.foldl (fun d n => d.moveObj o n.1 n.2.1 n.2.2) (d.answerWith w.who 3 w.fl o 0)
  | none => d.answerObj w.who 3 w.fl 0 w.tier 0 0#64 0

section
variable {d : Dev} {i : Nat}

theorem retireFwd_early {f : Forward} (found : Tab.find d.tier.forwards i = some f) (early : d.rebased f = false) : d.retireFwd i = d := by
  unfold retireFwd
  rw [found]
  dsimp only
  rw [early]
  rfl

theorem retireFwd_rebased {f : Forward} (found : Tab.find d.tier.forwards i = some f) (rebased : d.rebased f = true) :
    d.retireFwd i =
      let e : Dev := { d with tier := { d.tier with forwards := Tab.del d.tier.forwards i } }
      ((e.zeroRange f.tier f.base (f.size + f.ix)).retryWaits).segsLeave := by
  unfold retireFwd
  rw [found]
  dsimp only
  rw [rebased]
  rfl

theorem expireWait_room {w : AllocWait} (found : Tab.find d.tier.waits i = some w) {b : Nat} {u : Dev}
    (room : d.takeGap w.tier w.die w.size = some (b, u)) :
    d.expireWait i = u.grantWait i w b := by
  unfold expireWait
  rw [found]
  dsimp only
  rw [room]

theorem expireWait_full {w : AllocWait} (found : Tab.find d.tier.waits i = some w) (full : d.takeGap w.tier w.die w.size = none) :
    d.expireWait i = (countFull { d with tier := { d.tier with waits := Tab.del d.tier.waits i } }).waitFails w := by
  unfold expireWait
  rw [found]
  dsimp only
  rw [full]
  rfl

end
end Dev

section exec
variable {s : State}

theorem exec_objectMovePublish {i : BitVec 18} {u : Dev} (published : s.dev.publish i.toNat = u) :
    exec (.objectMovePublish i) s = .next { s with dev := u } :=
  next_onDev_congr (g := fun _ => u) published

theorem exec_forwardRetire {i : BitVec 32} {u : Dev} (retired : s.dev.retireFwd i.toNat = u) :
    exec (.forwardRetire i) s = .next { s with dev := u } :=
  next_onDev_congr (g := fun _ => u) retired

theorem exec_allocWaitExpire {i : BitVec 32} {u : Dev} (expired : s.dev.expireWait i.toNat = u) :
    exec (.allocWaitExpire i) s = .next { s with dev := u } :=
  next_onDev_congr (g := fun _ => u) expired

/-- What a forward that has outlived its time counts, once (R249). -/
theorem exec_forwardLate {i : BitVec 32} {f : Forward} (found : Tab.find s.dev.tier.forwards i.toNat = some f) :
    exec (.forwardLate i) s = .next (s.onDev fun d => if f.late then d else
      Dev.count { d with tier := { d.tier with forwards := Tab.put d.tier.forwards i.toNat { f with late := true } } }
        R.tierLateCnt R.tierEvt F.tierEvt_lateOvf) := by
  refine next_onDev_congr ?_
  rw [found]

/-- Of the tiers of POOL_DEMOTE, tiers 3 and 5 have none below them. -/
theorem poolDemote_last : ∀ j : Fin 4, 3 ≤ [1, 2, 3, 5].getD j 1 ↔ [1, 2, 3, 5].getD j 1 = 3 ∨ [1, 2, 3, 5].getD j 1 = 5 := by decide

/-- Objects are demoted out of tiers 1 and 2, where the tier is pooled and below LOW (R254). -/
theorem exec_poolDemote (j : Fin 4) :
    let t := [1, 2, 3, 5].getD j 1
    exec (.poolDemote j) s = .next (s.onDev fun d => if 3 ≤ t ∨ d.pooled t = false ∨ d.lowOf t ≤ d.freeOf t then d
      else Dev.demoteLoop (Dev.allocate 1) d.tier.objs.length d t 0) := by
  intro t
  have flash : 3 ≤ t ↔ t = 3 ∨ t = 5 := poolDemote_last j
  refine next_onDev_congr ?_
  refine ite_congr (propext ?_) (fun _ => rfl) fun _ => rfl
  simp only [flash, Bool.or_eq_true, decide_eq_true_eq, Bool.not_eq_true', or_assoc]
  exact Iff.rfl

end exec

/-- Settles O29: each clause is one case of a command of the object service. -/
theorem objectService : Obligations.ObjectService := by
  intro s
  refine ⟨fun i o found => ⟨fun still => ?_, fun m who fl moving abandoned => ?_, fun m moving kept held => ?_,
      fun m moving kept unheld locFree fits last => ?_⟩,
    fun i f found => ⟨fun early => ?_, fun rebased => ?_, fun late => ?_, fun new => ?_⟩, fun j => ⟨fun stays => ?_, fun tier pooled below => ?_⟩,
    fun i w found => ⟨fun b u room => ?_, fun full => ?_⟩⟩
  · exact exec_objectMovePublish (Dev.publish_unmoved found still)
  · exact exec_objectMovePublish (Dev.publish_abandoned found moving abandoned)
  · exact exec_objectMovePublish (Dev.publish_held found moving kept held)
  · exact exec_objectMovePublish (Dev.publish_placed found moving kept unheld locFree fits last)
  · exact exec_forwardRetire (Dev.retireFwd_early found early)
  · exact exec_forwardRetire (Dev.retireFwd_rebased found rebased)
  · exact (exec_forwardLate found).trans (next_onDev_eq_self (if_pos late))
  · exact (exec_forwardLate found).trans (next_onDev_congr (if_neg (by rw [new]; decide)))
  · exact (exec_poolDemote j).trans (next_onDev_eq_self (if_pos stays))
  · refine (exec_poolDemote j).trans (next_onDev_congr (if_neg fun stays => ?_))
    rw [pooled] at stays
    rcases stays with above | unpooled | filled
    · omega
    · cases unpooled
    · omega
  · exact exec_allocWaitExpire (Dev.expireWait_room found room)
  · exact exec_allocWaitExpire (Dev.expireWait_full found full)

end Sys2Proof.Machine
end

section
/-! PROOFS. The object commands of a Chamois core (R243 to R251; Table 10-3): the command block, and what each operation does with it. -/
namespace Sys2Proof.Machine
namespace Dev

/-! ## The command block (R245) -/

/-- The place of a core's command block of 64 bytes. -/
def blockPlace (d : Dev) (k : Fin 32) (a : W64) : Place := d.clampSteps (.cham k) false noT3 a 64

/-- The words of the block. -/
def blockWords (d : Dev) (k : Fin 32) (a : W64) : List W64 := wordsOf 8 (d.lread (d.blockPlace k a).tier (d.blockPlace k a).off 64).1

/-- The operation that the block names. -/
def blockOp (d : Dev) (k : Fin 32) (a : W64) : Nat := bits64 ((d.blockWords k a).getD 0 0#64) 0 8

/-- The operation of a command block: QUERY where there is no such one (Table 10-3). -/
def opTaken (op : Nat) : Nat := if 1 ≤ op ∧ op ≤ 7 then op else 7

/-- One clamp where there is no such operation. -/
def opClamp (d : Dev) (k : Fin 32) (a : W64) : Nat := if 1 ≤ d.blockOp k a ∧ d.blockOp k a ≤ 7 then 0 else 1

/-- The device once a command has read its block and counted the clamps of the block's address and operation. -/
def blockRead (d : Dev) (k : Fin 32) (a : W64) : Dev :=
  ((d.noteClamps (.cham k) (d.blockPlace k a).kinds a).ltouch false (d.blockPlace k a).tier (d.blockPlace k a).off 64).tierClamp (d.opClamp k a)

/-- The partition for which a core's command is taken: 16 for the run-time's. -/
def blockPart (d : Dev) (k : Fin 32) : Nat := if d.chamOwner k < 16 then d.chamOwner k else 16

theorem cmdPart_eq_blockPart (d : Dev) (k : Fin 32) : d.cmdPart k = d.blockPart k := by
  unfold cmdPart blockPart
  rw [decide_eq_true k.isLt, Bool.true_and]
  exact ite_congr (propext decide_eq_true_iff) (fun _ => rfl) fun _ => rfl

section block
variable {d : Dev} {k : Fin 32} {a : W64} (here : d.isHere (d.blockPlace k a) = true)
include here

theorem withBlock_held (held : d.lready (d.blockPlace k a).tier (d.blockPlace k a).off 64 true = false) (f : Dev → W64 → List W64 → Dev) :
    d.withBlock (.cham k) a f = d.dirAsk true (d.lholds (d.blockPlace k a).tier (d.blockPlace k a).off 64 true) := by
  unfold blockPlace at *
  unfold withBlock
  dsimp only
  rw [here, held]
  rfl

theorem withBlock_ready (ready : d.lready (d.blockPlace k a).tier (d.blockPlace k a).off 64 true = true) (f : Dev → W64 → List W64 → Dev) :
    d.withBlock (.cham k) a f = f ((d.noteClamps (.cham k) (d.blockPlace k a).kinds a).ltouch false (d.blockPlace k a).tier (d.blockPlace k a).off 64)
      (placeAddr (d.blockPlace k a)) (d.blockWords k a) := by
  unfold blockWords
  unfold blockPlace at *
  unfold withBlock
  dsimp only
  rw [here, ready]
  rfl

end block

section ocmd
variable {d : Dev} {k : Fin 32} {a : W64} {op : Nat} {f : Dev → Nat → List W64 → Asker → Nat → Dev}
  (ok : d.busAns (.cham k) R.tierOcmdLo true = .ok)
include ok

theorem ocmd_eq_withBlock :
    d.ocmd k a op f = d.withBlock (.cham k) a fun e at' ws =>
      let op0 := bits64 (ws.getD 0 0#64) 0 8
      if opTaken op0 ≠ op then d else f (e.tierClamp (b2n (opTaken op0 != op0))) (d.cmdPart k) ws (.block k at') (b2n (opTaken op0 != op0)) := by
  unfold ocmd
  rw [if_pos k.isLt]
  exact regDo_of_ok ok _

variable (here : d.isHere (d.blockPlace k a) = true)
include here

/-- The lines of the block come first (R245). -/
theorem ocmd_held (held : d.lready (d.blockPlace k a).tier (d.blockPlace k a).off 64 true = false) :
    d.ocmd k a op f = d.dirAsk true (d.lholds (d.blockPlace k a).tier (d.blockPlace k a).off 64 true) :=
  (ocmd_eq_withBlock ok).trans (withBlock_held here held _)

/-- The operation that the block names is done for the partition that owns the core, with its answer in the block. -/
theorem ocmd_taken (ready : d.lready (d.blockPlace k a).tier (d.blockPlace k a).off 64 true = true)
    (named : opTaken (d.blockOp k a) = op) :
    d.ocmd k a op f =
      f (d.blockRead k a) (d.blockPart k) (d.blockWords k a) (.block k (placeAddr (d.blockPlace k a))) (d.opClamp k a) := by
  have clamp : b2n (opTaken (d.blockOp k a) != d.blockOp k a) = d.opClamp k a := by
    rw [b2n_bne, opTaken, opClamp]
    split
    · exact if_pos rfl
    · exact if_neg (by omega)
  unfold blockRead
  rw [ocmd_eq_withBlock ok, withBlock_ready here ready, ← clamp, ← cmdPart_eq_blockPart]
  exact if_neg fun other => other named

end ocmd

/-! ## The operations on an object (R245, R247, R251) -/

section
variable {d : Dev} {p i fl : Nat} {ws : List W64} {who : Asker} {f : Dev → Nat → Obj → Dev}

theorem onObj_nothing (nothing : d.findObj p (ws.getD 2 0#64) = none) : d.onObj p ws who fl f = d.answerObj who 0x29 fl 0 0 0 0#64 0 := by
  unfold onObj
  rw [nothing]

theorem onObj_found {o : Obj} (named : d.findObj p (ws.getD 2 0#64) = some i) (there : Tab.find d.tier.objs i = some o) :
    d.onObj p ws who fl f = f d i o := by
  unfold onObj
  rw [named]
  dsimp only
  rw [there]

end

/-- A MOVE names no tier that it may have: 1 takes its place (R73, R247). -/
def noMoveTier (d : Dev) (r : Req) (t0 : Nat) : Bool := decide (t0 = 0 ∨ t0 = 4 ∨ 6 ≤ t0 ∨ (t0 = 5 ∧ d.admits5 r = false))

theorem one_ne_of_noMoveTier {d : Dev} {r : Req} {t0 : Nat} (bad : d.noMoveTier r t0 = true) : 1 ≠ t0 := by
  rintro rfl
  simp [noMoveTier] at bad

theorem moveTier_eq (d : Dev) (r : Req) (t0 : Nat) :
    (if t0 = 0 ∨ t0 = 4 ∨ 6 ≤ t0 then 1 else if t0 = 5 && !d.admits5 r then 1 else t0) = if d.noMoveTier r t0 then 1 else t0 := by
  unfold noMoveTier
  by_cases reserved : t0 = 0 ∨ t0 = 4 ∨ 6 ≤ t0
  · rw [if_pos reserved]
    exact (if_pos (decide_eq_true (by omega))).symm
  · rw [if_neg reserved]
    refine ite_congr (propext ?_) (fun _ => rfl) fun _ => rfl
    simp only [Bool.and_eq_true, Bool.not_eq_true', decide_eq_true_eq]
    refine ⟨fun shut => .inr (.inr (.inr shut)), fun bad => ?_⟩
    rcases bad with zero | four | above | shut
    · exact absurd (.inl zero) reserved
    · exact absurd (.inr (.inl four)) reserved
    · exact absurd (.inr (.inr above)) reserved
    · exact shut

/-- A MOVE to a tier that it may not have counts one clamp; where it names tier 5 the run-time may ask for segments (log 39). -/
theorem objMove_eq (d : Dev) (r : Req) (p : Nat) (ws : List W64) (who : Asker) :
    d.objMove r p ws who 0 =
      let t0 := bits64 (ws.getD 0 0#64) 8 3
      let bad := d.noMoveTier r t0
      let fl := if bad then 1 else 0
      ((d.tierClamp fl).lendWish (bad && t0 == 5)).onObj p ws who fl fun d i _ => d.moveObj i (if bad then 1 else t0) who fl := by
  unfold objMove
  simp only [moveTier_eq, b2n_bne, Nat.zero_or]
  generalize bits64 (ws.getD 0 0#64) 8 3 = t0
  cases bad : d.noMoveTier r t0 with
  | false => simp [bne]
  | true => simp [one_ne_of_noMoveTier bad]

/-! ## CREATE (R246, R252 to R254) -/

section create
variable (e : Dev) (r : Req) (p t size die fl : Nat) (rind : Bool) (ws : List W64) (who : Asker)

/-- The status with which a creation fails that could have its range: OBJECT_LIMIT before that of a retired device (R17). -/
def createFails (e : Dev) (t x : Nat) : Nat :=
  if 262144 ≤ e.tier.objs.length + (if x = 0 then 0 else 1) then 0x28 else if t = 3 && e.ftl.retired then 0x58 else 0

/-- What CREATE allocates in a tier: the range of the object, with its index behind it. -/
def createRange : Alloc × Dev :=
  allocate 2 e p t (roundSize t size + indexRoom rind t size) die
    ((if rind = true ∧ t = 3 then 0 else roundSize t size) + indexRoom rind t size)

/-- The blocks of a Rind object find their packed entries in tier 3 (R400). -/
def Packs : Prop := rind = true → t = 3 → (size + 4095) / 4096 ≤ e.fineFree

/-- The device once the clamps of a CREATE are counted; where it names tier 5 the run-time may ask for segments (log 39). -/
def createTaken (d : Dev) (r : Req) (ws : List W64) : Dev :=
  let g := d.createArgs r ws
  (d.tierClamp g.2.2.2.2.2.2.2.2).lendWish (!g.2.1 && g.1 != 5 && bits64 (ws.getD 0 0#64) 8 3 == 5)

/-- What CREATE does in a tier that has the packed entries for it. -/
def createPacked : Dev :=
  match e.createRange p t size die rind with
  | (.got b, u) => if e.createFails t (indexRoom rind t size) ≠ 0 then e.answerObj who (e.createFails t (indexRoom rind t size)) fl 0 t 0 0#64 0
    else u.finishCreate r p t b ws who fl
  | (.full, u) => (if t = 5 then u.askLend else u).answerObj who 3 fl 0 t 0 0#64 0
  | (.later, u) => if e.createFails t (indexRoom rind t size) ≠ 0 then e.answerObj who (e.createFails t (indexRoom rind t size)) fl 0 t 0 0#64 0
    else (if t = 5 then u.askLend else u).addWait ⟨t, die, roundSize t size + indexRoom rind t size, p, ws, none, false, who, fl, []⟩

/-- What CREATE does in a tier. -/
def createIn : Dev :=
  if rind && t = 3 && e.fineFree < ceilDiv size 4096 then e.answerObj who 3 fl 0 t 0 0#64 0
  else e.createPacked r p t size die fl rind ws who

theorem createObj_eq_createIn (d : Dev) :
    d.createObj r p ws who =
      let g := d.createArgs r ws
      let e := d.createTaken r ws
      let t := if g.2.1 = true then e.autoTier p g.2.2.1 g.2.2.2.2.2.1 g.2.2.2.2.2.2.1 else g.1
      e.createIn r p t g.2.2.2.2.2.2.1 g.2.2.2.2.2.1 (min 1 g.2.2.2.2.2.2.2.2) g.2.2.2.1 ws who := by
  unfold createObj createIn createPacked createRange createFails
  simp only [Nat.zero_or, b2n_bne, Bool.and_eq_true, decide_eq_true_eq]
  rfl

variable {e r p t size die fl rind ws who}

theorem createIn_unpacked (entries : rind = true) (flash : t = 3) (short : e.fineFree < (size + 4095) / 4096) :
    e.createIn r p t size die fl rind ws who = e.answerObj who 3 fl 0 t 0 0#64 0 :=
  if_pos (by rw [entries, decide_eq_true flash]; exact decide_eq_true short)

theorem createIn_packed (packs : e.Packs t size rind) :
    e.createIn r p t size die fl rind ws who = e.createPacked r p t size die fl rind ws who := by
  refine if_neg fun unpacked => ?_
  simp only [Bool.and_eq_true, decide_eq_true_eq] at unpacked
  obtain ⟨⟨entries, flash⟩, short⟩ := unpacked
  exact Nat.not_lt.mpr (packs entries flash) short

theorem createPacked_full {u : Dev} (full : e.createRange p t size die rind = (.full, u)) :
    e.createPacked r p t size die fl rind ws who = (if t = 5 then u.askLend else u).answerObj who 3 fl 0 t 0 0#64 0 := by
  unfold createPacked
  rw [full]

theorem createPacked_fails (room : ∀ u, e.createRange p t size die rind ≠ (.full, u)) {st : Nat}
    (fails : e.createFails t (indexRoom rind t size) = st) (bad : st ≠ 0) :
    e.createPacked r p t size die fl rind ws who = e.answerObj who st fl 0 t 0 0#64 0 := by
  unfold createPacked
  rw [fails]
  match got : e.createRange p t size die rind with
  | (.full, u) => exact absurd got (room u)
  | (.got b, u) => exact if_pos bad
  | (.later, u) => exact if_pos bad

theorem createPacked_got {b : Nat} {u : Dev} (got : e.createRange p t size die rind = (.got b, u))
    (fine : e.createFails t (indexRoom rind t size) = 0) :
    e.createPacked r p t size die fl rind ws who = u.finishCreate r p t b ws who fl := by
  unfold createPacked
  rw [got]
  exact if_neg fun fails => fails fine

variable {x : Nat}

theorem createFails_limit (full : 262144 ≤ e.tier.objs.length + (if x = 0 then 0 else 1)) : e.createFails t x = 0x28 := if_pos full

theorem createFails_below (below : e.tier.objs.length + (if x = 0 then 0 else 1) < 262144) :
    e.createFails t x = if t = 3 ∧ e.ftl.retired = true then 0x58 else 0 := by
  unfold createFails
  rw [if_neg (Nat.not_le.mpr below)]
  exact ite_congr (by simp only [Bool.and_eq_true, decide_eq_true_eq]) (fun _ => rfl) fun _ => rfl

end create
end Dev

/-- The object commands, each with its operation and what it does (Table 10-3). -/
def ocmds (k : Fin 32) (a : W64) : List (Instr × Nat × (Dev → Nat → List W64 → Asker → Nat → Dev)) :=
  [(.ocmdCreate k a, 1, fun d p ws who _ => d.createObj (.cham k) p ws who), (.ocmdFree k a, 2, Dev.objFree),
    (.ocmdMove k a, 3, fun d p ws who fl => d.objMove (.cham k) p ws who fl), (.ocmdPin k a, 4, Dev.objPin), (.ocmdUnpin k a, 5, Dev.objUnpin),
    (.ocmdRebaseAck k a, 6, fun d p _ who fl => d.objAck p who fl), (.ocmdQuery k a, 7, Dev.objQuery)]

theorem exec_eq_ocmd {k : Fin 32} {a : W64} {c : Instr × Nat × (Dev → Nat → List W64 → Asker → Nat → Dev)} (listed : c ∈ ocmds k a) (s : State) :
    exec c.1 s = .next (s.onDev fun d => d.ocmd k a c.2.1 c.2.2) := by
  simp only [ocmds, List.mem_cons, List.not_mem_nil, or_false] at listed
  rcases listed with rfl | rfl | rfl | rfl | rfl | rfl | rfl <;> rfl

section exec
variable {k : Fin 32} {a : W64} {s : State} (ok : s.dev.busAns (.cham k) R.tierOcmdLo true = .ok)
  (here : s.dev.isHere (s.dev.blockPlace k a) = true)
include ok here

theorem exec_ocmd_held {i : Instr} (listed : i ∈ (ocmds k a).map (·.1))
    (held : s.dev.lready (s.dev.blockPlace k a).tier (s.dev.blockPlace k a).off 64 true = false) :
    exec i s = .next (s.onDev fun d => d.dirAsk true (d.lholds (s.dev.blockPlace k a).tier (s.dev.blockPlace k a).off 64 true)) := by
  obtain ⟨c, command, rfl⟩ := List.mem_map.mp listed
  exact (exec_eq_ocmd command s).trans (next_onDev_congr (Dev.ocmd_held ok here held))

theorem exec_ocmd {i : Instr} {op : Nat} {f : Dev → Nat → List W64 → Asker → Nat → Dev} {u : Dev} (listed : (i, op, f) ∈ ocmds k a)
    (ready : s.dev.lready (s.dev.blockPlace k a).tier (s.dev.blockPlace k a).off 64 true = true)
    (named : Dev.opTaken (s.dev.blockOp k a) = op)
    (done : f (s.dev.blockRead k a) (s.dev.blockPart k) (s.dev.blockWords k a) (.block k (Dev.placeAddr (s.dev.blockPlace k a))) (s.dev.opClamp k a) = u) :
    exec i s = .next { s with dev := u } :=
  (exec_eq_ocmd listed s).trans (next_onDev_congr (g := fun _ => u) ((Dev.ocmd_taken ok here ready named).trans done))

end exec

/-- Settles O28: each clause is one command of Table 10-3 with the block that it reads, or one case of what CREATE allocates. -/
theorem objectCommands : Obligations.ObjectCommands := by
  intro k a s ok z ws op d p who fl at' here
  refine ⟨fun held i command => exec_ocmd_held ok here command held, fun ready => ?_⟩
  intro nothing onObj
  -- a command whose operation the block names counts no clamp of it
  have run : ∀ {i n f u}, (i, n, f) ∈ ocmds k a → op = n → 1 ≤ n ∧ n ≤ 7 → f d p ws who 0 = u → exec i s = .next { s with dev := u } := by
    intro i n f u listed named within done
    have known : 1 ≤ op ∧ op ≤ 7 := named ▸ within
    have clean : s.dev.opClamp k a = 0 := if_pos known
    refine exec_ocmd ok here listed ready ((if_pos known).trans named) ?_
    rw [clean]
    exact done
  have query : ∀ {u}, op = 7 ∨ op < 1 ∨ 7 < op → d.objQuery p ws who fl = u → exec (.ocmdQuery k a) s = .next { s with dev := u } := by
    intro u named done
    refine exec_ocmd ok here (op := 7) (f := Dev.objQuery) (by simp [ocmds]) ready ?_ done
    change (if 1 ≤ op ∧ op ≤ 7 then op else 7) = 7
    split <;> omega
  have created := Dev.createObj_eq_createIn (.cham k) p ws who d
  have free : (.ocmdFree k a, 2, Dev.objFree) ∈ ocmds k a := by simp [ocmds]
  have move : (.ocmdMove k a, 3, fun d p ws who fl => d.objMove (.cham k) p ws who fl) ∈ ocmds k a := by simp [ocmds]
  have pin : (.ocmdPin k a, 4, Dev.objPin) ∈ ocmds k a := by simp [ocmds]
  have unpin : (.ocmdUnpin k a, 5, Dev.objUnpin) ∈ ocmds k a := by simp [ocmds]
  refine ⟨fun named => ?create, ⟨fun entries flash short => ?unpacked, fun u packs full => ?full, fun packs room limit => ?limit,
      fun packs room below flash retired => ?retired⟩, fun b u below served packs got => ?got,
    fun named absent => ?freeNothing, fun n b named found there => ?free, ⟨fun named absent => ?moveNothing, fun n b named found there => ?move⟩,
    fun named absent => ?pinNothing, fun n b named found there => ?pin, fun named absent => ?unpinNothing, fun n b named found there => ?unpin,
    fun named => ?ack, fun named absent => ?queryNothing, fun n b named found there => ?query⟩
  case create => exact run (.head _) named (by decide) rfl
  case unpacked => exact created.trans (Dev.createIn_unpacked entries flash short)
  case full => exact created.trans ((Dev.createIn_packed packs).trans (Dev.createPacked_full full))
  case limit =>
    exact created.trans ((Dev.createIn_packed packs).trans (Dev.createPacked_fails room (Dev.createFails_limit limit) (by decide)))
  case retired =>
    have fails := (Dev.createFails_below below).trans (if_pos ⟨flash, retired⟩)
    exact created.trans ((Dev.createIn_packed packs).trans (Dev.createPacked_fails room fails (by decide)))
  case got =>
    have fine := (Dev.createFails_below below).trans (if_neg fun ⟨flash, retired⟩ => Bool.false_ne_true ((served flash).symm.trans retired))
    exact created.trans ((Dev.createIn_packed packs).trans (Dev.createPacked_got got fine))
  case freeNothing => exact run free named (by decide) (Dev.onObj_nothing absent)
  case free => exact run free named (by decide) (Dev.onObj_found found there)
  case moveNothing => exact run move named (by decide) ((Dev.objMove_eq _ _ _ _ _).trans (Dev.onObj_nothing absent))
  case move => exact run move named (by decide) ((Dev.objMove_eq _ _ _ _ _).trans (Dev.onObj_found found there))
  case pinNothing => exact run pin named (by decide) (Dev.onObj_nothing absent)
  case pin => exact run pin named (by decide) (Dev.onObj_found found there)
  case unpinNothing => exact run unpin named (by decide) (Dev.onObj_nothing absent)
  case unpin => exact run unpin named (by decide) (Dev.onObj_found found there)
  case ack => exact run (i := .ocmdRebaseAck k a) (f := fun d p _ who fl => d.objAck p who fl) (by simp [ocmds]) named (by decide) rfl
  case queryNothing => exact query named (Dev.onObj_nothing absent)
  case query => exact query named (Dev.onObj_found found there)

end Sys2Proof.Machine
end

section
/-! PROOFS. Messages in a link's receive buffer: which is handled, and the oldest of its channel alone (R272, R273). -/
namespace Sys2Proof.Machine

section
variable {d : Dev} {s : State} {h : Nat} {m : Msg} {opc : Nat}

/-- A message that is the oldest of its channel is taken and handled (R272). -/
theorem next_msgDo {f : Dev → Dev} {u : Dev} (oldest : s.dev.rxFirst h m opc = true)
    (handled : f (s.dev.rxTake h m) = u) : (.next (s.onDev fun d => d.msgDo h m opc f) : Out) = .next { s with dev := u } :=
  next_onDev_congr (g := fun _ => u) ((if_pos oldest).trans handled)

/-- A message that is not the oldest of its channel waits (R272). -/
theorem Dev.msgDo_of_later (later : d.rxFirst h m opc = false) (f : Dev → Dev) : d.msgDo h m opc f = d :=
  if_neg (by rw [later]; decide)

theorem State.uncached_of_later (later : s.dev.rxFirst h m opc = false) : s.uncached h m opc = s :=
  if_pos (by rw [later]; decide)

end

/-- A command of a message leaves the state as it is, but for the faults that wait, where its message is not the oldest of its channel. -/
def WaitsInTurn (p : (Fin 36 → Msg → Instr) × Nat) : Prop :=
  ∀ (h : Fin 36) (m : Msg) (s : State), s.dev.rxFirst h m p.2 = false → ∃ t, exec (p.1 h m) s = .next t ∧ (t = s ∨ t = s.settled)

namespace WaitsInTurn
variable {i : Fin 36 → Msg → Instr} {opc : Nat}

theorem plain {f : State → Fin 36 → Msg → Dev → Dev} (run : ∀ h m s, exec (i h m) s = .next (s.onDev fun d => d.msgDo h m opc (f s h m))) :
    WaitsInTurn (i, opc) := fun h m s later =>
  ⟨s, (run h m s).trans (next_onDev_eq_self (Dev.msgDo_of_later later _)), .inl rfl⟩

theorem settles {f : State → Fin 36 → Msg → Dev → Dev}
    (run : ∀ h m s, exec (i h m) s = .next (s.onDev fun d => d.msgDo h m opc (f s h m)).settled) : WaitsInTurn (i, opc) := fun h m s later =>
  ⟨s.settled, (run h m s).trans (next_settled_congr (onDev_eq_self (Dev.msgDo_of_later later _))), .inr rfl⟩

theorem uncached (run : ∀ h m s, exec (i h m) s = .next (s.uncached h m opc)) : WaitsInTurn (i, opc) := fun h m s later =>
  ⟨s, (run h m s).trans (congrArg _ (State.uncached_of_later later)), .inl rfl⟩

theorem uncached_settles (run : ∀ h m s, exec (i h m) s = .next (s.uncached h m opc).settled) : WaitsInTurn (i, opc) := fun h m s later =>
  ⟨s.settled, (run h m s).trans (next_settled_congr (State.uncached_of_later later)), .inr rfl⟩

end WaitsInTurn

theorem waitsInTurn_requests : ∀ p ∈ ([(Instr.rd, 0x01), (Instr.rdShared, 0x02), (Instr.rdOwn, 0x03), (Instr.upgrade, 0x04), (Instr.wr, 0x05),
    (Instr.wrp, 0x06), (Instr.wb, 0x07), (Instr.amo, 0x08), (Instr.evict, 0x09), (Instr.lendReq, 0x0A), (Instr.lendFree, 0x0B),
    (Instr.recall, 0x0C)] : List ((Fin 36 → Msg → Instr) × Nat)), WaitsInTurn p := by
  simp only [List.forall_mem_cons, List.not_mem_nil, false_imp_iff, implies_true, and_true]
  exact ⟨.uncached_settles fun _ _ _ => rfl, .plain fun _ _ _ => rfl, .plain fun _ _ _ => rfl, .plain fun _ _ _ => rfl,
    .uncached_settles fun _ _ _ => rfl, .uncached_settles fun _ _ _ => rfl, .plain fun _ _ _ => rfl, .uncached fun _ _ _ => rfl,
    .plain fun _ _ _ => rfl, .plain fun _ _ _ => rfl, .plain fun _ _ _ => rfl, .settles fun _ _ _ => rfl⟩

theorem waitsInTurn_replies : ∀ p ∈ ([(Instr.data, 0x20), (Instr.dataS, 0x21), (Instr.dataE, 0x22), (Instr.ack, 0x23), (Instr.ackE, 0x24),
    (Instr.invAck, 0x25), (Instr.fwdData, 0x26), (Instr.receipt, 0x27), (Instr.lendGrant, 0x28)] : List ((Fin 36 → Msg → Instr) × Nat)),
    WaitsInTurn p := by
  simp only [List.forall_mem_cons, List.not_mem_nil, false_imp_iff, implies_true, and_true]
  exact ⟨.settles fun _ _ _ => rfl, .settles fun _ _ _ => rfl, .settles fun _ _ _ => rfl, .settles fun _ _ _ => rfl, .settles fun _ _ _ => rfl,
    .plain fun _ _ _ => rfl, .plain fun _ _ _ => rfl, .plain fun _ _ _ => rfl, .settles fun _ _ _ => rfl⟩

theorem waitsInTurn_others : ∀ p ∈ ([(Instr.inv, 0x30), (Instr.fwdS, 0x31), (Instr.fwdI, 0x32), (Instr.token, 0x40), (Instr.close, 0x41),
    (Instr.tokenReply, 0x42), (Instr.hello, 0x50), (Instr.probe, 0x51), (Instr.probeReply, 0x52), (Instr.assign, 0x53), (Instr.route, 0x54),
    (Instr.nodeGone, 0x55)] : List ((Fin 36 → Msg → Instr) × Nat)), WaitsInTurn p := by
  simp only [List.forall_mem_cons, List.not_mem_nil, false_imp_iff, implies_true, and_true]
  exact ⟨.plain fun _ _ _ => rfl, .plain fun _ _ _ => rfl, .plain fun _ _ _ => rfl, .plain fun _ _ _ => rfl, .plain fun _ _ _ => rfl,
    .plain fun _ _ _ => rfl, .plain fun _ _ _ => rfl, .plain fun _ _ _ => rfl, .plain fun _ _ _ => rfl, .plain fun _ _ _ => rfl,
    .plain fun _ _ _ => rfl, .plain fun _ _ _ => rfl⟩

/-- Settles O35: every command of a message asks first whether its message is the oldest of its channel. -/
theorem messagesInTurn : Obligations.MessagesInTurn :=
  List.forall_mem_append.mpr ⟨waitsInTurn_requests, List.forall_mem_append.mpr ⟨waitsInTurn_replies, waitsInTurn_others⟩⟩

end Sys2Proof.Machine
end

section
/-! PROOFS. Snoops: what a cache of this device answers, and what a home does with the answers that it gets (R292, R293, R295). -/
namespace Sys2Proof.Machine
namespace Dev

/-! ## A cache of this device -/

section cache
variable {d : Dev} {m : Msg} {l : CLine} {keep : Bool}

theorem fwdIn_of_absent (absent : Tab.find d.herd.cache (farLine m.addr) = none) : d.fwdIn m keep = d.reply m 0x26 0 [] false := by
  rw [fwdIn, absent]

theorem fwdIn_of_shared (held : Tab.find d.herd.cache (farLine m.addr) = some l) (shared : l.st ≠ 2) :
    d.fwdIn m keep = d.reply m 0x26 0 [] false := by
  rw [fwdIn, held]
  exact if_pos shared

/-- The owned line goes to its home; FWD_S leaves it shared, FWD_I leaves none (R293). -/
theorem fwdIn_of_owned (held : Tab.find d.herd.cache (farLine m.addr) = some l) (owned : l.st = 2) :
    d.fwdIn m keep =
      (if keep then
        ({ d with herd := { d.herd with cache := Tab.put d.herd.cache (farLine m.addr) { l with st := 1, dirty := false } } } : Dev)
      else d.dropFar (farLine m.addr)).reply m 0x26 0 l.data false := by
  rw [fwdIn, held]
  exact if_neg (not_not_intro owned)

end cache

/-! ## An answer at the home -/

section ack
variable {d : Dev} {key node : Nat} {e : DirEnt}

/-- An answer that no snoop of the line awaits changes nothing. -/
theorem dirAck_of_unawaited (found : d.dirEnt key = some e) (unawaited : e.busy = false ∨ node ∉ e.await) (drop : Bool) :
    d.dirAck key node drop = d := by
  rw [dirAck, found]
  exact if_pos (by simpa using unawaited)

section
variable (found : d.dirEnt key = some e) (busy : e.busy = true) (awaited : node ∈ e.await)
include found busy awaited

/-- A node that holds the line no longer is awaited no more; with the last of them the entry names groups no more (R292, R294). -/
theorem dirAck_drop : d.dirAck key node true =
    let e' := { e with await := e.await.filter (· ≠ node), nodes := e.nodes.filter (· ≠ node) }
    let e'' := if e'.await.isEmpty then { e' with coarse := false, groups := [] } else e'
    if e''.await.isEmpty then (d.putDir key e'').dirDone key else d.putDir key e'' := by
  rw [dirAck, found]
  exact if_neg (by simp [busy, awaited])

/-- An answer that is not the last leaves the line BUSY (R292). -/
theorem dirAck_drop_more (more : e.await.filter (· ≠ node) ≠ []) :
    d.dirAck key node true = d.putDir key { e with await := e.await.filter (· ≠ node), nodes := e.nodes.filter (· ≠ node) } := by
  rw [dirAck_drop found busy awaited]
  simp only [List.isEmpty_iff, if_neg more]

/-- The last answer ends the wait (R292). -/
theorem dirAck_drop_last (last : e.await.filter (· ≠ node) = []) :
    d.dirAck key node true =
      (d.putDir key { e with await := [], nodes := e.nodes.filter (· ≠ node), coarse := false, groups := [] }).dirDone key := by
  rw [dirAck_drop found busy awaited]
  simp only [last, List.isEmpty_nil, if_true]
end
end ack

section fwdData
variable {d u : Dev} {m : Msg} {t : Snp}

/-- Of the answers that no snoop awaits, the one that a WB has overtaken is ignored, every other one is late (R280, R295). -/
theorem fwdData_of_unasked (unasked : d.takeSnp m = none) :
    d.fwdData m = if m.data = [] ∧ (m.src, m.tag) ∈ d.herd.raced
      then { d with herd := { d.herd with raced := d.herd.raced.filter (· != (m.src, m.tag)) } } else d.late (m.tag / 32768) := by
  rw [fwdData, unasked]
  exact ite_congr (by simp) (fun _ => rfl) fun _ => rfl

/-- A node that had no data left holds the line no longer (R293). -/
theorem fwdData_empty (asked : d.takeSnp m = some (t, u)) (empty : m.data = []) : d.fwdData m = u.dirAck t.line m.src true := by
  rw [fwdData, asked]
  exact if_pos (List.isEmpty_iff.mpr empty)

section line
variable {e : DirEnt} (asked : d.takeSnp m = some (t, u)) (line : m.data ≠ []) (found : u.dirEnt t.line = some e)
include asked line found

/-- The line comes back from an owner that shares it now (R293), unless it has been set to 0 meanwhile (R244). -/
theorem fwdData_shared (opc : t.opc = 0x31) :
    d.fwdData m = if e.drop then u.snoop t.line { e with drop := false } [m.src] 0x30 else (u.lineBack t.line m).dirAck t.line m.src false := by
  simp [fwdData, asked, line, found, opc]

/-- The line comes back from an owner that holds it no longer, and no request waits for it (R293). -/
theorem fwdData_given_up (opc : t.opc = 0x32) (unserved : e.serving = none) :
    d.fwdData m = (u.lineBack t.line m).dirAck t.line m.src true := by
  simp [fwdData, asked, line, found, opc, unserved]

/-- The line goes on to the node that waits to own it, and not to memory (R293). -/
theorem fwdData_passed_on {w : DirWait} (opc : t.opc = 0x32) (served : e.serving = some w) (kept : e.evicting = false)
    (owns : w.msg.opc = 3 ∨ w.msg.opc = 4) (holds : e.drop = false) :
    let e' := { e with st := 2, nodes := [w.msg.src], busy := false, await := [], serving := none }
    let v := ((u.putDir t.line e').reply w.msg 0x22 0 m.data m.poison).usedEnt t.line
    d.fwdData m = e.queue.foldl (fun d q => d.serve q) (v.putDir t.line { e' with queue := [], used := v.herd.lru }) := by
  simp [fwdData, asked, line, found, opc, served, kept, owns, holds]

end line
end fwdData
end Dev

section exec
variable {h : Fin 36} {m : Msg} {s : State} {u : Dev} (oldest : s.dev.rxFirst h m 0x25 = true)
include oldest

theorem exec_invAck_late (unasked : (s.dev.rxTake h m).takeSnp m = none) :
    exec (.invAck h m) s = .next { s with dev := (s.dev.rxTake h m).late (m.tag / 32768) } :=
  next_msgDo oldest (by rw [unasked])

theorem exec_invAck {t : Snp} {v : Dev} (asked : (s.dev.rxTake h m).takeSnp m = some (t, v)) (noted : v.dirAck t.line m.src true = u) :
    exec (.invAck h m) s = .next { s with dev := u } :=
  next_msgDo oldest (by rw [asked]; exact noted)

end exec

/-- Settles O40: each clause is one case of a snoop at a cache of this device, or of an answer at the home that awaits it or does not. -/
theorem snoops : Obligations.Snoops := by
  intro h m s d dest line
  refine ⟨fun oldest => next_msgDo oldest rfl, ?forwards, fun oldest unasked => exec_invAck_late oldest unasked,
    fun t u e oldest asked found busy awaited more => exec_invAck oldest asked (Dev.dirAck_drop_more found busy awaited more),
    fun t u e oldest asked found busy awaited last => exec_invAck oldest asked (Dev.dirAck_drop_last found busy awaited last),
    fun t u e oldest asked found unawaited => exec_invAck oldest asked (Dev.dirAck_of_unawaited found unawaited true),
    fun oldest unasked => next_msgDo oldest (Dev.fwdData_of_unasked unasked),
    fun t u oldest asked empty => next_msgDo oldest (Dev.fwdData_empty asked empty),
    fun t u e oldest asked line found => ⟨fun opc holds => ?shared, fun opc zeroed => ?zeroed, fun opc unserved => ?given_up,
      fun w opc served kept owns holds unqueued => ?passed_on⟩⟩
  case forwards =>
    simp only [List.forall_mem_cons, List.not_mem_nil, false_imp_iff, implies_true, and_true]
    exact ⟨fun oldest => ⟨fun absent => next_msgDo oldest (Dev.fwdIn_of_absent absent),
        fun _ held shared => next_msgDo oldest (Dev.fwdIn_of_shared held shared),
        fun _ held owned => next_msgDo oldest (Dev.fwdIn_of_owned held owned)⟩,
      fun oldest => ⟨fun absent => next_msgDo oldest (Dev.fwdIn_of_absent absent),
        fun _ held shared => next_msgDo oldest (Dev.fwdIn_of_shared held shared),
        fun _ held owned => next_msgDo oldest (Dev.fwdIn_of_owned held owned)⟩⟩
  case shared => exact next_msgDo oldest ((Dev.fwdData_shared asked line found opc).trans (if_neg (by rw [holds]; decide)))
  case zeroed => exact next_msgDo oldest ((Dev.fwdData_shared asked line found opc).trans (if_pos zeroed))
  case given_up => exact next_msgDo oldest (Dev.fwdData_given_up asked line found opc unserved)
  case passed_on =>
    refine next_msgDo oldest ((Dev.fwdData_passed_on asked line found opc served kept owns holds).trans ?_)
    rw [unqueued]
    rfl

end Sys2Proof.Machine
end

section
/-! PROOFS. Expert routing: tokens, closes, receipts and replies, at their home and at their sender (R301 to R308). -/
namespace Sys2Proof.Machine
namespace Dev

/-! ## Rounds at a home -/

section rounds
variable {d : Dev} {g rd : Nat} {r : Round}

theorem any_round (held : r ∈ d.herd.rounds) (group : r.group = g) (round : r.round = rd) :
    d.herd.rounds.any (fun r => r.group == g && r.round == rd) = true :=
  List.any_eq_true.mpr ⟨r, held, by simp [group, round]⟩

/-- A message of a round that this home holds opens none (R305). -/
theorem openRound_of_held (held : d.herd.rounds.any (fun r => r.group == g && r.round == rd) = true) : d.openRound g rd = d :=
  if_pos held

end rounds

/-- Changes the rounds of one number of a group. -/
def modRounds (d : Dev) (g rd : Nat) (f : Round → Round) : Dev :=
  { d with herd := { d.herd with rounds := d.herd.rounds.map (fun r => if r.group = g ∧ r.round = rd then f r else r) } }

theorem closeRound_eq (d : Dev) (g rd : Nat) : d.closeRound g rd = (d.modRounds g rd fun r => { r with closed := true }).tokWake := by
  simp [closeRound, modRounds]

/-! ## A TOKEN at its home -/

section token
variable {d : Dev} {f : TokFld} {e : Expert} {rd src : Nat} {data : List Byte} {poison : Bool}

/-- A token of an expert that is not placed here is not computed (R300, R301). -/
theorem landToken_unplaced (unplaced : d.expertOf f.expert = none) : d.landToken f rd src data poison = (true, d) := by
  rw [landToken, unplaced]

theorem autoBind_of_bound {ex u : Nat} {b : Bound} (bound : Tab.find d.herd.bound ex = some b) : d.autoBind ex e u = d :=
  if_pos (by rw [bound]; rfl)

section placed
variable {b : Bound} {r : Round} (placed : d.expertOf f.expert = some e) (replica : f.replica ≤ e.nrep)
  (here : e.nodes.getD f.replica 0 = d.nodeId) (live : (d.groupOf e.group).dead = false) (bound : Tab.find d.herd.bound f.expert = some b)
  (recent : d.roundOld e.group rd = false) (first : d.herd.rounds.find? (fun r => r.group == e.group && r.round == rd) = some r)
include placed replica here live bound recent first

/-- A token of a round that this home holds lands where its expert has room left in the round (R304). -/
theorem landToken_placed :
    let i := 4 * f.expert + f.replica
    d.landToken f rd src data poison =
      if e.cap ≤ Tab.getD r.taken i 0 then (true, d.countNc f.expert)
      else (false, ({ d with herd := { d.herd with
        rounds := d.herd.rounds.map (fun q => if q.group = e.group ∧ q.round = rd then { q with taken := Tab.put q.taken i (Tab.getD r.taken i 0 + 1) } else q)
        tokIn := d.herd.tokIn ++ [⟨e.group, rd, f.expert, src, f.ctx, f.token, f.replica, data, poison, false⟩] } } : Dev).tokWake) := by
  have held : d.herd.rounds.any (fun r => r.group == e.group && r.round == rd) = true :=
    List.find?_isSome.trans List.any_eq_true.symm |>.mp (by rw [first]; rfl)
  simp [-List.getD_eq_getElem?_getD, landToken, placed, Nat.not_lt.mpr replica, here, live, autoBind_of_bound bound, bound, recent, held, openRound_of_held held, first]

end placed
end token

/-! ## A CLOSE at a home -/

/-- A CLOSE of a round that is over is a protocol error (R305). -/
theorem landClose_of_old {d : Dev} {g rd h : Nat} (old : d.roundOld g rd = true) : d.landClose g rd (some h) = d.protoErr h := if_pos old

/-- A CLOSE counts in its round; the last one that is due closes it (R305). -/
theorem landClose_of_held {d : Dev} {g rd : Nat} {r : Round} (link : Option Nat) (recent : d.roundOld g rd = false) (held : r ∈ d.herd.rounds)
    (group : r.group = g) (round : r.round = rd) :
    let u := d.modRounds g rd fun q => { q with closes := q.closes + 1 }
    d.landClose g rd link =
      if u.herd.rounds.any (fun q => q.group == g && q.round == rd && decide ((d.groupOf g).p ≤ q.closes)) then u.closeRound g rd else u := by
  have held := any_round held group round
  simp [landClose, modRounds, recent, held, openRound_of_held held]

/-! ## What comes back to a sender -/

section sender
variable {d : Dev} {f : TokFld} {node die : Nat} {t : TokOut}

theorem receiptIn_unsent (unsent : d.tokSent f = none) : d.receiptIn f node die = d.late die := by
  rw [receiptIn, unsent]

section sent
variable (sent : d.tokSent f = some t)
include sent

theorem receiptIn_again (accepted : t.st = 1) : d.receiptIn f node die = d.late die := by
  rw [receiptIn, sent]
  exact if_pos accepted

/-- The receipt of a token that has been accepted (R306). -/
theorem receiptIn_accepted (waits : t.st = 0) (computed : f.nc = false) :
    d.receiptIn f node die = (d.setSent f (some 1)).receiptsIn t.ctx t.send := by
  simp [receiptIn, sent, waits, computed]

/-- The receipt of a token that is not computed brings it back (R306). -/
theorem receiptIn_returned (waits : t.st = 0) (returned : f.nc = true) :
    d.receiptIn f node die =
      (((d.setSent f none).pushBack f.ctx (tokHeader f.token f.expert 5 node f.ctx) [] t.bytes).receiptsIn t.ctx t.send).tokWake := by
  simp [receiptIn, sent, waits, returned]

/-- A reply that comes for the first time, before or after the receipt of its token (R308). -/
theorem returnIn_first (data : List Byte) (bad : Bool) (first : t.st ≠ 2) :
    d.returnIn f node die data bad = ((d.setSent f (if t.st = 0 then some 2 else none)).pushBack f.ctx
      (tokHeader f.token f.expert (if f.nc then 5 else 0) node f.ctx) (if f.nc then [] else data.take t.bytes) t.bytes (bad && !f.nc)).tokWake := by
  rw [returnIn, sent]
  exact if_neg first

theorem replyOver_unaccepted (unaccepted : t.st ≠ 1) : d.replyOver f = d := by
  rw [replyOver, sent]
  exact if_pos unaccepted

/-- An accepted token whose reply has not come is given up (R308). -/
theorem replyOver_accepted (accepted : t.st = 1) :
    d.replyOver f = (((d.count (R.dirToklostCnt (d.ctxDie f.ctx)) (R.dirEvt (d.ctxDie f.ctx)) F.dirEvt_toklostOvf).setSent f none).pushBack f.ctx
      (tokHeader f.token f.expert 5 t.node f.ctx) [] t.bytes).tokWake := by
  rw [replyOver, sent]
  exact if_neg (not_not_intro accepted)

end sent

theorem returnIn_unsent {data : List Byte} {bad : Bool} (unsent : d.tokSent f = none) : d.returnIn f node die data bad = d.late die := by
  rw [returnIn, unsent]

theorem replyOver_unsent (unsent : d.tokSent f = none) : d.replyOver f = d := by
  rw [replyOver, unsent]

end sender

/-! ## The serve timer -/

theorem serveOver_of_open {d : Dev} {g rd : Nat} (opened : d.roundClosed g rd = false) : d.serveOver g rd = d :=
  if_pos (by rw [opened]; rfl)

/-- The tokens of a closed round that have had no reply go back (R308). -/
theorem serveOver_of_closed {d : Dev} {g rd : Nat} (closed : d.roundClosed g rd = true) :
    let hit := fun (t : TokIn) => t.group == g && t.round == rd
    let u : Dev := { d with herd := { d.herd with tokIn := d.herd.tokIn.filter (fun t => !hit t) } }
    d.serveOver g rd = ((d.herd.tokIn.filter hit).foldl (fun d t => d.sendReturn t true []) u).tokWake :=
  if_neg (by rw [closed]; decide)

end Dev

/-- A TOKEN is answered by a receipt that says whether it has landed (R304, R306). -/
theorem exec_token {h : Fin 36} {m : Msg} {s : State} {nc : Bool} {u : Dev} (oldest : s.dev.rxFirst h m 0x40 = true)
    (landed : (s.dev.rxTake h m).landToken (TokFld.of m.addr) m.tag m.src m.data m.poison = (nc, u)) :
    exec (.token h m) s = .next { s with dev :=
      (u.send none ⟨0x27, m.src, u.nodeId, m.tag, false, false, ({ TokFld.of m.addr with nc := nc } : TokFld).word, []⟩).2 } :=
  next_msgDo oldest (by rw [Dev.tokenIn, landed])

/-- Settles O41: each clause is one case of a message of a token or of its round, or of one of their timers. -/
theorem tokens : Obligations.Tokens := by
  intro h m s d dest f receipt
  refine ⟨fun oldest unplaced => exec_token oldest (Dev.landToken_unplaced unplaced), ?token,
    fun oldest old => next_msgDo oldest (Dev.landClose_of_old old),
    fun r oldest recent held group round => next_msgDo oldest (Dev.landClose_of_held _ recent held group round),
    fun oldest unsent => next_msgDo oldest (Dev.receiptIn_unsent unsent),
    fun t oldest sent accepted => next_msgDo oldest (Dev.receiptIn_again sent accepted),
    fun t oldest sent waits computed => next_msgDo oldest (Dev.receiptIn_accepted sent waits computed),
    fun t oldest sent waits returned => next_msgDo oldest (Dev.receiptIn_returned sent waits returned),
    fun oldest unsent => next_msgDo oldest (Dev.returnIn_unsent unsent),
    fun t oldest sent first => next_msgDo oldest (Dev.returnIn_first sent _ _ first), fun g rd => ⟨?round, ?serveOpen, ?serveClosed⟩,
    fun c tok ex => ⟨?replyUnsent, ?replyUnaccepted, ?replyLost⟩, fun r g ok => next_onDev_congr (Dev.regDo_of_ok ok _)⟩
  case token =>
    intro e b r oldest placed replica here live bound recent _ _ _ first
    have landed := Dev.landToken_placed (src := m.src) (data := m.data) (poison := m.poison) placed replica here live bound recent first
    exact ⟨fun full => exec_token oldest (landed.trans (if_pos full)), fun room => exec_token oldest (landed.trans (if_neg (Nat.not_le.mpr room)))⟩
  case round => exact next_onDev_congr (s.dev.closeRound_eq _ _)
  case serveOpen => exact fun opened => next_onDev_eq_self (Dev.serveOver_of_open opened)
  case serveClosed => exact fun closed => next_onDev_congr (Dev.serveOver_of_closed closed)
  case replyUnsent => exact fun unsent => next_onDev_eq_self (Dev.replyOver_unsent unsent)
  case replyUnaccepted => exact fun t sent unaccepted => next_onDev_eq_self (Dev.replyOver_unaccepted sent unaccepted)
  case replyLost => exact fun t sent accepted => next_onDev_congr (Dev.replyOver_accepted sent accepted)

end Sys2Proof.Machine
end

section
/-! PROOFS. The flits of a Herd link, in (R270 to R273): what a flit's bytes say, and what its receiver does with it. -/
namespace Sys2Proof.Machine

/-! ## Bytes and the check of a flit -/

theorem leVal_leBytes (n v : Nat) : leVal (leBytes n v) = v % 256 ^ n := by
  induction n generalizing v with
  | zero => rw [leBytes, leVal, Nat.pow_zero, Nat.mod_one]
  | succ n ih =>
    rw [leBytes, leVal, ih, BitVec.toNat_ofNat, show 256 ^ (n + 1) = 256 * 256 ^ n from Nat.pow_succ', Nat.mod_mul]

theorem crcBit_lt (c : Nat) (b : Bool) : crcBit c b < 2 ^ 64 := by
  have shifted : c * 2 % 2 ^ 64 < 2 ^ 64 := Nat.mod_lt _ (Nat.two_pow_pos 64)
  unfold crcBit
  dsimp only
  split
  · exact Nat.xor_lt_two_pow shifted (by decide)
  · exact shifted

theorem crcByte_lt (c : Nat) (b : Byte) : crcByte c b < 2 ^ 64 := crcBit_lt _ _

theorem crc64_lt (l : List Byte) : crc64 l < 2 ^ 64 := by
  have folded : l.foldl crcByte (2 ^ 64 - 1) < 2 ^ 64 :=
    List.foldlRecOn (motive := (· < 2 ^ 64)) l crcByte (by decide) fun c _ b _ => crcByte_lt c b
  exact Nat.xor_lt_two_pow folded (by decide)

/-- The first 6 bytes of a flit (Table 11-1), as a number. -/
def flitHead (ft sq ack cvc cred : Nat) : Nat := ft + sq % 4096 * 2 ^ 4 + ack % 4096 * 2 ^ 16 + cvc * 2 ^ 28 + min cred 255 * 2 ^ 31

/-- What the check of a flit covers. -/
def flitBody (ft sq ack cvc cred : Nat) (pay : List Byte) : List Byte := leBytes 6 (flitHead ft sq ack cvc cred) ++ pay

section flit
variable {ft sq ack cvc cred : Nat} {pay : List Byte} (full : pay.length = 242)
include full

theorem flit_of_full : flit ft sq ack cvc cred pay = flitBody ft sq ack cvc cred pay ++ leBytes 8 (crc64 (flitBody ft sq ack cvc cred pay)) := by
  have whole : (pay ++ List.replicate (242 - pay.length) 0#8).take 242 = pay := by
    rw [full, Nat.sub_self, List.replicate_zero, List.append_nil, List.take_of_length_le (Nat.le_of_eq full)]
  unfold flit
  rw [whole]
  rfl

theorem length_flitBody : (flitBody ft sq ack cvc cred pay).length = 248 := by
  rw [flitBody, List.length_append, length_leBytes, full]

theorem length_flit : (flit ft sq ack cvc cred pay).length = 256 := by
  rw [flit_of_full full, List.length_append, length_flitBody full, length_leBytes]

/-- The check at the end of a flit is that of the bytes before it (R270). -/
theorem flit_check : leVal ((flit ft sq ack cvc cred pay).drop 248) = crc64 ((flit ft sq ack cvc cred pay).take 248) := by
  rw [flit_of_full full, List.drop_left' (length_flitBody full), List.take_left' (length_flitBody full), leVal_leBytes]
  exact Nat.mod_eq_of_lt (crc64_lt _)

theorem flit_payload : ((flit ft sq ack cvc cred pay).drop 6).take 242 = pay := by
  rw [flit_of_full full, flitBody, List.append_assoc, List.drop_left' (length_leBytes _ _), List.take_left' full]

/-- The fields of a flit as they were put in. -/
theorem flit_fields (hft : ft < 3) (hsq : sq < 4096) (hack : ack < 4096) (hcvc : cvc < 8) (hcred : cred < 256) :
    let w := leVal ((flit ft sq ack cvc cred pay).take 6)
    bitsOf w 0 4 = ft ∧ bitsOf w 4 12 = sq ∧ bitsOf w 16 12 = ack ∧ bitsOf w 28 3 = cvc ∧ bitsOf w 31 8 = cred := by
  rw [flit_of_full full, flitBody, List.append_assoc, List.take_left' (length_leBytes _ _), leVal_leBytes]
  unfold flitHead bitsOf
  dsimp only
  omega

end flit

/-- The bytes of a flit that passes its CRC, with what it says (Table 11-1). -/
structure FlitSays (e : List Byte) (ft sq ack cvc cred : Nat) (pay : List Byte) : Prop where
  whole : e.length = 256
  check : leVal (e.drop 248) = crc64 (e.take 248)
  fields : bitsOf (leVal (e.take 6)) 0 4 = ft ∧ bitsOf (leVal (e.take 6)) 4 12 = sq ∧ bitsOf (leVal (e.take 6)) 16 12 = ack ∧
    bitsOf (leVal (e.take 6)) 28 3 = cvc ∧ bitsOf (leVal (e.take 6)) 31 8 = cred
  payload : (e.drop 6).take 242 = pay
  known : ft < 3

theorem flit_said {ft sq ack cvc cred : Nat} {pay : List Byte} (hft : ft < 3) (hsq : sq < 4096) (hack : ack < 4096) (hcvc : cvc < 8)
    (hcred : cred < 256) (full : pay.length = 242) : FlitSays (flit ft sq ack cvc cred pay) ft sq ack cvc cred pay :=
  ⟨length_flit full, flit_check full, flit_fields full hft hsq hack hcvc hcred, flit_payload full, hft⟩

namespace Dev

/-! ## A flit arrives -/

theorem link_modLink (d : Dev) (h : Nat) (f : Link → Link) : (d.modLink h f).link h = f (d.link h) := Tab.getD_store_same _ _ _ _

theorem link_addPair (d : Dev) (h lo n evt : Nat) (wrap : Fld) : (d.addPair lo n evt wrap).link h = d.link h := by
  unfold addPair
  dsimp only
  split <;> rfl

theorem carries_iff {d : Dev} {h : Nat} : d.carries h = true ↔ d.linkSt h = 2 ∨ d.linkSt h = 3 := by
  simp [carries]

theorem ackTo_rx (l : Link) (ack : Nat) : (ackTo l ack).rxSeq = l.rxSeq ∧ (ackTo l ack).rxPart = l.rxPart := by
  unfold ackTo
  split <;> exact ⟨rfl, rfl⟩

/-- What every good flit brings: an acknowledgement, and credits of one channel (R271, R273). -/
def flitNoted (l : Link) (ack cvc cred : Nat) : Link :=
  let l := ackTo l ack
  if 5 ≤ cvc then l else { l with credits := Tab.put l.credits cvc (Tab.getD l.credits cvc 0 + cred) }

theorem flitNoted_eq (l : Link) (ack cvc cred : Nat) : flitNoted l ack cvc cred =
    let l := ackTo l ack
    if cvc < 5 then { l with credits := Tab.put l.credits cvc (Tab.getD l.credits cvc 0 + cred) } else l := by
  rcases Nat.lt_or_ge cvc 5 with credited | none
  · exact (if_neg (Nat.not_le.mpr credited)).trans (if_pos credited).symm
  · exact (if_pos none).trans (if_neg (Nat.not_lt.mpr none)).symm

theorem flitNoted_rx (l : Link) (ack cvc cred : Nat) : (flitNoted l ack cvc cred).rxSeq = l.rxSeq ∧ (flitNoted l ack cvc cred).rxPart = l.rxPart := by
  unfold flitNoted
  dsimp only
  split <;> exact ackTo_rx l ack

/-- A DATA flit in turn is accepted, and counted (R271). -/
def flitCounted (d : Dev) (h : Nat) : Dev :=
  (d.modLink h (fun l => { l with rxSeq := (l.rxSeq + 1) % 4096, nakOut := false, nakDue := false })).addPair (R.hlRxflitLo h) 1 (R.hlEvt h)
    F.hlEvt_flitsWrap

theorem rxPart_flitCounted (d : Dev) (h : Nat) : ((d.flitCounted h).link h).rxPart = (d.link h).rxPart := by
  rw [flitCounted, link_addPair, link_modLink]

/-- A payload that begins with a 0 byte holds no message (R273). -/
theorem parseRx_padding {d : Dev} {h : Nat} {l : List Byte} (n : Nat) (padding : l.head? = some 0#8) :
    parseRx (n + 1) d h l = d.modLink h (fun k => { k with rxPart := [] }) := by
  obtain ⟨r, rfl⟩ := List.head?_eq_some_iff.mp padding
  rfl

section flitIn
variable {d : Dev} {h : Nat}

/-- A link that carries nothing drops what arrives. -/
theorem flitIn_of_down (e : List Byte) (down : d.carries h = false) : d.flitIn h e = d := if_pos (by rw [down]; rfl)

/-- A flit that fails its CRC is refused; whether it came from an uncorrectable codeword is free (log 5). -/
theorem flitIn_bad {e : List Byte} (up : d.carries h = true) (whole : e.length = 256) (bad : leVal (e.drop 248) ≠ crc64 (e.take 248)) :
    let v := (d.choose 2).2
    d.flitIn h e = v.refuse h ∨
    d.flitIn h e = ((v.count (R.hlFecUncorrCnt h) (R.hlEvt h) F.hlEvt_uncorrOvf).modLink h
      (fun l => { l with uncorrs := lastMs v.now l.uncorrs })).refuse h := by
  have run : d.flitIn h e = (if (d.choose 2).1 = 0 then (d.choose 2).2 else
      ((d.choose 2).2.count (R.hlFecUncorrCnt h) (R.hlEvt h) F.hlEvt_uncorrOvf).modLink h
        (fun l => { l with uncorrs := lastMs (d.choose 2).2.now l.uncorrs })).refuse h := by
    unfold flitIn
    dsimp only
    rw [if_neg (by simp [up, whole]), if_pos (by simp [bad])]
  rw [run]
  split
  · exact .inl rfl
  · exact .inr rfl

section good
variable {e : List Byte} {ft sq ack cvc cred : Nat} {pay : List Byte} (up : d.carries h = true) (said : FlitSays e ft sq ack cvc cred pay)
include up said

/-- A flit that passes its CRC: its acknowledgement and its credits are taken, then it is handled by its type. -/
theorem flitIn_good : d.flitIn h e =
    let u := d.modLink h (flitNoted · ack cvc cred)
    if ft = 1 then
      if sq = ((u.link h).rxSeq + 1) % 4096 then parseRx 512 (u.flitCounted h) h (((u.flitCounted h).link h).rxPart ++ pay) else u.refuse h
    else if ft = 2 then u.nakTake h ack
    else u := by
  obtain ⟨whole, check, ⟨type, seq, acked, channel, credits⟩, payload, known⟩ := said
  unfold flitIn
  dsimp only
  rw [if_neg (by simp [up, whole]), type, seq, acked, channel, credits, if_neg (by simp [check]; omega), payload]
  obtain rfl | rfl | rfl : ft = 0 ∨ ft = 1 ∨ ft = 2 := by omega
  all_goals rfl

theorem flitIn_idle (idle : ft = 0) : d.flitIn h e = d.modLink h (flitNoted · ack cvc cred) := by
  rw [flitIn_good up said, idle]
  rfl

theorem flitIn_nak (nak : ft = 2) : d.flitIn h e = (d.modLink h (flitNoted · ack cvc cred)).nakTake h ack := by
  rw [flitIn_good up said, nak]
  rfl

section data
variable (isData : ft = 1)
include isData

/-- A DATA flit in turn, with padding behind nothing of a message. -/
theorem flitIn_data_padding (inTurn : sq = ((d.link h).rxSeq + 1) % 4096) (nothing : (d.link h).rxPart = []) (padding : pay.head? = some 0#8) :
    d.flitIn h e =
      ((d.modLink h (flitNoted · ack cvc cred)).flitCounted h).modLink h (fun l => { l with rxPart := [] }) := by
  obtain ⟨seq, part⟩ := flitNoted_rx (d.link h) ack cvc cred
  rw [flitIn_good up said]
  dsimp only
  rw [if_pos isData, rxPart_flitCounted, link_modLink, seq, part, nothing, List.nil_append, if_pos inTurn, parseRx_padding _ padding]

/-- A DATA flit out of turn is refused (R271). -/
theorem flitIn_data_refused (outOfTurn : sq ≠ ((d.link h).rxSeq + 1) % 4096) :
    d.flitIn h e = (d.modLink h (flitNoted · ack cvc cred)).refuse h := by
  obtain ⟨seq, -⟩ := flitNoted_rx (d.link h) ack cvc cred
  rw [flitIn_good up said]
  dsimp only
  rw [if_pos isData, link_modLink, seq, if_neg outOfTurn]

end data
end good
end flitIn
end Dev

end Sys2Proof.Machine
end

section
/-! PROOFS. The flits of a Herd link, out (R271, R273, R284), and the states of the link (Table 11-3, R275 to R277, R309). -/
namespace Sys2Proof.Machine
namespace Dev

/-! ## What is sent -/

theorem liveClasses_of_empty (d : Dev) (h : Nat) {l : Link} (empty : l.tx = []) : d.liveClasses h l = [] := by
  have none : ∀ c, d.firstOf h l c = none := fun c => by simp [firstOf, empty]
  simp [liveClasses, none]

theorem nextMsg_of_empty (d : Dev) (h : Nat) {l : Link} (empty : l.tx = []) : d.nextMsg h l = none := by
  simp [nextMsg, empty, liveClasses_of_empty d h empty]

/-- A round of the classes changes what has been granted alone (R284). -/
theorem newRound_keeps (d : Dev) (h : Nat) (l : Link) : (d.newRound h l).tx = l.tx ∧ (d.newRound h l).txPart = l.txPart := by
  unfold newRound
  dsimp only
  split
  · exact ⟨rfl, rfl⟩
  · split <;> exact ⟨rfl, rfl⟩

section send
variable {d : Dev} {h : Nat}

theorem pack_of_empty (n : Nat) (empty : (d.link h).tx = []) : pack n d h = d := by
  cases n with
  | zero => rfl
  | succ n =>
    have none := d.nextMsg_of_empty h ((d.newRound_keeps h (d.link h)).1.trans empty)
    rw [pack]
    dsimp only
    rw [none]
    exact ite_self d

theorem pack_of_full (n : Nat) (full : 242 ≤ (d.link h).txPart.length) : pack n d h = d := by
  cases n with
  | zero => rfl
  | succ n => exact if_pos (by rwa [(d.newRound_keeps h (d.link h)).2])

/-- Puts a flit on a link's lanes that returns no credits. -/
def putPlain (d : Dev) (h ft sq : Nat) (pay : List Byte) : Dev := d.modLink h (fun k => { k with wire := flit ft sq k.rxSeq 7 0 pay })

theorem putWire_of_paid (ft sq : Nat) (pay : List Byte) (paid : (d.link h).owed = []) : d.putWire h ft sq pay = d.putPlain h ft sq pay := by
  rw [putWire]
  dsimp only
  rw [paid]
  rfl

/-- Counts a DATA flit that has been sent. -/
def flitSent (d : Dev) (h : Nat) : Dev := d.addPair (R.hlTxflitLo h) 1 (R.hlEvt h) F.hlEvt_flitsWrap

theorem transmit_of_down (down : d.carries h = false ∨ d.devFatal = true) : d.transmit h = d := by
  refine if_pos ?_
  rcases down with down | fatal
  · rw [down]; rfl
  · rw [fatal, Bool.or_true]

section up
variable (up : d.carries h = true) (runs : d.devFatal = false)
include up runs

/-- A NAK that is due goes first (R271). -/
theorem transmit_nak (due : (d.link h).nakDue = true) :
    d.transmit h = (d.modLink h (fun l => { l with nakDue := false, nakOut := true })).putWire h 2 0 [] :=
  (if_neg (by rw [up, runs]; decide)).trans (if_pos due)

section noNak
variable (noNak : (d.link h).nakDue = false)
include noNak

/-- With no NAK due, a flit that goes again, a new one or IDLE is sent (R271, R273, R284). -/
theorem transmit_of_noNak : d.transmit h =
    match (if (d.link h).resend = 0 then none else (d.link h).replay[(d.link h).replay.length - (d.link h).resend]?) with
    | some f => ((d.modLink h (fun l => { l with resend := l.resend - 1 })).putWire h 1 f.seq f.payload).flitSent h
    | none =>
      let e := if (d.link h).replay.length < 512 then pack 64 d h else d
      if (e.link h).txPart.isEmpty || 512 ≤ (d.link h).replay.length then d.putWire h 0 0 []
      else ((e.modLink h (fun l => { l with
        replay := l.replay ++ [⟨l.txSeq, (e.link h).txPart.take 242⟩], txPart := l.txPart.drop 242, txSeq := (l.txSeq + 1) % 4096 })).putWire h 1
          (d.link h).txSeq ((e.link h).txPart.take 242)).flitSent h :=
  (if_neg (by rw [up, runs]; decide)).trans (if_neg (by rw [noNak]; decide))

theorem transmit_again {f : TxFlit} (again : (d.link h).resend ≠ 0)
    (flit : (d.link h).replay[(d.link h).replay.length - (d.link h).resend]? = some f) :
    d.transmit h = ((d.modLink h (fun l => { l with resend := l.resend - 1 })).putWire h 1 f.seq f.payload).flitSent h := by
  rw [transmit_of_noNak up runs noNak, if_neg again, flit]

variable (noneAgain : (d.link h).resend = 0)
include noneAgain

/-- With nothing to send, an IDLE flit goes (R273). -/
theorem transmit_idle (empty : (d.link h).tx = []) (noPart : (d.link h).txPart = []) : d.transmit h = d.putWire h 0 0 [] := by
  rw [transmit_of_noNak up runs noNak, if_pos noneAgain, pack_of_empty 64 empty]
  dsimp only
  rw [ite_self, noPart]
  rfl

/-- With the bytes of a flit packed, and room to keep it until it is acknowledged, a DATA flit goes (R271). -/
theorem transmit_data (full : 242 ≤ (d.link h).txPart.length) (room : (d.link h).replay.length < 512) :
    d.transmit h = ((d.modLink h (fun l => { l with
        replay := l.replay ++ [⟨l.txSeq, (d.link h).txPart.take 242⟩], txPart := l.txPart.drop 242, txSeq := (l.txSeq + 1) % 4096 })).putWire h 1
          (d.link h).txSeq ((d.link h).txPart.take 242)).flitSent h := by
  have some : (d.link h).txPart ≠ [] := fun nil => by rw [nil] at full; exact absurd full (by decide)
  rw [transmit_of_noNak up runs noNak, if_pos noneAgain, pack_of_full 64 full]
  dsimp only
  rw [ite_self]
  exact if_neg (by simp [some, room])

end noNak
end up
end send

/-! ## The states of a link -/

section states
variable {d : Dev} {h : Nat}

theorem mayTrain_iff : d.mayTrain h = true ↔
    d.linkSt h = 0 ∧ (d.link h).signal = true ∧ d.flag (R.hlCtrl h) F.hlCtrl_disable = false := by
  simp [mayTrain, and_assoc]

/-- A DOWN link with a signal that is not held down begins to train (R275). -/
theorem train_of_ready (down : d.linkSt h = 0) (signal : (d.link h).signal = true) (enabled : d.flag (R.hlCtrl h) F.hlCtrl_disable = false) :
    d.train h = d.setLinkSt h 1 := if_pos (mayTrain_iff.mpr ⟨down, signal, enabled⟩)

theorem train_of_held (held : d.linkSt h ≠ 0 ∨ (d.link h).signal = false ∨ d.flag (R.hlCtrl h) F.hlCtrl_disable = true) : d.train h = d := by
  refine if_neg (mt mayTrain_iff.mp ?_)
  rintro ⟨down, signal, enabled⟩
  simp [down, signal, enabled] at held

theorem trainDone_of_training (training : d.linkSt h = 1) : d.trainDone h =
    ((d.setLinkSt h 2).setFld (R.hlState h) F.hlState_fecLock 1).modLink h (fun l => { l with resend := l.replay.length }) := if_pos training

theorem trainDone_of_other (other : d.linkSt h ≠ 1) : d.trainDone h = d := if_neg other

/-- An ACTIVE link with too many errors in a millisecond, or that has lost its lock, retrains (R276). -/
theorem retrainEnter_of_bad {lost : Bool} (active : d.linkSt h = 3)
    (bad : lost = true ∨ 32 < (inMs d.now (d.link h).replays).length ∨ 16 < (inMs d.now (d.link h).uncorrs).length) :
    d.retrainEnter h lost = d.retrain h lost := if_pos (by simpa [active, or_assoc] using bad)

theorem retrainEnter_of_good {lost : Bool} (good : d.linkSt h ≠ 3 ∨ (lost = false ∧ (inMs d.now (d.link h).replays).length ≤ 32 ∧
    (inMs d.now (d.link h).uncorrs).length ≤ 16)) : d.retrainEnter h lost = d := by
  refine if_neg ?_
  rcases good with other | ⟨kept, replays, uncorrs⟩
  · simp [other]
  · simp [kept, replays, uncorrs]

theorem retrainDone_of_retrain (retrains : d.linkSt h = 4) : d.retrainDone h =
    ((d.setLinkSt h 3).setFld (R.hlState h) F.hlState_fecLock 1).modLink h (fun l => { l with fails := 0, resend := l.replay.length }) :=
  if_neg (not_not_intro retrains)

theorem retrainDone_of_other (other : d.linkSt h ≠ 4) : d.retrainDone h = d := if_pos other

theorem retrainFail_of_other (other : d.linkSt h ≠ 4) : d.retrainFail h = d := if_pos other

theorem retrainFail_first (retrains : d.linkSt h = 4) (first : (d.link h).fails = 0) :
    d.retrainFail h = (d.modLink h (fun l => { l with fails := 1 })).retrain h false :=
  (if_neg (not_not_intro retrains)).trans (if_pos first)

/-- The second failure in a row fences the link (R277). -/
theorem retrainFail_second (retrains : d.linkSt h = 4) (again : (d.link h).fails ≠ 0) (acknowledged : (d.link h).replay = []) :
    d.retrainFail h =
      (((d.fenceLink h).modLink h (fun l => { l with replay := [], resend := 0, txPart := [], fails := 0 })).reroute h).raise
        ⟨0, 0x06, unitId 5 h, unitId 5 h, 6, 0#64, 0, false, false, none⟩ := by
  refine (if_neg (not_not_intro retrains)).trans ((if_neg again).trans ?_)
  rw [acknowledged]
  rfl

/-- A fenced link stays so (Table 11-3). -/
theorem linkDown_eq_ite : d.linkDown h = if d.linkSt h = 5 then d else d.linkDown h := by
  split
  · next fenced => exact if_pos fenced
  · rfl

theorem hlCtrlWrite_set : d.hlCtrlWrite h (BitVec.ofNat 32 (b2n true)) = (d.setFld (R.hlCtrl h) F.hlCtrl_disable 1).linkDown h := rfl

theorem hlCtrlWrite_clear : d.hlCtrlWrite h (BitVec.ofNat 32 (b2n false)) = (d.setFld (R.hlCtrl h) F.hlCtrl_disable 0).train h := rfl

end states
end Dev

section exec
variable {s : State} {f : Dev → Dev} {u : Dev}

theorem next_onDev_eq (made : f s.dev = u) : (.next (s.onDev f) : Out) = .next { s with dev := u } := next_onDev_congr (g := fun _ => u) made

theorem next_settled_eq (made : f s.dev = u) : (.next (s.onDev f).settled : Out) = .next (State.settled { s with dev := u }) :=
  next_settled_congr (onDev_congr (g := fun _ => u) made)

end exec

/-- Settles O42: each clause is one case of a flit that comes in, of the next one that goes out, or of an event at a link's state. -/
theorem herdLinks : Obligations.HerdLinks := by
  intro h s d l dest is live recent refused
  have carries : live ↔ d.carries h = true := Dev.carries_iff.symm
  have down : ¬ live → d.carries h = false := fun dead => Bool.eq_false_iff.mpr (mt carries.mpr dead)
  refine ⟨fun e dead => next_settled_eq (Dev.flitIn_of_down e (down dead)), ?bad, ?good, ?nakDropped, ?nak, rfl, ?silent, ?transmit,
    ⟨?signalTrains, ?signalNoted⟩, ⟨?lossDown, ?lossNoted⟩, ?trained, ?untrained, ?trainingOver, ?retry, ?noRetry, ?enter, ?stay, ?retrained,
    ?notRetraining, ?firstFailure, ?secondFailure, ?disable⟩
  case bad =>
    intro e alive whole bad
    exact (Dev.flitIn_bad (carries.mp alive) whole bad).imp (fun made => next_settled_eq made) fun made => next_settled_eq made
  case good =>
    intro e ft sq ack cvc cred pay alive hft hsq hack hcvc hcred full isFlit u
    have up := carries.mp alive
    have said := flit_said hft hsq hack hcvc hcred full
    have noted : d.modLink h (Dev.flitNoted · ack cvc cred) = u := congrArg (d.modLink h) (funext fun l => Dev.flitNoted_eq l ack cvc cred)
    rw [← isFlit] at said
    rw [← noted]
    exact ⟨fun idle => next_settled_eq (Dev.flitIn_idle up said idle), fun nak => next_settled_eq (Dev.flitIn_nak up said nak),
      fun isData inTurn nothing padding => next_settled_eq (Dev.flitIn_data_padding up said isData inTurn nothing padding),
      fun isData outOfTurn => next_settled_eq (Dev.flitIn_data_refused up said isData outOfTurn)⟩
  case nakDropped => exact fun ack dead => next_settled_eq (if_neg (mt carries.mpr dead))
  case nak => exact fun ack alive => next_settled_eq (if_pos (carries.mp alive))
  case silent => exact fun dead => next_onDev_eq (Dev.transmit_of_down (dead.imp_left down))
  case transmit =>
    intro alive runs paid put count
    have up := carries.mp alive
    have plain : ∀ (f : Link → Link) (ft sq : Nat) (pay : List Byte), (f l).owed = l.owed →
        (d.modLink h f).putWire h ft sq pay = (d.modLink h f).putPlain h ft sq pay := fun f ft sq pay kept =>
      Dev.putWire_of_paid ft sq pay (by rw [Dev.link_modLink]; exact kept.trans paid)
    exact ⟨fun due => next_onDev_eq ((Dev.transmit_nak up runs due).trans (plain _ _ _ _ rfl)),
      fun f noNak again flit => next_onDev_eq ((Dev.transmit_again up runs noNak again flit).trans (congrArg count (plain _ _ _ _ rfl))),
      fun noNak noneAgain empty noPart =>
        next_onDev_eq ((Dev.transmit_idle up runs noNak noneAgain empty noPart).trans (Dev.putWire_of_paid _ _ _ paid)),
      fun noNak noneAgain full room =>
        next_onDev_eq ((Dev.transmit_data up runs noNak noneAgain full room).trans (congrArg count (plain _ _ _ _ rfl)))⟩
  case signalTrains =>
    exact fun isDown enabled => next_onDev_eq (Dev.train_of_ready isDown (congrArg Link.signal (d.link_modLink h _)) enabled)
  case signalNoted => exact fun held => next_onDev_eq (Dev.train_of_held (held.imp_right .inr))
  case lossDown => exact fun trains => next_onDev_eq (if_pos (by simpa using trains))
  case lossNoted => exact fun notTraining notUnassigned => next_onDev_eq (if_neg (by simpa using And.intro notTraining notUnassigned))
  case trained => exact fun training => next_onDev_eq (Dev.trainDone_of_training training)
  case untrained => exact fun other => ⟨next_onDev_eq (Dev.trainDone_of_other other), next_onDev_eq (if_neg other)⟩
  case trainingOver => exact fun training => next_onDev_eq (if_pos training)
  case retry => exact fun isDown signal enabled => next_onDev_eq (Dev.train_of_ready isDown signal enabled)
  case noRetry => exact fun held => next_onDev_eq (Dev.train_of_held held)
  case enter => exact fun lost active bad => next_settled_eq (Dev.retrainEnter_of_bad active bad)
  case stay => exact fun lost good => next_settled_eq (Dev.retrainEnter_of_good good)
  case retrained => exact fun retrains => next_onDev_eq (Dev.retrainDone_of_retrain retrains)
  case notRetraining => exact fun other => ⟨next_onDev_eq (Dev.retrainDone_of_other other), next_settled_eq (Dev.retrainFail_of_other other)⟩
  case firstFailure => exact fun retrains first => next_settled_eq (Dev.retrainFail_first retrains first)
  case secondFailure => exact fun retrains again acknowledged => next_settled_eq (Dev.retrainFail_second retrains again acknowledged)
  case disable =>
    exact fun r ok => ⟨next_onDev_eq ((Dev.regDo_of_ok ok _).trans (Dev.hlCtrlWrite_set.trans Dev.linkDown_eq_ite)),
      next_onDev_eq ((Dev.regDo_of_ok ok _).trans Dev.hlCtrlWrite_clear)⟩

end Sys2Proof.Machine
end

section
/-! PROOFS. Enumeration of a Herd domain: the messages of link management, the start at the root, and its timers (R285 to R289). -/
namespace Sys2Proof.Machine
namespace Dev

/-! ## A message with a path -/

/-- The number of the hop that such a message has made (log 36). -/
def pathHop (m : Msg) : Nat := (m.data.getD 0 0#8).toNat
/-- The number of its hops. -/
def pathLen (m : Msg) : Nat := (m.data.getD 1 0#8).toNat
/-- Its bytes, with the link on which it came in the place of its hop. -/
def pathData (h : Nat) (m : Msg) : List Byte := m.data.set (2 + (pathHop m - 1)) (BitVec.ofNat 8 h)
/-- The path back to its sender. -/
def pathBack (h : Nat) (m : Msg) : List Nat := (((pathData h m).drop 2).take (pathLen m) |>.map (·.toNat % 36)).reverse

section path
variable {d : Dev} {h : Nat} {m : Msg} (f : Dev → List Byte → List Nat → Dev)

theorem onPath_eq : d.onPath h m f =
    if pathHop m = 0 || pathLen m < pathHop m || 14 < pathLen m then d.protoErr h
    else if pathHop m < pathLen m then
      d.pushTx (((pathData h m).getD (2 + pathHop m) 0#8).toNat % 36) none { m with data := (pathData h m).set 0 (BitVec.ofNat 8 (pathHop m + 1)) }
    else f d ((pathData h m).drop 16) (pathBack h m) := rfl

/-- A path that no message can have is a protocol error. -/
theorem onPath_bad (bad : pathHop m = 0 ∨ pathLen m < pathHop m ∨ 14 < pathLen m) : d.onPath h m f = d.protoErr h := by
  rw [onPath_eq, if_pos (by simpa [or_assoc] using bad)]

/-- On its way the message goes on along its path. -/
theorem onPath_further (begun : 0 < pathHop m) (further : pathHop m < pathLen m) (short : pathLen m ≤ 14) : d.onPath h m f =
    d.pushTx (((pathData h m).getD (2 + pathHop m) 0#8).toNat % 36) none
      { m with data := (pathData h m).set 0 (BitVec.ofNat 8 (pathHop m + 1)) } := by
  rw [onPath_eq, if_neg (by simp; omega), if_pos further]

/-- A message has come to the end of its path. -/
def PathEnds (m : Msg) : Prop := 0 < pathHop m ∧ pathHop m = pathLen m ∧ pathLen m ≤ 14

/-- At its end the message is delivered. -/
theorem onPath_here (here : PathEnds m) : d.onPath h m f = f d ((pathData h m).drop 16) (pathBack h m) := by
  obtain ⟨begun, last, short⟩ := here
  rw [onPath_eq, if_neg (by simp; omega), if_neg (Nat.not_lt.mpr (Nat.le_of_eq last.symm))]

end path

/-! ## The messages of link management -/

theorem reg_setFlds_other (d : Dev) {a b : Nat} (l : List (Fld × Nat)) (other : b ≠ a) : (d.setFlds a l).reg b = d.reg b := by
  induction l generalizing d with
  | nil => rfl
  | cons p l ih => exact (ih _).trans (d.reg_setFld_other p.1 p.2 other)

theorem assigned_setFlds_hlState (d : Dev) (h : Nat) (l : List (Fld × Nat)) : (d.setFlds (R.hlState h) l).assigned = d.assigned := by
  have other : R.addrNode ≠ R.hlState h := by simp only [R.addrNode, R.hlState]; omega
  rw [assigned, flag, fld, reg_setFlds_other d l other]
  rfl

theorem assigned_modLink (d : Dev) (h : Nat) (f : Link → Link) : (d.modLink h f).assigned = d.assigned := rfl

theorem with_rootSerial_self (d : Dev) : { d with herd := { d.herd with rootSerial := d.herd.rootSerial } } = d := rfl

theorem testBit_of_mod_sixteen {x i : Nat} (zero : x % 16 = 0) (low : i < 4) : x.testBit i = false := by
  have bit := Nat.testBit_mod_two_pow x 4 i
  rwa [show x % 2 ^ 4 = 0 from zero, Nat.zero_testBit, decide_eq_true low, Bool.true_and, eq_comm] at bit

section arrival
variable {d : Dev} {h : Nat} {m : Msg}

/-- The HELLO of a device that is neither root nor assigned, to one that is not assigned either (R286): its identity is noted. -/
theorem helloIn_plain (hello : m.data.length = 32) (unassigned : d.assigned = false) (plain : (m.data.getD 8 0#8).toNat % 16 = 0) :
    d.helloIn h m = (d.setFlds (R.hlState h) [(F.hlState_peerHl, (m.data.getD 9 0#8).toNat % 64), (F.hlState_peerValid, 1),
      (F.hlState_peerNode, leVal ((m.data.drop 12).take 2) % 4096)]).modLink h (fun l => { l with
        peerSerial := BitVec.ofNat 64 (leVal (m.data.take 8)), peerRoot := none, peerAssigned := false }) := by
  have still : ∀ (l : List (Fld × Nat)) (f : Link → Link), ((d.setFlds (R.hlState h) l).modLink h f).assigned = false := fun l f =>
    (assigned_modLink _ h f).trans ((assigned_setFlds_hlState d h l).trans unassigned)
  rw [helloIn, if_neg (not_not_intro hello)]
  dsimp only
  rw [testBit_of_mod_sixteen plain (by decide : 3 < 4), testBit_of_mod_sixteen plain (by decide : 2 < 4),
    testBit_of_mod_sixteen plain (by decide : 0 < 4), still]
  exact with_rootSerial_self _

variable (here : PathEnds m)
include here

/-- A PROBE is answered with this device's links; up to 24 of them fill one reply (log 36). -/
theorem probeIn_here (pref : Option Nat) (few : d.myAdj.length ≤ 24) :
    let u : Dev := { d with herd := { d.herd with rootPath := pathBack h m } }
    d.probeIn pref h m = u.lmpPath 0x52 0 Config.serial (pathBack h m) (leBytes 8 Config.serial.toNat ++ leBytes 2 (pref.getD 0xFFFF) ++
      leBytes 1 1 ++ leBytes 1 d.myAdj.length ++ List.replicate 4 0#8 ++ d.myAdj.flatMap (fun e => leBytes 1 e.1 ++ leBytes 8 e.2.toNat)) := by
  have one : chunks 40 24 ({ d with herd := { d.herd with rootPath := pathBack h m } } : Dev).myAdj = [d.myAdj] := if_pos few
  rw [probeIn, onPath_here _ here]
  dsimp only
  rw [one]
  rfl

/-- The serial of the device whose PROBE_REPLY a message is. -/
def probeSerial (h : Nat) (m : Msg) : W64 := BitVec.ofNat 64 (leVal (((pathData h m).drop 16).take 8))

theorem probeReplyIn_unknown (unknown : ∀ q ∈ d.herd.members, q.serial ≠ probeSerial h m) : d.probeReplyIn h m = d := by
  have none : d.herd.members.find? (fun q => q.serial == probeSerial h m) = none :=
    List.find?_eq_none.mpr fun q listed => by simpa using unknown q listed
  rw [probeReplyIn, onPath_here _ here]
  unfold probeSerial at none
  dsimp only
  rw [none]

/-- A PROBE_REPLY that names no further links, and is not the last: the root learns the preferred ID (R288). -/
theorem probeReplyIn_known {q : Member} (known : d.herd.members.find? (fun q => q.serial == probeSerial h m) = some q)
    (asked : Tab.find d.herd.probes (probeSerial h m).toNat ≠ none) (noLinks : ((pathData h m).drop 16).getD 11 0#8 = 0#8)
    (more : ((pathData h m).drop 16).getD 10 0#8 = 0#8) :
    let pf := leVal ((((pathData h m).drop 16).drop 8).take 2)
    d.probeReplyIn h m = { d with herd := { d.herd with members := d.herd.members.map (fun r =>
      if r.serial = probeSerial h m then { r with pref := if pf < 4096 then some pf else none } else r) } } := by
  have probed : ¬ (Tab.find d.herd.probes (probeSerial h m).toNat).isNone = true := mt Option.isNone_iff_eq_none.mp asked
  rw [probeReplyIn, onPath_here _ here]
  unfold probeSerial at known probed ⊢
  dsimp only
  rw [known]
  dsimp only
  rw [if_neg probed, noLinks, if_pos more]
  simp

theorem assignIn_here : d.assignIn h m =
    let b := (pathData h m).drop 16
    let u : Dev := { d with herd := { d.herd with rootPath := pathBack h m } }
    if b.getD 2 0#8 ≠ 0#8 then u.setFld R.dirEnum F.dirEnum_state 3
    else
      let v := u.setFlds R.addrNode [(F.addrNode_nodeId, leVal (b.take 2)), (F.addrNode_assigned, 1)]
      ({ v with herd := { v.herd with rootSerial := some (BitVec.ofNat 64 (leVal ((b.drop 8).take 8))) } } : Dev).setFld R.dirEnum
        F.dirEnum_isroot 0 := onPath_here _ here

theorem routeIn_here : d.routeIn h m =
    let b := (pathData h m).drop 16
    d.loadRoutes ((b.getD 0 0#8).toNat.testBit 0) ((b.getD 0 0#8).toNat.testBit 1)
      ((List.range (b.getD 1 0#8).toNat).map (fun i => routeOf ((b.drop (16 + 8 * i)).take 8))) := onPath_here _ here

theorem nodeGoneIn_here : d.nodeGoneIn h m = d.nodeGone (leVal (((pathData h m).drop 16).take 2) % 4096) := onPath_here _ here

end arrival

/-! ## The start at the root, and the timers -/

section root
variable {d : Dev}

theorem hello_of_other {pref : Option Nat} {h : Nat} (other : d.linkSt h ≠ 2) : d.hello pref h = d := if_neg other

theorem hello_of_unassigned (pref : Option Nat) {h : Nat} (unassigned : d.linkSt h = 2) : d.hello pref h =
    d.pushTx h none ⟨0x50, 0, d.nodeId, 0, false, false, Config.serial, padUnits (d.helloData pref h)⟩ := if_pos unassigned

theorem enumStart_of_member (pref : Option Nat) (member : d.flag R.dirCfg F.dirCfg_root = false) : d.enumStart pref = d :=
  if_pos (by rw [isRootCfg, member]; rfl)

section mayBeRoot
variable (mayBe : d.flag R.dirCfg F.dirCfg_root = true) (pref : Option Nat)
include mayBe

theorem enumStart_of_higher (higher : d.lowRoot ≠ some Config.serial) : d.enumStart pref = d.setFld R.dirEnum F.dirEnum_isroot 0 :=
  (if_neg (by rw [isRootCfg, mayBe]; decide)).trans (if_pos higher)

/-- The device of the lowest serial is the root: it takes its ID and probes what its links lead to (R287). -/
theorem enumStart_of_lowest (lowest : d.lowRoot = some Config.serial) :
    let u := ((d.setFld R.dirEnum F.dirEnum_isroot 1).setFld R.dirEnum F.dirEnum_state 1).setFlds R.addrNode
      [(F.addrNode_nodeId, pref.getD 0), (F.addrNode_assigned, 1)]
    let v : Dev := { u with herd := { u.herd with
      rootSerial := some Config.serial, retired := [], probes := [], members := [⟨Config.serial, pref, some (pref.getD 0), [], u.myAdj⟩] } }
    d.enumStart pref = (u.myAdj.foldl (fun d e => d.probe e.2 [e.1]) v).probesOver :=
  (if_neg (by rw [isRootCfg, mayBe]; decide)).trans (if_neg (not_not_intro lowest))

end mayBeRoot

theorem probeTimeout_unasked {t : W64} (unasked : Tab.find d.herd.probes t.toNat = none) : d.probeTimeout t = d := by
  rw [probeTimeout, unasked]

section probes
variable {t : W64} {k : Nat} {m : Member} (asked : Tab.find d.herd.probes t.toNat = some k)
  (known : d.herd.members.find? (fun m => m.serial == t) = some m)
include asked known

/-- A probe without a reply goes again up to the third time (R285). -/
theorem probeTimeout_again (again : k < 3) : d.probeTimeout t =
    ({ d with herd := { d.herd with probes := Tab.put d.herd.probes t.toNat (k + 1) } } : Dev).lmpPath 0x51 0 t m.path [] := by
  rw [probeTimeout, asked, known]
  exact if_pos again

/-- After the third the device is left out (R285). -/
theorem probeTimeout_over (third : 3 ≤ k) : d.probeTimeout t =
    ({ d with herd := { d.herd with probes := Tab.del d.herd.probes t.toNat, members := d.herd.members.filter (fun m => m.serial != t) } } : Dev).probesOver := by
  rw [probeTimeout, asked, known]
  exact if_neg (Nat.not_lt.mpr third)

end probes

theorem nodeGoneTimer_idle {n : Nat} (idle : d.flag R.dirEnum F.dirEnum_isroot = false ∨ d.fld R.dirEnum F.dirEnum_state ≠ 2 ∨ n = d.nodeId) :
    d.nodeGoneTimer n = d := by
  refine if_pos ?_
  rcases idle with member | busy | self
  · simp [member]
  · simp [enumSt, busy]
  · simp [self]

/-- The root takes a node that is gone off its list, and tells the others (R288). -/
theorem nodeGoneTimer_due {n : Nat} (root : d.flag R.dirEnum F.dirEnum_isroot = true) (done : d.fld R.dirEnum F.dirEnum_state = 2)
    (other : n ≠ d.nodeId) (known : ∃ m ∈ d.herd.members, m.id = some n) :
    let u : Dev := { d with herd := { d.herd with members := d.herd.members.filter (fun m => m.id != some n) } }
    d.nodeGoneTimer n = (u.herd.members.foldl (fun d m =>
      if m.serial = Config.serial then d else d.lmpPath 0x55 0 m.serial m.path (leBytes 2 n ++ List.replicate 14 0#8)) u).nodeGone n :=
  if_neg (by simpa [root, enumSt, done, other] using known)

end root
end Dev

/-- The commands of the messages that travel along a path, each with its opcode. -/
def pathMsgs : List ((Fin 36 → Msg → Instr) × Nat) :=
  [(Instr.probe, 0x51), (Instr.probeReply, 0x52), (Instr.assign, 0x53), (Instr.route, 0x54), (Instr.nodeGone, 0x55)]

/-- What such a message does on its way does not depend on what it says at its end. -/
theorem exec_onPath {h : Fin 36} {m : Msg} {s : State} {r : (Fin 36 → Msg → Instr) × Nat} (named : r ∈ pathMsgs) (oldest : s.dev.rxFirst h m r.2 = true) :
    ∃ f, exec (r.1 h m) s = .next { s with dev := (s.dev.rxTake h m).onPath h m f } := by
  simp only [pathMsgs, List.mem_cons, List.not_mem_nil, or_false] at named
  rcases named with rfl | rfl | rfl | rfl | rfl <;> exact ⟨_, next_msgDo oldest rfl⟩

/-- Settles O44: each clause is one case of a message of link management, of the start at the root, or of one of its timers. -/
theorem enumeration : Obligations.Enumeration := by
  intro s d is
  refine ⟨fun h => ⟨fun other => next_onDev_eq (Dev.hello_of_other other), fun unassigned => next_onDev_eq (Dev.hello_of_unassigned _ unassigned)⟩,
    ?messages, fun r ok => ⟨?member, ?higher, ?lowest⟩, fun t => ⟨?unasked, fun k m asked known => ⟨?again, ?third⟩⟩,
    fun n => ⟨?idle, ?due⟩⟩
  case messages =>
    intro h m t hop len data back pay here
    refine ⟨?way, ?hello, ?probe, ?replyUnknown, ?replyKnown, ?assign, ?route, ?nodeGone⟩
    case way =>
      intro r named oldest
      obtain ⟨f, run⟩ := exec_onPath named oldest
      exact ⟨fun bad => run.trans (by rw [Dev.onPath_bad f bad]),
        fun begun further short => run.trans (by rw [Dev.onPath_further f begun further short]; rfl)⟩
    case hello => exact fun oldest whole unassigned plain => next_msgDo oldest (Dev.helloIn_plain whole unassigned plain)
    case probe => exact fun oldest here few => next_msgDo oldest (Dev.probeIn_here here _ few)
    case replyUnknown => exact fun oldest here unknown => next_msgDo oldest (Dev.probeReplyIn_unknown here unknown)
    case replyKnown =>
      exact fun q oldest here known asked noLinks more => next_msgDo oldest (Dev.probeReplyIn_known here known asked noLinks more)
    case assign =>
      exact fun oldest here => ⟨fun refused => next_msgDo oldest ((Dev.assignIn_here here).trans (if_pos refused)),
        fun given => next_msgDo oldest ((Dev.assignIn_here here).trans (if_neg (not_not_intro given)))⟩
    case route => exact fun oldest here => next_msgDo oldest (Dev.routeIn_here here)
    case nodeGone => exact fun oldest here => next_msgDo oldest (Dev.nodeGoneIn_here here)
  case member => exact fun member => next_onDev_eq ((Dev.regDo_of_ok ok _).trans (Dev.enumStart_of_member _ member))
  case higher => exact fun mayBe higher => next_onDev_eq ((Dev.regDo_of_ok ok _).trans (Dev.enumStart_of_higher mayBe _ higher))
  case lowest => exact fun mayBe lowest => next_onDev_eq ((Dev.regDo_of_ok ok _).trans (Dev.enumStart_of_lowest mayBe _ lowest))
  case unasked => exact fun unasked => next_onDev_eq (Dev.probeTimeout_unasked unasked)
  case again => exact fun again => next_onDev_eq (Dev.probeTimeout_again asked known again)
  case third => exact fun third => next_onDev_eq (Dev.probeTimeout_over asked known third)
  case idle => exact fun idle => next_onDev_eq (Dev.nodeGoneTimer_idle idle)
  case due => exact fun root done other known => next_onDev_eq (Dev.nodeGoneTimer_due root done other known)

end Sys2Proof.Machine
end
